-- ==== Sys2Proof/Word.lean ====
section
/-!
DEFINITION. Sys2Proof/Word.lean: the word types of the block and its plainest arithmetic.
-/
namespace Sys2Proof

/-- One byte of memory or of a frame. -/
abbrev Byte := BitVec 8

/-- A string of bytes, lowest address or first on the wire first. -/
abbrev Bytes := List Byte

/-- One Gulsofin instruction word (R137), one stored 16-byte code word (R316). -/
abbrev Word128 := BitVec 128

/-- A scalar register of a core (R144). -/
abbrev Word64 := BitVec 64

/-- A port: 0x00 to 0x7F are F000 to F127 and 0x80 is control port C (chapter 11). -/
abbrev PortId := Fin 129

/-- Core c of quire q is core 8q + c (chapter 7). -/
abbrev CoreId := Fin 32

/-- Q0 to Q3. -/
abbrev QuireId := Fin 4

/-- A Collator context number (R216). -/
abbrev CtxId := Fin 4096

/-- Sparse data by key: strictly rising keys, no entry equal to the default of its key. -/
abbrev FMap (α : Type) := List (Nat × α)

/-- Largest value of an n-bit unsigned field. -/
def maxOf (n : Nat) : Nat := 2 ^ n - 1

/-- Counters of the Index never wrap: they stop at the largest value of their type (R348). -/
def satAdd (n a b : Nat) : Nat := min (a + b) (maxOf n)

/-- Bits [hi:lo] of x (R13). -/
def bits (x hi lo : Nat) : Nat := (x / 2 ^ lo) % 2 ^ (hi + 1 - lo)

/-- Bit n of x (R13). -/
def bit (x n : Nat) : Bool := (x / 2 ^ n) % 2 == 1

/-- A Bool as a bit. -/
def b2n (b : Bool) : Nat := if b then 1 else 0

/-- Rounded-up division, 0 by 0. -/
def ceilDiv (a b : Nat) : Nat := (a + b - 1) / b

/-- Round up to a multiple. -/
def roundUp (a b : Nat) : Nat := ceilDiv a b * b

/-- (a - b) modulo 2^n. -/
def subMod (n a b : Nat) : Nat := (a % 2 ^ n + 2 ^ n - b % 2 ^ n) % 2 ^ n

/-- (a + b) modulo 2^n. -/
def addMod (n a b : Nat) : Nat := (a + b) % 2 ^ n

/-- Two's complement reading of the low n bits. -/
def toSigned (n x : Nat) : Int :=
  let y := x % 2 ^ n
  if y < 2 ^ (n - 1) then (y : Int) else (y : Int) - (2 ^ n : Nat)

/-- Two's complement code of an integer in n bits. -/
def ofSigned (n : Nat) (x : Int) : Nat := (x % ((2 ^ n : Nat) : Int)).toNat

end Sys2Proof
end

