-- ==== Sys2Proof/Syntax.lean ====
section
/-!
DEFINITION. Sys2Proof/Syntax.lean: the commands of the block, one constructor per row of spec/opcode_table.json,
with the row's operands. What the outside supplies (a frame's bytes, a mark, a measured duration, sensor
readings) is an operand; everything else a command needs stands in the state.
-/
namespace Sys2Proof

/-- What each quire's sensors deliver at a boundary (R428): sixteen conversions, `none` where a sensor returns no
valid one, and the lowest rail voltage of the stitch just ended in 100 µV. -/
structure QuireReading where
  temps : List (Option Int)
  droop : Nat
  deriving DecidableEq, Repr

/-- Why the reference is lost (Table 16.5, bits [28:26]). -/
inductive LossCause where
  | signal | laneLock | missingEdges | portDown | marks
  deriving DecidableEq, Repr

/-- The commands of the block (spec/opcode_table.json). -/
inductive Instr where
  -- start-up, clocks, power (R362 to R369, R428 to R430)
  | resetAssert
  | resetRelease
  | signalDetect
  | clockRecoveryLock (cycles : Nat)
  | oscillatorStable (cycles : Nat)
  | referenceLock (cycles : Nat)
  | domainLock (cycles : Nat)
  | markerLock (p : PortId) (lane : Fin 4) (inPlace : Bool) (mark : BitVec 96)
  | stitchMarkReceive (mark : BitVec 96) (spacing : Nat)
  | echoRequestReceive (p : PortId)
  | echoReplySend (p : PortId)
  | echoReplyReceive (roundTrip : Nat)
  | releaseBoundary (cycles : Nat)
  | alignmentCheckEnd (depthsHeld : Bool)
  | stitchBoundary (readings : List QuireReading)
  | throttleEscalate
  | throttleRelease
  | sensorFailsafe (q : QuireId)
  | tripClockStop
  | referenceLoss (cause : LossCause)
  | drainComplete
  | signalReturn
  -- links (R329 to R336)
  | linkUp (p : PortId)
  | linkDown (p : PortId)
  | uncorrectableCodeword (p : PortId) (stitch : BitVec 32) (index : Nat)
  | retryControlBlock (p : PortId) (stitch : BitVec 32) (index : Nat)
  | retryTimeout (p : PortId)
  | creditFrameSend (p : PortId)
  | creditFrameReceive (p : PortId) (body : BitVec 256)
  -- switch (R263 to R301)
  | frameLand (p : PortId) (frame : Bytes)
  | lookup (p : PortId)
  | egressSelect (p : PortId)
  | wheelSlot (p : PortId)
  | frameTransmitted (p : PortId)
  | macAging (vid : BitVec 12) (mac : BitVec 48)
  | queueSample
  | scrubRead (address : Nat)
  -- Index (R339 to R351)
  | indexRead
  | indexWrite
  | indexBlockRead
  | indexBlockWrite
  | indexReplyReceive
  | registerWrite (index : BitVec 16) (sub : BitVec 8) (value : Bytes)
  | assignAddress (address : BitVec 16) (depth : BitVec 8) (manager : BitVec 16)
  | folioRelease (value : BitVec 16)
  | attachDiscovery (p : PortId)
  | attachTimeout (p : PortId)
  | routeSlotWrite (slot : Fin 16384) (value : BitVec 64)
  | macAddStatic (vid : BitVec 16) (mac : BitVec 48) (port : BitVec 8)
  | macDelete (vid : BitVec 16) (mac : BitVec 48)
  | macFlushDynamic (port : BitVec 8)
  | vlanOperation (vid : BitVec 16) (members untagged : BitVec 160)
  | policerWrite (p : PortId) (vc : Fin 4) (bursts : Bool) (value : BitVec 64)
  | shaperWrite (p : PortId) (vc : Fin 8) (burst : Bool) (value : BitVec 32)
  | portModeWrite (p : PortId) (mode : BitVec 8)
  | poolReinitialize
  | poolReinitDrainEnd
  | diagAllocOnDie
  | diagAllocExternal
  | diagFree (handle : BitVec 32)
  | diagRef (handle : BitVec 32) (n : BitVec 8)
  | histogramClear
  | hostMemoryRead (length : Nat)
  | hostMemoryWrite (data : Bytes)
  | stagingSizeWrite (gib : BitVec 16)
  | imageSegment (payload : Bytes)
  | load
  | discard
  | coresStart
  | bindingRelease
  | releaseComplete
  | regionLoad (region : Fin 256) (overlay : BitVec 16)
  | overlayLoadDone (region : Fin 256)
  | stopCore (c : CoreId)
  | consumerIndex (c : CoreId) (value : BitVec 64)
  | contextReset (x : CtxId)
  | contextRestart (x : CtxId) (value : BitVec 32)
  | runFail (value : BitVec 32)
  | stateCopyStart
  | divergenceClear
  | securityLock
  | firmwareSegment (payload : Bytes)
  | firmwareBoot
  | firmwareDiscard
  | bootChecksDecided
  | firmwareDigestDone
  | signatureCheckDone
  | firmwareStart
  | firmwareHalt (reason : BitVec 8)
  | attestationNonce (nonce : Bytes)
  | reportReady
  | droopClear
  -- Gulsofin instructions of a core (R137 to R167)
  | nop (c : CoreId)
  | endCore (c : CoreId)
  | jmp (c : CoreId)
  | br (c : CoreId)
  | sop (c : CoreId)
  | ldi (c : CoreId)
  | lds (c : CoreId)
  | sts (c : CoreId)
  | ldd (c : CoreId)
  | setd (c : CoreId)
  | rdq (c : CoreId)
  | sync (c : CoreId)
  | sig (c : CoreId)
  | waitc (c : CoreId)
  | waitst (c : CoreId)
  | idxr (c : CoreId)
  | idxw (c : CoreId)
  | pstate (c : CoreId)
  | prod (c : CoreId)
  | wout (c : CoreId)
  | vop (c : CoreId)
  | vred (c : CoreId)
  | claim (c : CoreId)
  | rel (c : CoreId)
  | openSet (c : CoreId)
  | pub (c : CoreId)
  | cstep (c : CoreId)
  | csub (c : CoreId)
  | copy (c : CoreId)
  | fsend (c : CoreId)
  -- core and unit steps
  | syncPointCommit (c : CoreId)
  | queueStallRelease (c : CoreId)
  | sigApply (c : CoreId)
  | commandStart (u : BitVec 8)
  | noticeExpiry
  | passSwap (u : BitVec 8)
  | woutItem (u : BitVec 8)
  | commandComplete (c : CoreId) (serial : BitVec 32)
  | completionRecordWrite (c : CoreId)
  | claimGrant (microBatch : BitVec 32)
  | releaseEffect (microBatch : BitVec 32)
  | openGrant (set : BitVec 8)
  | publishEffect (set : BitVec 8)
  -- Collator (R216 to R260)
  | cstepStart (x : CtxId)
  | fragmentArrive (q : QuireId)
  | stepDeadline (x : CtxId)
  | spillRetry (q : QuireId)
  | leadRetry (q : QuireId)
  -- proof mode and proofing (R376 to R399)
  | digestSend
  | digestReceive
  | lagExpiry (core : CoreId) (serial item : BitVec 32)
  | streamLost
  | copyBlockSend
  | copyRecordApply
  | switchRecordApply
  | shadowCoresStart
  | stepJudgement
  | promotionNotice
  | handoverConfirmation
  -- later rows
  | codewordLock (p : PortId) (lane : Fin 4) (held : Bool)
  | replayArrival (p : PortId) (stitch : BitVec 32) (index : Nat)
  | illegalOpcode (c : CoreId)
  | uncorrectableInstructionFetch (c : CoreId)
  | coreRailsRemoved
  deriving DecidableEq, Repr

end Sys2Proof
end

