-- ==== Sys2Proof/Machine/Bits.lean ====
section
/-!
DEFINITION. Sys2Proof/Machine/Bits.lean: byte orders, and the three cyclic checks the spec names.
-/
namespace Sys2Proof

/-- The low n bytes of x, least significant first (R14). -/
def leBytes : Nat → Nat → Bytes
  | 0, _ => []
  | n + 1, x => BitVec.ofNat 8 x :: leBytes n (x / 256)

/-- The number a little-endian byte string spells. -/
def leNat : Bytes → Nat
  | [] => 0
  | b :: t => b.toNat + 256 * leNat t

/-- The low n bytes of x, most significant first. -/
def beBytes (n x : Nat) : Bytes := (leBytes n x).reverse

/-- The number a big-endian byte string spells. -/
def beNat (bs : Bytes) : Nat := leNat bs.reverse

/-- Bytes off to off + n - 1, zero bytes beyond the end. -/
def slice (bs : Bytes) (off n : Nat) : Bytes :=
  let t := (bs.drop off).take n
  t ++ List.replicate (n - t.length) 0

/-- A little-endian field of a structure. -/
def leAt (bs : Bytes) (off n : Nat) : Nat := leNat (slice bs off n)

/-- A big-endian field of a frame. -/
def beAt (bs : Bytes) (off n : Nat) : Nat := beNat (slice bs off n)

/-- n zero bytes. -/
def zeros (n : Nat) : Bytes := List.replicate n 0

/-- Overwrite bytes at an offset, extending with zeros. -/
def patch (bs : Bytes) (off : Nat) (data : Bytes) : Bytes :=
  let base := bs ++ zeros (off + data.length - bs.length)
  base.take off ++ data ++ base.drop (off + data.length)

/-- Pad with zero bytes to a multiple of k. -/
def padTo (k : Nat) (bs : Bytes) : Bytes := bs ++ zeros (roundUp bs.length k - bs.length)

/-- One bit step of a reflected 32-bit check. -/
def crcStep (poly c : Nat) : Nat := if c % 2 = 1 then (c / 2) ^^^ poly else c / 2

/-- One byte of a reflected 32-bit check. -/
def crcByte (poly c : Nat) (b : Byte) : Nat :=
  let s := crcStep poly
  s (s (s (s (s (s (s (s (c ^^^ b.toNat))))))))

/-- A reflected 32-bit check with all-ones start and final inversion. -/
def crc32With (poly : Nat) (bs : Bytes) : Nat :=
  (bs.foldl (crcByte poly) 0xFFFFFFFF) ^^^ 0xFFFFFFFF

/-- CRC-32C, the tile check (glossary). -/
def crc32c (bs : Bytes) : Nat := crc32With 0x82F63B78 bs

/-- The Ethernet frame check sequence. -/
def fcs (bs : Bytes) : Nat := crc32With 0xEDB88320 bs

/-- One bit of the CRC-16 of Table 14.2. -/
def crc16Bit (c : Nat) (b : Bool) : Nat :=
  let top := bit c 15 != b
  let s := (2 * c) % 65536
  if top then s ^^^ 0x1021 else s

/-- The CRC-16 of a stitch mark: bits [95:16] from bit 95 downward (Table 14.2). -/
def markCheck (mark : Nat) : Nat :=
  (List.range 80).foldl (fun c i => crc16Bit c (bit mark (95 - i))) 0xFFFF

/-- The stitch mark a sender builds (Table 14.2). -/
def buildMark (stitch : Nat) (valid : Bool) : Nat :=
  let body := (stitch % 2 ^ 64) * 2 ^ 32 + b2n valid * 2 ^ 31
  body + markCheck body

/-- A mark passes its check. -/
def markOk (mark : Nat) : Bool := markCheck mark == mark % 65536

end Sys2Proof
end

