-- ==== Sys2Proof/Machine/Crypto.lean ====
section
/-!
DEFINITION. Sys2Proof/Machine/Crypto.lean: SHA-384 (FIPS 180-4) and ECDSA verification on brainpoolP384r1 (RFC 5639), which the
spec names and does not restate (log entry 17).
-/
namespace Sys2Proof.Machine

/-- No number from d on divides n, as far as its root; `fuel` bounds the numbers tried. -/
def noDivisor (n : Nat) : Nat → Nat → Bool
  | 0, _ => true
  | fuel + 1, d => if n < d * d then true else if n % d = 0 then false else noDivisor n fuel (d + 1)

/-- The first 80 primes: 2 to 409. -/
def primes80 : List Nat := (List.range 410).filter (fun n => decide (2 ≤ n) && noDivisor n 20 2)

/-- The integer k-th root of n, over the bits of the root from bit `fuel - 1` down. -/
def rootFloor (k n : Nat) : Nat → Nat → Nat
  | 0, r => r
  | b + 1, r => rootFloor k n b (match Nat.ble ((r + 2 ^ b) ^ k) n with
    | true => r + 2 ^ b
    | false => r)

/-- The first 64 bits of the fraction of the k-th root of p: what FIPS 180-4 takes its constants from. -/
def rootFraction (k p : Nat) : Nat := rootFloor k (p * 2 ^ (64 * k)) 69 0 % 2 ^ 64

/-- The 80 round constants: from the cube roots of the first 80 primes. -/
def shaK : List Nat := primes80.map (rootFraction 3)

/-- Initial hash value of SHA-384: from the square roots of the ninth to sixteenth primes. -/
def shaInit : List Nat := ((primes80.drop 8).take 8).map (rootFraction 2)

/-- Rotate a 64-bit word right. -/
def rotr64 (x n : Nat) : Nat := x / 2 ^ n + (x % 2 ^ n) * 2 ^ (64 - n)

/-- Addition modulo 2^64. -/
def add64 (a b : Nat) : Nat := (a + b) % 2 ^ 64

/-- Extend the message schedule; the list holds the words so far, latest first. -/
def shaSchedule : Nat → List Nat → List Nat
  | 0, w => w.reverse
  | k + 1, w =>
    let a := w.getD 1 0
    let b := w.getD 14 0
    let s1 := rotr64 a 19 ^^^ rotr64 a 61 ^^^ (a / 2 ^ 6)
    let s0 := rotr64 b 1 ^^^ rotr64 b 8 ^^^ (b / 2 ^ 7)
    shaSchedule k ((s1 + w.getD 6 0 + s0 + w.getD 15 0) % 2 ^ 64 :: w)

/-- One round on the eight working words. -/
def shaRound (v : List Nat) (k w : Nat) : List Nat :=
  match v with
  | [a, b, c, d, e, f, g, h] =>
    let s1 := rotr64 e 14 ^^^ rotr64 e 18 ^^^ rotr64 e 41
    let ch := (e &&& f) ^^^ ((2 ^ 64 - 1 - e) &&& g)
    let t1 := h + s1 + ch + k + w
    let s0 := rotr64 a 28 ^^^ rotr64 a 34 ^^^ rotr64 a 39
    let mj := (a &&& b) ^^^ (a &&& c) ^^^ (b &&& c)
    [(t1 + s0 + mj) % 2 ^ 64, a, b, c, (d + t1) % 2 ^ 64, e, f, g]
  | v => v

/-- The rounds over constants and schedule. -/
def shaRounds : List Nat → List Nat → List Nat → List Nat
  | k :: ks, w :: ws, v => shaRounds ks ws (shaRound v k w)
  | _, _, v => v

/-- One 128-byte block. -/
def shaBlock (h : List Nat) (block : Bytes) : List Nat :=
  let w := (List.range 16).map (fun i => beAt block (8 * i) 8)
  (h.zip (shaRounds shaK (shaSchedule 64 w.reverse) h)).map (fun p => add64 p.1 p.2)

/-- All blocks of a padded message. -/
def shaBlocks : Nat → List Nat → Bytes → List Nat
  | 0, h, _ => h
  | k + 1, h, bs => shaBlocks k (shaBlock h (bs.take 128)) (bs.drop 128)

/-- SHA-384: 48 bytes. -/
def sha384 (m : Bytes) : Bytes :=
  let n := m.length
  let total := roundUp (n + 17) 128
  let padded := m ++ [0x80] ++ zeros (total - n - 17) ++ beBytes 16 (8 * n)
  ((shaBlocks (total / 128) shaInit padded).take 6).flatMap (beBytes 8)

/-- Field prime of brainpoolP384r1. -/
def curveP : Nat := 0x8CB91E82A3386D280F5D6F7E50E641DF152F7109ED5456B412B1DA197FB71123ACD3A729901D1A71874700133107EC53

/-- Coefficient a. -/
def curveA : Nat := 0x7BC382C63D8C150C3C72080ACE05AFA0C2BEA28E4FB22787139165EFBA91F90F8AA5814A503AD4EB04A8C7DD22CE2826

/-- Coefficient b. -/
def curveB : Nat := 0x04A8C7DD22CE28268B39B55416F0447C2FB77DE107DCD2A62E880EA53EEB62D57CB4390295DBC9943AB78696FA504C11

/-- Generator, x. -/
def curveGx : Nat := 0x1D1C64F068CF45FFA2A63A81B7C13F6B8847A3E77EF14FE3DB7FCAFE0CBD10E8E826E03436D646AAEF87B2E247D4AF1E

/-- Generator, y. -/
def curveGy : Nat := 0x8ABE1D7520F9C2A45CB1EB8E95CFD55262B70B29FEEC5864E19C054FF99129280E4646217791811142820341263C5315

/-- Order of the generator. -/
def curveN : Nat := 0x8CB91E82A3386D280F5D6F7E50E641DF152F7109ED5456B31F166E6CAC0425A7CF3AB6AF6B7FC3103B883202E9046565

/-- x^k modulo m, over the bits of k from bit `fuel - 1` down. -/
def powMod (x k m : Nat) : Nat → Nat → Nat
  | 0, r => r
  | i + 1, r =>
    let r := r * r % m
    powMod x k m i (if bit k i then r * x % m else r)

/-- Inverse modulo a prime of 384 bits. -/
def invMod (x m : Nat) : Nat := powMod x (m - 2) m 384 1

/-- A point in Jacobian coordinates; z = 0 is the point at infinity. -/
abbrev CurvePoint := Nat × Nat × Nat

/-- Doubling. -/
def curveDouble : CurvePoint → CurvePoint
  | (x, y, z) =>
    if z = 0 || y = 0 then (1, 1, 0)
    else
      let p := curveP
      let yy := y * y % p
      let s := 4 * x * yy % p
      let zz := z * z % p
      let m := (3 * x * x + curveA * (zz * zz % p)) % p
      let x' := (m * m + 2 * p - 2 * s) % p
      let y' := (m * ((s + p - x') % p) + (p - 8 * yy * yy % p)) % p
      (x', y', 2 * y * z % p)

/-- Addition. -/
def curveAdd (a b : CurvePoint) : CurvePoint :=
  match a, b with
  | (x1, y1, z1), (x2, y2, z2) =>
    if z1 = 0 then b
    else if z2 = 0 then a
    else
      let p := curveP
      let z1z1 := z1 * z1 % p
      let z2z2 := z2 * z2 % p
      let u1 := x1 * z2z2 % p
      let u2 := x2 * z1z1 % p
      let s1 := y1 * z2 % p * z2z2 % p
      let s2 := y2 * z1 % p * z1z1 % p
      if u1 = u2 then (if s1 = s2 then curveDouble a else (1, 1, 0))
      else
        let h := (u2 + p - u1) % p
        let r := (s2 + p - s1) % p
        let hh := h * h % p
        let hhh := h * hh % p
        let v := u1 * hh % p
        let x3 := (r * r + (p - hhh) + 2 * p - 2 * v) % p
        let y3 := (r * ((v + p - x3) % p) + (p - s1 * hhh % p)) % p
        (x3, y3, h * z1 % p * z2 % p)

/-- k times a point, over the bits of k from bit `fuel - 1` down. -/
def curveMul (k : Nat) (q : CurvePoint) : Nat → CurvePoint → CurvePoint
  | 0, r => r
  | i + 1, r =>
    let r := curveDouble r
    curveMul k q i (if bit k i then curveAdd r q else r)

/-- The point lies on the curve. -/
def onCurve (x y : Nat) : Bool :=
  decide (x < curveP) && decide (y < curveP) &&
    (y * y % curveP == (x * x % curveP * x + curveA * x + curveB) % curveP)

/-- ECDSA verification of a 48-byte digest under an uncompressed point (0x04, x, y) and a signature r, s of
48 big-endian bytes each. -/
def ecdsaVerify (key digest signature : Bytes) : Bool :=
  let x := beAt key 1 48
  let y := beAt key 49 48
  let r := beAt signature 0 48
  let s := beAt signature 48 48
  if !(key.length == 97 && (key.headD 0).toNat == 4 && onCurve x y) then false
  else if r = 0 || s = 0 || curveN ≤ r || curveN ≤ s then false
  else
    let w := invMod s curveN
    let u1 := beNat digest * w % curveN
    let u2 := r * w % curveN
    let t := curveAdd (curveMul u1 (curveGx, curveGy, 1) 384 (1, 1, 0)) (curveMul u2 (x, y, 1) 384 (1, 1, 0))
    match t with
    | (tx, _, tz) =>
      if tz = 0 then false
      else
        let zi := invMod tz curveP
        (tx * (zi * zi % curveP) % curveP) % curveN == r

end Sys2Proof.Machine
end

