-- ==== Sys2Proof/Config.lean ====
section
/-!
DEFINITION. Sys2Proof/Config.lean: the free values: what the spec leaves open and the machine goes on with.
Each is a constant with no body; nothing can evaluate one. Each is named in the assumption log.
-/
namespace Sys2Proof.Config

/-- Which of its three outcomes the decoder takes for an error pattern that touches three or more symbols of a stored word,
and which symbol it then alters how (last row of Table 13.4): the spec fixes it by the stored bits and gives no table. -/
opaque multiSymbol : (stored : Nat) → (pattern : Nat) → Nat

/-- An INT4 weight whose code equals its zero point under an infinite scale: 0 times infinity, of which R49 and Table 3.4
state no result (log entry 42). -/
opaque zeroByInfinity : (code : Nat) → (scale : Nat) → Nat

/-- The two signature values of an attestation report (R417, R418): the ECDSA nonce is not given and
the private key cannot be read. -/
opaque reportSignature : (report : Bytes) → (draw : Nat) → Bytes × Bytes

/-- R416: whether a device certificate and its intermediate verify under the root key and name the
identity. X.509 parsing is outside the spec's text. -/
opaque certificateAccepted : (cert : Bytes) → (rootKey : Bytes) → (identity : Nat) → Bool

/-- R270: the hash that chooses one of the 65,536 MAC sets from a VID and an address. -/
opaque macSet : (vid : Nat) → (mac : Nat) → Nat

/-- The activity shares of a divergence record (R383, Table 17.5 word 7): shares of busy cycles over 64 stitches,
which depend on durations the model does not carry: one value per draw. -/
opaque activityShare : (draw : Nat) → Nat

/-- The scale of an MX block that a VRED reads: Table 6.12 gives it no scale operand. It is fixed by the command, since no
other source may change bits (R80, log entry 16). -/
opaque scaleOpen : (word : Nat) → (descriptor : Nat) → (block : Nat) → Nat

/-- The 2:4 position code of a group under write mask source 0x4: no field of a WOUT addresses the metadata
(Table 4.3, R159). It is fixed by the command (R80, log entry 32). -/
opaque patternOpen : (word : Nat) → (descriptor : Nat) → (group : Nat) → (column : Nat) → Nat

/-- The words of an instruction that reads uncorrectable, as a halt record holds them (Table 7.4, R190). -/
opaque unreadableWord : (draw : Nat) → Nat

/-- FABRIC cycles of the window over which the pool's share of LPDDR5X is measured: R285 gives the share and no window (log
entry 48). -/
opaque shareWindow : Nat

/-- What becomes of data that crosses between clock domains outside the limits of R360: it may be lost, duplicated or
delayed (R361, log entry 40). -/
opaque crossing : (draw : Nat) → Nat

/-- The word that a reader gets of an LPDDR5X access which did not cross as it should (R361, log entry 40). -/
opaque crossedWord : (draw : Nat) → Nat

/-- The sequence number of an Index request that the device builds: Table 14.5 leaves it to the requester. -/
opaque requestSequence : (draw : Nat) → Nat

end Sys2Proof.Config
end

