-- ==== Sys2Proof/Machine/State.lean ====
section
/-!
DEFINITION. Sys2Proof/Machine/State.lean: everything the spec gives the folio, as plain data, the queue of
waiting commands, and the state right after reset.
-/
namespace Sys2Proof.Machine

/-- Why the block stops with a fault. Nothing in the spec stops the block itself: every failure it describes is a
state (a halt record, a FAILED item, a fence, a trip). No meaning raises one. -/
inductive Fault where
  /-- Raised by nobody: kept so that the type of outcomes is closed. Safe. -/
  | none
  deriving DecidableEq, Repr

/-- Why a command has no meaning. -/
inductive Refusal where
  /-- Raised by the dispatcher for a command not modelled yet. Safe: the model stops. -/
  | notModelled (mnemonic : String)
  deriving DecidableEq, Repr

/-- Values that fuses, ROM and manufacture fix (R347, Table 15.5, Table 19.6). -/
structure DeviceValues where
  gradeB : Bool              -- R7
  identity : Nat             -- 0x1001.00
  certificate : Bytes        -- 0x1003.00
  idcode : Nat               -- 0xF001.00
  fusedOperatorKeys : List Bytes   -- 0xA021.SS
  rootKey : Bytes            -- 0xA030.00
  identityKey : Bytes        -- 0xA031.00
  fusedFirmwareKeys : List Bytes   -- 0xA040.00, 0xA040.01
  minSecurityVersion : Nat   -- 0xA041.00
  deriving DecidableEq, Repr

/-- Where the start-up sequence stands (Table 16.3); `held` is RESET_N low, `passed` the time from the end of phase 8
to the aligned boundary. -/
inductive Phase where
  | held | awaitingSignal | clockRecovery | oscillatorStart | referenceLock | domainLock
  | marksAndEcho | release | check | passed | aligned
  deriving DecidableEq, Repr

/-- The alignment path taken from the Valid bit of port C's marks (R364). -/
inductive Path where
  | none | root | worker
  deriving DecidableEq, Repr

/-- Pins, start-up, the stitch count and coasting (chapter 16). -/
structure Clock where
  resetN : Bool
  testEn : Bool
  alignDone : Bool
  phase : Phase
  signal : Bool              -- lane 0 signal detect of port C
  path : Path
  echoes : List Nat          -- round trips received in phase 6 (R365)
  echoesOwed : Nat           -- echo requests still to be sent, one at each boundary
  offsetDone : Bool
  base : Nat                 -- the model's own: FABRIC cycles that passed before the running stitch
  stitch : Nat               -- 0x2001.00
  cycle : Nat                -- FABRIC cycle within the stitch
  marksApart : Nat           -- consecutive boundaries with a disagreement (R367)
  disagreedNow : Bool        -- the mark of this boundary disagreed
  lastMarkStitch : Nat       -- from the last port C mark that passed its check
  lastMarkValid : Bool
  coasting : Bool
  drained : Bool
  lossCause : Nat            -- Table 16.5, bits [28:26]
  step : Nat                 -- CORE step in effect (0x2003.00)
  bindingReq : Nat           -- Table 20.3
  thermalReq : Nat
  restartPending : Bool      -- lane 0 regained signal before the drain ended (R369)
  phaseCycles : List Nat     -- Table 16.6: phases 2 to 5
  releaseCycles : Nat        -- Table 16.6: phases 6 and 7
  releaseAttempts : Nat
  releaseStitch : Nat
  markSent : Nat             -- the stitch mark last sent on every native port
  crossings : Option Nat     -- entries in flight at the release of the domain crossings (R364)
  selfRefresh : Bool         -- the LPDDR5X devices refresh themselves (R368, step 8; R369)
  deriving DecidableEq, Repr

/-- Sensors, throttle, trip and LOAD_NOTICE (chapter 20). -/
structure Power where
  loadNotice : Bool
  noticeSince : Nat          -- absolute FABRIC cycle at which LOAD_NOTICE rose
  thermTripN : Bool
  tripped : Bool
  tripStitch : Nat
  clocksStopped : Bool
  railsAbsent : Bool
  sensors : FMap Int         -- last valid value, by 16 * quire + sensor
  invalidRun : FMap Nat      -- consecutive stitches without a valid sensor, by quire
  hotRun : Nat
  coolRun : Nat
  overLevel : Bool           -- some quire's streaming count passed the level in the stitch just running
  held : List (Nat × Nat × Nat)  -- product starts held for notice: core, serial, absolute cycle held
  history : List (List Int × List Nat)   -- the proof unit's last 64 samples (R383)
  deriving DecidableEq, Repr

/-- One lane's receiver (R331, R436). -/
structure Lane where
  codeword : Bool
  marker : Bool
  good : Nat                 -- consecutive good marker groups, up to 2
  missing : Nat              -- consecutive missing ones while locked
  lastNumber : Nat
  lastValid : Bool
  deriving DecidableEq, Repr

/-- What a frame is for (Table 11.1). -/
inductive FrameClass where
  | compute | index | ordinary
  deriving DecidableEq, Repr

/-- The colour a policer gives (R292). -/
inductive Colour where
  | green | yellow | red
  deriving DecidableEq, Repr

/-- A frame in the folio: in its leaves, or built by the device itself (no leaves). -/
structure Frame where
  handles : List Nat
  bytes : Bytes              -- as built by the device; a landed frame's bytes stand in its leaves
  length : Nat               -- destination address through FCS, as it will be transmitted
  rawLength : Nat            -- as it landed
  ordinal : Nat              -- frames landed on its port before it
  tagged : Bool              -- the landed bytes carry an 802.1Q tag
  tci : Option Nat           -- the tag it leaves with
  cls : FrameClass
  vc : Nat
  vid : Nat
  colour : Colour
  inPort : Nat               -- 0x80 is port C; 0xFF the device itself
  landed : Nat               -- absolute FABRIC cycle
  landedAt : Nat × Nat       -- the same, as stitch and cycle
  destination : Nat          -- folio address
  source : Nat
  group : Nat
  onDie : Nat                -- leaves charged to the egress queue; on VC4 to VC7, leaves whose credits it owes
  external : Nat
  queued : Nat               -- absolute FABRIC cycle at which it entered its egress queue
  sender : Option (Nat × Nat × Nat)   -- local send: core, serial, item
  sendingContext : Nat       -- its sending context, 0xFFFF for none
  check : Nat                -- CRC-32C of the item it carries
  emitter : Option (Nat × Nat × Nat)  -- emission: context, item position, EMIT in program order
  cut : Bool                 -- on the wire it ends with an invalid end-of-frame (R319)
  deriving DecidableEq, Repr

/-- One egress queue of a port (R295 to R298, R283). -/
structure Queue where
  frames : List Frame
  start : Nat
  finish : Nat
  tagged : Bool              -- head_tags has run for the head frame
  weighted : Bool            -- its weight was not zero then, and the head frame carries tags (R297)
  tokens : Int
  tokenCycle : Nat
  wheel : Option (Nat × Nat)      -- slot, rounds
  average : Nat              -- 8 fraction bits
  emptySince : Nat           -- absolute FABRIC cycle
  deriving DecidableEq, Repr

/-- A policer's buckets (R292). -/
structure Bucket where
  tc : Nat
  tp : Nat
  last : Nat
  deriving DecidableEq, Repr

/-- Attachment in progress on a manager's port (R25). -/
structure Attach where
  step : Nat                 -- 0 none, 1 discovery read sent, 4 address write sent
  slot : Option Nat          -- route slot taken
  address : Nat
  since : Nat                -- stitch of the request
  sequence : Nat
  retryAt : Nat              -- stitch of the next discovery
  deriving DecidableEq, Repr

/-- One of the 129 ports. -/
structure Port where
  lanes : List Lane
  up : Bool
  creditSeen : Bool
  dirty : Bool               -- an uncorrectable codeword in the stitch now running
  cleanStitch : Bool         -- a whole stitch has passed with none
  crossing : Option Nat      -- entries in flight at the release of the receive crossing (R366)
  partner : Nat              -- 0x3003.SS
  openMask : Nat             -- the partner's open mask
  spent : FMap Nat           -- S of R334, by virtual channel
  limit : FMap Nat           -- L of R334
  freed : FMap Nat           -- F of R334
  charged : FMap Nat         -- leaves charged to this port and virtual channel
  advertised : FMap Nat      -- last L sent
  lastCredit : Nat           -- absolute FABRIC cycle of the last credit frame
  creditFrame : Bytes        -- the last credit frame sent (R336)
  retry : Option (Nat × Nat × Nat)   -- ordinal asked for, and the absolute cycle of the first request
  retrySent : Bool           -- the pending request has been sent
  replay : Option (Nat × Nat × Nat)  -- the transmitter replays from this ordinal, until this absolute cycle
  echoesOwed : List Nat      -- absolute cycles at which echo replies are due
  waiting : List Frame
  landing : List Frame       -- frames presented but held in the receive path
  queues : FMap Queue
  vtime : Nat
  slot : Nat                 -- current slot of the calendar wheel
  sending : Option Frame
  lfsr : Option Nat          -- early-drop register once it has moved from its seed
  buckets : FMap Bucket
  attach : Attach
  landedCount : Nat
  sentCount : Nat
  deriving DecidableEq, Repr

/-- A MAC table entry (R270). -/
structure MacEntry where
  vid : Nat
  mac : Nat
  port : Nat
  static : Bool
  refreshed : Nat            -- stitch
  deriving DecidableEq, Repr

/-- One leaf list of the pool (R272). -/
structure LeafList where
  head : Nat
  chain : Nat
  fresh : Nat
  deriving DecidableEq, Repr

/-- The switch core and the signature pool (chapter 11). -/
structure Switch where
  macs : List MacEntry
  vlans : FMap (Nat × Nat)   -- member and untagged masks by VID
  onDie : LeafList
  external : LeafList
  externalSize : Nat         -- X (R271)
  counts : FMap Nat          -- reference counts, by handle
  chain : FMap Nat           -- the chain table: the leaf after a leaf in its frame, by handle (R272)
  shares : FMap Nat          -- further copies of lossless frames, by 256 * ordinal + port (R275, R279)
  shareUsed : Nat × Nat      -- window of log entry 48, bytes that the pool moved to and from LPDDR5X in it (R285)
  leaves : FMap Bytes        -- contents of on-die leaves
  poolStatus : Nat           -- bits [31:29] of 0x4040.00
  sample : Option (FMap (Nat × Nat))   -- depth and head delay of the queues at cycle 0 of this stitch, till they are sampled (R300)
  reinitSince : Option Nat   -- stitch at which a reinitialization was accepted
  mirrorCount : FMap Nat     -- frames selected since a session was enabled
  mirrorsThisCycle : Nat × Nat   -- cycle, captures written in it
  reinitReply : Option Frame     -- the reply that the reinitialization owes
  requests : List Frame          -- the fallback controller's receive buffer
  replies : List Frame           -- replies that landed
  fragments : List (Nat × Frame) -- locally delivered compute frames, by slice
  stalled : List (Nat × Bool × Frame)  -- fragments a slice holds for want of leaves; true: lead leaves
  proofFrames : List Frame       -- digest frames for the proof unit
  copyFrames : List Frame        -- copy frames for the proof unit
  deriving DecidableEq, Repr

/-- Device memory and the stores under the symbol code (chapter 13). -/
structure Memory where
  cells : List Host.Cell         -- device memory by address; an unlisted byte reads 0
  errors : FMap Nat              -- error pattern of stored words (144 bits), by address / 16
  leafErrors : FMap Nat          -- the same for leaves, by 16 * handle + word
  poolErrors : FMap Bool         -- uncorrectable pool state: a count by its handle; a list's head, chain and fresh registers (R319)
  accumulators : FMap Nat        -- ACC36 words, by 2^20 * unit + 256 * row + column
  poison : FMap Bool             -- accumulator rows, by 4096 * unit + row
  errorLog : List Nat            -- Table 13.6 records in order of detection
  scrubbed : FMap Nat            -- words read in the running scrub pass, by store
  scrubSeen : FMap Bool          -- words read in the running scrub passes, by address / 16
  firmware : List Bytes          -- the two halves of the firmware store
  firmwareErrors : FMap Nat      -- error pattern of its words, by 2^18 * half + word
  deriving DecidableEq, Repr

/-- A core's run state (Table 7.4, word 0 [55:48]). -/
inductive CoreRun where
  | idle | running | ended | halted | stopped
  deriving DecidableEq, Repr

/-- The synchronization points (R139). -/
inductive SyncKind where
  | sync (unit : Nat)                    -- 0xFF waits for every unit
  | waitc (counter value : Nat)
  | waitst (stitch : Nat) (deadline : Bool) (grace : Nat)
  | endPoint
  deriving DecidableEq, Repr

/-- An instruction of the window: its index, and what it waits for if it is a synchronization point. -/
structure WinEntry where
  pc : Nat
  point : Option SyncKind
  serial : Nat               -- commands issued before it
  word : Nat                 -- its instruction word
  deriving DecidableEq, Repr

/-- A recorded SIG (R178). -/
structure SigRec where
  counter : Nat
  serial : Nat               -- commands issued before it
  behind : Nat               -- synchronization points before it
  deriving DecidableEq, Repr

/-- The event counters of an operation (R56). -/
structure Counts where
  saturated : Nat
  flushed : Nat
  nan : Nat
  invalid : Nat
  deriving DecidableEq, Repr

/-- Where a command stands in its queue entry. -/
inductive CmdPhase where
  | queued | pendingPlace | running | done
  deriving DecidableEq, Repr

/-- An issued command in its queue entry (R142, R173). -/
structure Cmd where
  core : Nat
  unit : Nat
  opcode : Nat
  serial : Nat
  word : Nat
  microBatch : Nat           -- 0xFFFF_FFFF is none
  primary : Nat              -- copy of its descriptor, 1,280 bits
  auxiliary : Nat
  values : List Nat          -- operands taken from registers or contexts at issue
  behind : Nat               -- synchronization points of its core before it
  order : Nat                -- order of acceptance among all commands
  phase : CmdPhase
  status : Nat               -- 0 OK, 1 FAILED, 2 SQUASHED
  cause : Nat
  next : Nat                 -- next pass, item or contribution
  failed : List (Nat × Nat × Counts)  -- failed items, their causes and counters
  sentItems : List Nat       -- items whose frame has left
  counts : Counts
  skipped : Nat
  audited : Nat
  mispredicted : Nat
  skips : Nat                -- skip ordinal of R110
  skipRows : List (Nat × Nat × Bool)   -- rows gated in the running column block: row, accumulator row, audited
  reached : List Nat         -- accumulator rows a product has written
  fouled : List Nat          -- accumulator rows a product has poisoned
  faultAt : Option (Nat × Nat)  -- earliest faulting iteration and its cause
  waited : Bool              -- queued: it has been held at the head of its queue under R120 or R127 (0x5034.00); running: its next
                             -- contribution waits (R213, R240)
  deriving DecidableEq, Repr

/-- One Obkar core (chapter 7). -/
structure Core where
  run : CoreRun
  declared : Bool            -- has a core record
  pc : Nat
  entry : Nat
  regs : FMap Nat            -- s1 to s31
  descs : FMap Nat
  window : List WinEntry
  syncIssued : Nat
  syncDone : Nat
  sigs : List SigRec
  stalled : Option Cmd
  serial : Nat
  halt : List Nat            -- the eight words of the halt record
  regions : Nat              -- fetch region mask
  refs : List Nat            -- fetch references held
  ringBase : Nat
  ringSize : Nat
  producer : Nat
  records : List (Nat × Nat × Bool × Bytes)  -- waiting: serial, unit, summary, bytes
  completions : FMap Nat     -- Table 7.2 [31:0], by unit
  proofBase : Option Nat     -- serial of the first command counted after the switch (R397)
  handBase : Option Nat      -- serial of the first command sent under the swapped role (R399)
  deriving DecidableEq, Repr

/-- The cores and the units behind their queues. -/
structure Cores where
  cores : FMap Core
  cmds : List Cmd            -- in order of acceptance
  nextOrder : Nat
  syncs : FMap Nat           -- the 256 sync counters
  served : FMap Nat          -- core served last, by unit
  tieNext : FMap Nat         -- next use index of a tie group's round
  regionKind : FMap Nat      -- 1 fixed, 2 overlay, by 64 * quire + region
  regionLoading : FMap (Nat × Nat × Nat)  -- overlay, stitch and cycle of acceptance
  regionOverlay : FMap Nat   -- overlay last loaded
  deriving DecidableEq, Repr

/-- A stash slot (R135). -/
structure Slot where
  owner : Nat
  state : Nat                -- 0 free, 1 held, 2 release accepted
  claim : Option (Nat × Nat × Option Nat) -- pending claim: micro-batch, version, order of an accepted release
  tiles : Nat
  pins : List (Nat × Nat)    -- weight set and buffer pinned by the grant
  release : Nat              -- acceptance order of the accepted release
  deriving DecidableEq, Repr

/-- A weight set (R125 to R130). -/
structure WeightSet where
  kind : Nat                 -- Table 5.5 codes
  size : Nat
  buffer0 : Nat
  buffer1 : Nat
  current : Nat
  version : Nat
  pins0 : Nat
  pins1 : Nat
  openState : Nat            -- 0 none, 1 pending, 2 granted
  publish : Option Nat       -- acceptance order of an accepted publish
  tainted : Bool
  storeFailed : Bool
  deriving DecidableEq, Repr

/-- The stash and the weight versions (chapter 5). -/
structure Stash where
  base : Nat
  slotCount : Nat
  slotSize : Nat
  tiles : List (Nat × Nat × Nat)  -- rows, columns, format of each tile
  slots : FMap Slot
  sets : FMap WeightSet
  deriving DecidableEq, Repr

/-- A region that a binding declares (record 0x08): kind, set, address, size. -/
structure Region where
  kind : Nat
  set : Nat
  address : Nat
  size : Nat
  deriving DecidableEq, Repr

/-- A tie group (record 0x09). -/
structure TieGroup where
  number : Nat
  uses : Nat
  verso : Nat
  issuers : Nat
  deriving DecidableEq, Repr

/-- The binding and the Binder (chapter 8). -/
structure Binding where
  loaded : Bool              -- R196
  phase : Nat                -- colophon phase
  releasing : Bool
  startStitch : Nat          -- header field
  coresPending : Bool        -- installed, cores not started
  heldShadow : Bool          -- R394
  image : Bytes              -- the installed image
  regions : List Region
  ties : List TieGroup
  rows : List (Nat × Nat × Nat × Nat × Nat)   -- unit, core, tie group, first row, count
  overlays : List (Nat × Nat × Nat × Nat)     -- overlay, 64q + r, offset, length in staging
  colophon : FMap Nat        -- 64-bit words of Table 8.4 by offset, but for word 0
  flags : Nat                -- bits [23:17] of word 0
  refusal : Nat
  tileList : List (Nat × Nat)     -- sync counter and threshold of each tile
  tileBits : FMap Bool
  started : Nat              -- cores started
  deriving DecidableEq, Repr

/-- Element state of an arithmetic item (R75, R225). -/
structure Elem where
  sum : Int
  nan : Bool
  pinf : Bool
  ninf : Bool
  allNegZero : Bool
  count : Nat
  selected : Nat             -- code in the input format
  someNumber : Bool
  deriving DecidableEq, Repr

/-- One source's stream or contribution to an item (R211). -/
structure Stream where
  source : Nat
  bytes : FMap Nat           -- received bytes by offset, plus one
  total : Option Nat         -- entries, once the last fragment has arrived
  order : Nat                -- absolute FABRIC cycle at which it completed, plus one; 0 before
  deriving DecidableEq, Repr

/-- An open item of a step (R214). -/
structure Item where
  opened : Bool
  spilled : Bool
  leaves : List Nat
  elems : FMap Elem
  streams : List Stream
  finished : Bool
  cause : Nat                -- 0 while none
  emitted : Bool
  outstanding : Nat          -- emissions not yet complete
  fault : Option (Nat × Nat) -- first failed EMIT in program order, and its cause (R236)
  check : Nat                -- CRC-32C of the emitted bytes
  counts : Counts
  late : Nat
  breaks : Nat
  omitted : Nat
  ripe : Bool                -- an early-k item that has k contributions in the running cycle (R226)
  struck : Option (Nat × Bool)  -- a fault of the running cycle: its cause, and whether it fences the context (R215, R252)
  doneAt : Option Nat        -- absolute FABRIC cycle at which it finished with its last contribution
  deriving DecidableEq, Repr

/-- An ahead fragment held in lead leaves (R251). -/
structure Lead where
  sequence : Nat
  badCheck : Bool
  leaves : List Nat
  frame : Frame
  body : Bytes
  deriving DecidableEq, Repr

/-- An emission to a local context that waits for its open step (R234). -/
structure LocalEmit where
  context : Nat              -- the emitting context
  position : Nat
  emit : Nat                 -- EMIT in program order
  cause : Nat                -- 0 where the item is OK
  bytes : Bytes
  deriving DecidableEq, Repr

/-- A roster member (Table 10.3). -/
structure Member where
  address : Nat
  marked : Bool
  window : List Bool
  stepsLast : Nat
  maxLateness : Nat
  stepsMissed : Nat
  deriving DecidableEq, Repr

/-- A Collator context (chapters 9 and 10). -/
structure Ctx where
  declared : Bool
  slice : Nat
  group : Nat
  shape : Nat                -- entry 0 of the destination list
  program : List Nat
  dests : List Nat           -- entries 1 onward
  state : Nat                -- Table 9.3
  sequence : Nat             -- open step, or last closed
  expected : Nat
  unclean : Bool
  memberFailed : Bool
  cursor : Nat
  items : FMap Item
  count : Nat                -- n of the open step
  started : Nat              -- stitch t0
  consts : FMap Nat
  stepCmd : Option (Nat × Nat)    -- core and serial of the CSTEP that opened it
  pendingCmd : Option (Nat × Nat)
  lead : List Lead
  members : List Member
  sealed : Bool
  overflow : Bool
  finishes : FMap Nat        -- latest landing cycle by source, plus one
  localWait : List LocalEmit -- emissions of other contexts not yet taken
  reserve : List Nat         -- leaves the Binder reserved, less those of open items (R239)
  deriving DecidableEq, Repr

/-- A digest record (Table 17.3) as the proof unit keeps it. -/
structure Digest where
  core : Nat
  serial : Nat
  item : Nat
  failed : Bool
  cause : Nat
  check : Nat
  stitch : Nat
  unit : Nat
  opcode : Nat
  microBatch : Nat
  step : Nat
  temps : Nat                -- words 5 and 6 of Table 17.5 at its completion
  droops : Nat
  deriving DecidableEq, Repr

/-- The proof unit and proofing (chapters 17 and 18). -/
structure Proof where
  place : Nat                -- R378; 0 while the folio is in no pair
  own : List Digest          -- pending records
  partner : List Digest
  outbox : List Digest       -- records of the stitch now running
  seen : List (Bool × Nat × Nat × Nat)  -- side and keys already matched
  lagged : List (Nat × Nat × Nat)       -- keys reported as lag
  lastFrame : Nat            -- stitch of the last digest frame received
  sentFrame : Bool
  gotFrame : Bool
  lost : Bool
  mismatch : Bool
  records : List (List Nat)  -- divergence records, eight words each
  mirror : List (Nat × Bytes)   -- words written into state regions, not yet entered in the copy stream
  copyOrdinal : Nat          -- next record to send
  applyOrdinal : Nat         -- next record to apply
  copyCursor : Nat           -- background blocks sent
  stateTable : FMap Nat      -- bytes of the state table received
  phase : Nat                -- 0x8044.00 [63:56]
  clean : Nat
  unclean : Bool             -- the step now judged has diverged
  steps : List (List Nat × Bool)  -- ended steps not yet judged: serials by core at their end, unclean
  sentStitch : Nat           -- digest frames were last sent in this stitch
  postponed : Nat
  handoverAt : Option Nat    -- c of R399
  coresAt : Option Nat       -- stitch at which the shadow's cores start
  deriving DecidableEq, Repr

/-- Firmware, boot checks and attestation (chapter 19). -/
structure Boot where
  state : Nat                -- 0xA012.00 [63:56]
  refusal : Nat
  haltReason : Nat
  runningHalf : Nat
  everRan : Bool
  wasRunning : Bool          -- a reboot: firmware ran when the boot command was accepted
  recheck : Bool             -- the checks now run on the previously running half
  stage : Nat                -- 0 none, 1 awaiting the first boundary, 2 digest, 3 signature, 4 passed
  due : Nat                  -- absolute reference cycle at which the running check ends
  contexts : List (Nat × FMap Nat)   -- firmware contexts of the quires: program counter and registers
  digest : Bytes             -- of the image being checked
  locked : Bool
  nonce : Bytes
  report : Bytes
  reportState : Nat          -- 0xA052.00
  reportDue : Nat            -- absolute reference cycle at which signing ends; 0: not begun
  issued : Nat
  engineFree : Nat           -- absolute reference cycle at which the security engine is free
  deriving DecidableEq, Repr

/-- The folio. -/
structure State where
  pending : List Instr       -- commands waiting, first in first out
  freshCount : Nat           -- the model's own: draws of free values so far
  lastStatus : Nat           -- the model's own: record status of the last Index access
  lastData : Bytes           -- the model's own: what the last Index access returned
  dev : DeviceValues
  index : FMap Nat           -- the Index store: settings and counters, by 256 * index + subindex
  domains : FMap Bytes       -- settable DOMAIN entries
  clock : Clock
  power : Power
  ports : FMap Port
  switch : Switch
  mem : Memory
  cores : Cores
  stash : Stash
  binding : Binding
  ctxs : FMap Ctx
  marks : List Nat           -- laggard mark records (Table 10.4)
  proof : Proof
  boot : Boot
  deriving DecidableEq, Repr

/-- Device values at reset: log entry 3. -/
def DeviceValues.reset : DeviceValues where
  gradeB := false
  identity := 0
  certificate := []
  idcode := 0
  fusedOperatorKeys := []
  rootKey := []
  identityKey := []
  fusedFirmwareKeys := []
  minSecurityVersion := 0

/-- Chapter 16 at power-up: RESET_N low. -/
def Clock.reset : Clock where
  resetN := false
  testEn := false
  alignDone := false
  phase := .held
  signal := false
  path := .none
  echoes := []
  echoesOwed := 0
  offsetDone := false
  base := 0
  stitch := 0
  cycle := 0
  marksApart := 0
  disagreedNow := false
  lastMarkStitch := 0
  lastMarkValid := false
  coasting := false
  drained := false
  lossCause := 0
  step := 0
  bindingReq := 0
  thermalReq := 0
  restartPending := false
  phaseCycles := []
  releaseCycles := 0
  releaseAttempts := 0
  releaseStitch := 0
  markSent := 0
  crossings := none
  selfRefresh := false

def Power.reset : Power where
  loadNotice := false
  noticeSince := 0
  thermTripN := true
  tripped := false
  tripStitch := 0
  clocksStopped := false
  railsAbsent := false
  sensors := []
  invalidRun := []
  hotRun := 0
  coolRun := 0
  overLevel := false
  held := []
  history := []

def Lane.reset : Lane := ⟨false, false, 0, 0, 0, false⟩

def Queue.reset : Queue where
  frames := []
  start := 0
  finish := 0
  tagged := false
  weighted := false
  tokens := 0
  tokenCycle := 0
  wheel := none
  average := 0
  emptySince := 0

def Attach.reset : Attach := ⟨0, none, 0, 0, 0, 0⟩

def Port.reset : Port where
  lanes := [Lane.reset, Lane.reset, Lane.reset, Lane.reset]
  up := false
  creditSeen := false
  dirty := false
  cleanStitch := false
  crossing := none
  partner := 0
  openMask := 0
  spent := []
  limit := []
  freed := []
  charged := []
  advertised := []
  lastCredit := 0
  creditFrame := []
  retry := none
  retrySent := false
  replay := none
  echoesOwed := []
  waiting := []
  landing := []
  queues := []
  vtime := 0
  slot := 0
  sending := none
  lfsr := none
  buckets := []
  attach := Attach.reset
  landedCount := 0
  sentCount := 0

/-- The nil handle (R271). -/
def nilHandle : Nat := 0xFFFFFFFF

def LeafList.reset : LeafList := ⟨nilHandle, 0, 0⟩

/-- Every port, as a mask of 129 bits. -/
def allPorts : Nat := 2 ^ 129 - 1

def Switch.reset : Switch where
  macs := []
  vlans := [(1, (allPorts, allPorts))]
  onDie := LeafList.reset
  external := LeafList.reset
  externalSize := 0x4000000
  counts := []
  chain := []
  shares := []
  shareUsed := (0, 0)
  leaves := []
  poolStatus := 0
  sample := none
  reinitSince := none
  reinitReply := none
  mirrorCount := []
  mirrorsThisCycle := (0, 0)
  requests := []
  replies := []
  fragments := []
  stalled := []
  proofFrames := []
  copyFrames := []

def Memory.reset : Memory where
  cells := []
  errors := []
  leafErrors := []
  poolErrors := []
  accumulators := []
  poison := []
  errorLog := []
  scrubbed := []
  scrubSeen := []
  firmware := [[], []]
  firmwareErrors := []

/-- Generator none, micro-batch none; else zero (Table 7.4). -/
def haltReset : List Nat := [0xF0000000, 0, 0, 0, 0, 0, 0, 0xFFFFFFFF00000000]

def Core.reset : Core where
  run := .idle
  declared := false
  pc := 0
  entry := 0
  regs := []
  descs := []
  window := []
  syncIssued := 0
  syncDone := 0
  sigs := []
  stalled := none
  serial := 0
  halt := haltReset
  regions := 0
  refs := []
  ringBase := 0
  ringSize := 0
  producer := 0
  records := []
  completions := []
  proofBase := none
  handBase := none

def Cores.reset : Cores where
  cores := []
  cmds := []
  nextOrder := 0
  syncs := []
  served := []
  tieNext := []
  regionKind := []
  regionLoading := []
  regionOverlay := []

def Slot.reset : Slot := ⟨0xFFFFFFFF, 0, none, 0, [], 0⟩

def WeightSet.reset : WeightSet where
  kind := 0
  size := 0
  buffer0 := 0
  buffer1 := 0
  current := 0
  version := 0
  pins0 := 0
  pins1 := 0
  openState := 0
  publish := none
  tainted := false
  storeFailed := false

def Stash.reset : Stash := ⟨0, 0, 0, [], [], []⟩

def Binding.reset : Binding where
  loaded := false
  phase := 0
  releasing := false
  startStitch := 0
  coresPending := false
  heldShadow := false
  image := []
  regions := []
  ties := []
  rows := []
  overlays := []
  colophon := []
  flags := 0
  refusal := 0
  tileList := []
  tileBits := []
  started := 0

def Counts.zero : Counts := ⟨0, 0, 0, 0⟩

def Elem.fresh : Elem := ⟨0, false, false, false, true, 0, 0, false⟩

def Item.fresh : Item where
  opened := false
  spilled := false
  leaves := []
  elems := []
  streams := []
  finished := false
  cause := 0
  emitted := false
  outstanding := 0
  fault := none
  check := 0
  counts := Counts.zero
  late := 0
  breaks := 0
  omitted := 0
  ripe := false
  struck := none
  doneAt := none

def Ctx.reset : Ctx where
  declared := false
  slice := 0
  group := 0
  shape := 0
  program := []
  dests := []
  state := 0
  sequence := 0
  expected := 0
  unclean := true
  memberFailed := false
  cursor := 0
  items := []
  count := 0
  started := 0
  consts := []
  stepCmd := none
  pendingCmd := none
  lead := []
  members := []
  sealed := false
  overflow := false
  finishes := []
  localWait := []
  reserve := []

def Proof.reset : Proof where
  place := 0
  own := []
  partner := []
  outbox := []
  seen := []
  lagged := []
  lastFrame := 0
  sentFrame := false
  gotFrame := false
  lost := false
  mismatch := false
  records := []
  mirror := []
  copyOrdinal := 0
  applyOrdinal := 0
  copyCursor := 0
  stateTable := []
  phase := 0
  clean := 0
  unclean := false
  steps := []
  sentStitch := 0
  postponed := 0
  handoverAt := none
  coresAt := none

def Boot.reset : Boot where
  state := 0
  refusal := 0
  haltReason := 0
  runningHalf := 0
  everRan := false
  wasRunning := false
  recheck := false
  stage := 0
  due := 0
  contexts := [(0, []), (0, []), (0, []), (0, [])]
  digest := []
  locked := false
  nonce := []
  report := []
  reportState := 0
  reportDue := 0
  issued := 0
  engineFree := 0

/-- The folio right after reset: RESET_N low, every Index entry at its value at reset (R347, R362). -/
def State.reset : State where
  pending := []
  freshCount := 0
  lastStatus := 0
  lastData := []
  dev := DeviceValues.reset
  index := []
  domains := []
  clock := Clock.reset
  power := Power.reset
  ports := []
  switch := Switch.reset
  mem := Memory.reset
  cores := Cores.reset
  stash := Stash.reset
  binding := Binding.reset
  ctxs := []
  marks := []
  proof := Proof.reset
  boot := Boot.reset

end Sys2Proof.Machine
end

