-- ==== Sys2Proof/Machine/Formats.lean ====
section
/-!
DEFINITION. Sys2Proof/Machine/Formats.lean: tensor number formats and the one conversion of the device (chapter 2).
-/
namespace Sys2Proof.Machine

/-- An exact value: NaN, an infinity, or (-1)^neg * m * 2^e, zeros with their sign (R39). -/
inductive Val where
  | nan
  | inf (neg : Bool)
  | num (neg : Bool) (m : Nat) (e : Int)
  deriving DecidableEq, Repr

/-- Element formats (Tables 2.1 and 2.2). -/
inductive Elt where
  | fp32 | fp16 | bf16 | e4m3 | e5m2 | e2m3 | e3m2 | e2m1 | mxint8 | int8
  deriving DecidableEq, Repr

/-- Element width in bits (Table 2.2). -/
def Elt.width : Elt → Nat
  | .fp32 => 32 | .fp16 => 16 | .bf16 => 16 | .e4m3 => 8 | .e5m2 => 8
  | .e2m3 => 6 | .e3m2 => 6 | .e2m1 => 4 | .mxint8 => 8 | .int8 => 8

/-- Fraction bits f (Table 2.2); for MXINT8 the six bits of its step. -/
def Elt.frac : Elt → Nat
  | .fp32 => 23 | .fp16 => 10 | .bf16 => 7 | .e4m3 => 3 | .e5m2 => 2
  | .e2m3 => 3 | .e3m2 => 2 | .e2m1 => 1 | .mxint8 => 6 | .int8 => 0

/-- Exponent bits (Table 2.2). -/
def Elt.expBits : Elt → Nat
  | .fp32 => 8 | .fp16 => 5 | .bf16 => 8 | .e4m3 => 4 | .e5m2 => 5
  | .e2m3 => 2 | .e3m2 => 3 | .e2m1 => 2 | .mxint8 => 0 | .int8 => 0

/-- Exponent bias (Table 2.2). -/
def Elt.bias : Elt → Int
  | .fp32 => 127 | .fp16 => 15 | .bf16 => 127 | .e4m3 => 7 | .e5m2 => 15
  | .e2m3 => 1 | .e3m2 => 3 | .e2m1 => 1 | .mxint8 => 0 | .int8 => 0

/-- The format has infinities (Table 2.2). -/
def Elt.hasInf : Elt → Bool
  | .fp32 | .fp16 | .bf16 | .e5m2 => true
  | _ => false

/-- The format is an integer one (R45, R46). -/
def Elt.isInt : Elt → Bool
  | .mxint8 | .int8 => true
  | _ => false

/-- Code of the largest finite magnitude (Table 2.3; 127 for the integer formats). -/
def Elt.maxCode : Elt → Nat
  | .fp32 => 0x7F7FFFFF | .fp16 => 0x7BFF | .bf16 => 0x7F7F | .e4m3 => 0x7E | .e5m2 => 0x7B
  | .e2m3 => 0x1F | .e3m2 => 0x1F | .e2m1 => 0x7 | .mxint8 => 127 | .int8 => 127

/-- The canonical NaN, the only NaN written (R40); zero where the format has none. -/
def Elt.nanCode : Elt → Nat
  | .fp32 => 0x7FC00000 | .fp16 => 0x7E00 | .bf16 => 0x7FC0 | .e4m3 => 0x7F | .e5m2 => 0x7E
  | _ => 0

/-- +infinity (Table 2.3). -/
def Elt.infCode : Elt → Nat
  | .fp32 => 0x7F800000 | .fp16 => 0x7C00 | .bf16 => 0x7F80 | .e5m2 => 0x7C
  | _ => 0

/-- A code's value (R39, R40, R45, R46). -/
def Elt.decode (t : Elt) (code : Nat) : Val :=
  let w := t.width
  let c := code % 2 ^ w
  if t.isInt then
    let q := toSigned 8 c
    .num (decide (q < 0)) q.natAbs (if t = .mxint8 then -6 else 0)
  else
    let neg := bit c (w - 1)
    let f := t.frac
    let F := c % 2 ^ f
    let E := (c / 2 ^ f) % 2 ^ t.expBits
    let top := 2 ^ t.expBits - 1
    if t.hasInf && E == top then (if F = 0 then .inf neg else .nan)
    else if t = .e4m3 && E == 15 && F == 7 then .nan
    else if E = 0 then .num neg F (1 - t.bias - f)
    else .num neg (2 ^ f + F) ((E : Int) - t.bias - f)

/-- floor(log2(m * 2^e)) for a nonzero m. -/
def logOf (m : Nat) (e : Int) : Int := (Nat.log2 m : Int) + e

/-- round_half_even(m * 2^e / 2^s) (R18). -/
def roundAt (m : Nat) (e s : Int) : Nat :=
  if s ≤ e then m * 2 ^ (e - s).toNat
  else
    let k := (s - e).toNat
    let q := m / 2 ^ k
    let r := m % 2 ^ k
    let half := 2 ^ (k - 1)
    if r > half then q + 1
    else if r = half then q + q % 2
    else q

/-- floor(m * 2^e / 2^s). -/
def floorAt (m : Nat) (e s : Int) : Nat :=
  if s ≤ e then m * 2 ^ (e - s).toNat else m / 2 ^ (s - e).toNat

/-- m1 * 2^e1 compared with m2 * 2^e2. -/
def cmpMag (m1 : Nat) (e1 : Int) (m2 : Nat) (e2 : Int) : Ordering :=
  if e1 ≤ e2 then compare m1 (m2 * 2 ^ (e2 - e1).toNat) else compare (m1 * 2 ^ (e1 - e2).toNat) m2

/-- What a conversion counts (R52). -/
inductive Event where
  | none | saturated | flushed | nan | invalid
  deriving DecidableEq, Repr

/-- The code of a magnitude q * 2^s that the format holds exactly, with its sign bit. -/
def Elt.encode (t : Elt) (neg : Bool) (q : Nat) (s : Int) : Nat :=
  if t.isInt then ofSigned 8 (if neg then -(q : Int) else q)
  else
    let sign := b2n neg * 2 ^ (t.width - 1)
    let emin := 1 - t.bias
    if q = 0 then sign
    else
      let e := logOf q s
      if e < emin then sign + floorAt q s (emin - t.frac)
      else sign + (e + t.bias).toNat * 2 ^ t.frac + (floorAt q s (e - t.frac) - 2 ^ t.frac)

/-- Signed largest finite value (R51); INT8 is asymmetric. -/
def Elt.limit (t : Elt) (neg : Bool) : Nat :=
  if t.isInt then (if neg then (if t = .int8 then 0x80 else 0x81) else 127)
  else t.maxCode + b2n neg * 2 ^ (t.width - 1)

/-- The conversion of R51 with the outcomes of Table 2.5; an MX element NaN is judged by its block (R53). -/
def Elt.convert (t : Elt) (x : Val) : Nat × Event :=
  match x with
  | .nan => if t = .int8 then (0, .invalid) else (t.nanCode, .nan)
  | .inf neg =>
    if t.hasInf then (t.infCode + b2n neg * 2 ^ (t.width - 1), .none) else (t.limit neg, .saturated)
  | .num neg m e =>
    if m = 0 then (if t.isInt then 0 else b2n neg * 2 ^ (t.width - 1), .none)
    else
      let s : Int := if t.isInt then -(t.frac : Int) else max (logOf m e) (1 - t.bias) - t.frac
      let q := roundAt m e s
      let beyond :=
        if t.isInt then decide (q > (if neg && t = .int8 then 128 else 127))
        else match t.decode t.maxCode with
          | .num _ mm me => cmpMag q s mm me == .gt
          | _ => false
      if beyond then (t.limit neg, .saturated)
      else if q = 0 then (if t.isInt then 0 else b2n neg * 2 ^ (t.width - 1), .flushed)
      else (t.encode neg q s, .none)

/-- Add an event to a set of counters, each stopping at 0xFFFF_FFFF (R56). -/
def Counts.add (c : Counts) : Event → Counts
  | .none => c
  | .saturated => { c with saturated := satAdd 32 c.saturated 1 }
  | .flushed => { c with flushed := satAdd 32 c.flushed 1 }
  | .nan => { c with nan := satAdd 32 c.nan 1 }
  | .invalid => { c with invalid := satAdd 32 c.invalid 1 }

/-- Count one output element: its conversion's event, and where that neither saturated nor flushed, what happened on the
way to it; never both (R56). -/
def Counts.element (c : Counts) (early final : Event) : Counts :=
  match final with
  | .saturated => c.add .saturated
  | .flushed => c.add .flushed
  | f => (c.add f).add early

/-- The first of several events that is one. -/
def firstEvent : List Event → Event
  | [] => .none
  | .none :: t => firstEvent t
  | e :: _ => e

/-- Add two sets of counters. -/
def Counts.plus (a b : Counts) : Counts :=
  ⟨satAdd 32 a.saturated b.saturated, satAdd 32 a.flushed b.flushed, satAdd 32 a.nan b.nan,
    satAdd 32 a.invalid b.invalid⟩

/-- Count n invalid operations. -/
def Counts.invalidBy (c : Counts) (n : Nat) : Counts := { c with invalid := satAdd 32 c.invalid n }

/-- The format codes of Table 2.1. -/
def fmtElt (code : Nat) : Option Elt :=
  match code with
  | 0 => some .fp32 | 1 => some .fp16 | 2 => some .bf16 | 3 => some .e4m3 | 4 => some .e5m2
  | 5 => some .e4m3 | 6 => some .e5m2 | 7 => some .e2m3 | 8 => some .e3m2 | 9 => some .e2m1
  | 10 => some .mxint8 | 11 => some .int8
  | _ => none

/-- The code is an MX format (Table 2.1). -/
def fmtMX (code : Nat) : Bool := decide (5 ≤ code) && decide (code ≤ 10)

/-- Array operand column of Table 2.1 (`stationary`: the INT4 codes too). -/
def fmtArray (stationary : Bool) (code : Nat) : Bool :=
  (decide (1 ≤ code) && decide (code ≤ 11)) || (stationary && (code == 12 || code == 13))

/-- Array write-out column, which is also the Collator arithmetic column. -/
def fmtNarrow (code : Nat) : Bool := decide (code ≤ 4)

/-- Vector unit column. -/
def fmtVector (code : Nat) : Bool := decide (code ≤ 11)

/-- Element bits of a format code (Table 2.1). -/
def fmtBits (code : Nat) : Nat :=
  match fmtElt code with
  | some t => t.width
  | none => if code == 12 || code == 13 then 4 else 0

/-- Element bytes of a format of at least 8 bits. -/
def fmtBytes (code : Nat) : Nat := fmtBits code / 8

/-- The value of an E8M0 scale code, as an exponent; 0xFF is NaN (R43). -/
def scaleExp (s : Nat) : Option Int := if s % 256 = 0xFF then none else some ((s % 256 : Nat) - 127 : Int)

/-- Multiply an exact value by 2^k. -/
def Val.scale (x : Val) (k : Int) : Val :=
  match x with
  | .num n m e => .num n m (e + k)
  | y => y

/-- An element under its block scale (R43, R45). -/
def Val.underScale (x : Val) (s : Nat) : Val :=
  match scaleExp s with
  | none => .nan
  | some k => x.scale k

/-- Element i of packed elements of w bits, little-endian, no padding (R44). -/
def packedAt (bs : Bytes) (w i : Nat) : Nat :=
  if w = 6 then
    let g := leAt bs (3 * (i / 4)) 3
    (g / 2 ^ (6 * (i % 4))) % 64
  else if w = 4 then ((slice bs (i / 2) 1).map (fun b => b.toNat)).headD 0 / 2 ^ (4 * (i % 2)) % 16
  else leAt bs (i * (w / 8)) (w / 8)

/-- Pack codes of w bits (R44). -/
def packCodes (w : Nat) (codes : List Nat) : Bytes :=
  let v := codes.foldr (fun c n => c % 2 ^ w + 2 ^ w * n) 0
  leBytes (ceilDiv (codes.length * w) 8) v

/-- A code of a format that is no NaN: an open one where that is so, else +0. -/
def Elt.openCode (t : Elt) (x : Nat) : Nat := if t.decode x = .nan then 0 else x % 2 ^ t.width

/-- Expansion by scale and zero point: w = (q - z) * s, converted to the target (R49). Where q = z, a finite scale gives a zero
of the scale's sign, and an infinite one an open weight that is no NaN, since Table 3.4 has no such case (R79, log
entry 42). -/
def int4Expand (q z s : Nat) (t : Elt) : Nat × Event :=
  let d := toSigned 4 q - toSigned 4 z
  match Elt.bf16.decode s with
  | .nan => t.convert .nan
  | .inf n => if d = 0 then (t.openCode (Config.zeroByInfinity q s), .none) else t.convert (.inf (n != decide (d < 0)))
  | .num n m e => t.convert (.num (n != decide (d < 0)) (m * d.natAbs) e)

/-- The exponent of the element format's largest finite value (R53). -/
def emaxOf : Elt → Int
  | .e4m3 => 8 | .e5m2 => 15 | .e2m3 => 2 | .e3m2 => 4 | .e2m1 => 2
  | _ => 0

/-- Quantize one block to MX (R53, R54): scale code, element codes, and the event of each element. -/
def mxQuantize (t : Elt) (xs : List Val) : Nat × List Nat × List Event :=
  if xs.any (fun x => x == .nan) then (0xFF, xs.map (fun _ => 0), xs.map (fun _ => .nan))
  else
    let logs := xs.filterMap (fun x => match x with
      | .num _ m e => if m = 0 then none else some (logOf m e)
      | _ => none)
    let k : Int := match logs with
      | [] => 0
      | l :: ls => max (-127) (min 127 (ls.foldl max l - emaxOf t))
    let out := xs.map (fun x => t.convert (x.scale (-k)))
    ((k + 127).toNat, out.map (·.1), out.map (·.2))

end Sys2Proof.Machine
end

