-- ==== Sys2Proof/Machine/FMap.lean ====
section
/-!
DEFINITION. Sys2Proof/Machine/FMap.lean: sparse data by key in one canonical form: strictly rising keys and no entry equal to
what an unlisted key reads as.
-/
namespace Sys2Proof

/-- What key k holds; `d` is what an unlisted key reads as. -/
def fget {α : Type} (d : α) : FMap α → Nat → α
  | [], _ => d
  | (a, v) :: t, k => if a = k then v else fget d t k

/-- Set key k to v, keeping the canonical form. -/
def fset {α : Type} [DecidableEq α] (d : α) : FMap α → Nat → α → FMap α
  | [], k, v => if v = d then [] else [(k, v)]
  | (a, x) :: t, k, v =>
    if k < a then (if v = d then (a, x) :: t else (k, v) :: (a, x) :: t)
    else if a = k then (if v = d then t else (k, v) :: t)
    else (a, x) :: fset d t k v

/-- Change what key k holds. -/
def fmod {α : Type} [DecidableEq α] (d : α) (m : FMap α) (k : Nat) (f : α → α) : FMap α :=
  fset d m k (f (fget d m k))

/-- Every key lies above `b`, keys rise strictly, and no entry equals the default. -/
def fwfAbove {α : Type} [DecidableEq α] (d : α) : Option Nat → FMap α → Bool
  | _, [] => true
  | b, (a, v) :: t =>
    (match b with
      | none => true
      | some x => decide (x < a)) && decide (v ≠ d) && fwfAbove d (some a) t

/-- The canonical form. -/
def fwf {α : Type} [DecidableEq α] (d : α) (m : FMap α) : Bool := fwfAbove d none m

/-- Keep only the entries whose key satisfies p. -/
def fkeep {α : Type} (p : Nat → Bool) (m : FMap α) : FMap α := m.filter (fun e => p e.1)

/-- Sum of f over the listed entries. -/
def fsum {α : Type} (f : Nat → α → Nat) (m : FMap α) : Nat :=
  m.foldl (fun n e => n + f e.1 e.2) 0

/-- Set a run of keys to the elements of a list. -/
def fsetRun {α : Type} [DecidableEq α] (d : α) (m : FMap α) (k : Nat) : List α → FMap α
  | [] => m
  | v :: vs => fsetRun d (fset d m k v) (k + 1) vs

/-- A run of n keys from k. -/
def fgetRun {α : Type} (d : α) (m : FMap α) (k : Nat) : Nat → List α
  | 0 => []
  | n + 1 => fget d m k :: fgetRun d m (k + 1) n

end Sys2Proof
end

