-- ==== Sys2Proof/Machine/IndexTable.lean ====
section
/-!
DEFINITION. Sys2Proof/Machine/IndexTable.lean: the entries of the Index, with their ranges, types and access rights as their
defining tables give them (Tables 1.2, 4.5, 5.3, 6.19, 7.7, 8.5, 9.10, 10.6, 11.7, 12.1, 13.7, 14.8, 15.5, 16.4, 17.6, 18.5,
19.6, 20.5), and the values at reset that are not zero.
-/
namespace Sys2Proof.Machine

/-- Entry types (Table 15.2). -/
inductive EType where
  | u8 | u16 | u32 | u64 | i32 | boolean | domain | text
  deriving DecidableEq, Repr

/-- Access rights (Table 15.3). -/
inductive Access where
  | ro | rw | wo | const | rwi
  deriving DecidableEq, Repr

/-- One entry or family: indices lo to hi, subindices sub to subHi (R343). -/
structure EntryDef where
  lo : Nat
  hi : Nat
  sub : Nat
  subHi : Nat
  type : EType
  access : Access
  deriving DecidableEq, Repr

/-- Size in bytes of a numeric entry (Table 15.2). -/
def EType.size : EType → Nat
  | .u8 => 1 | .u16 => 2 | .u32 => 4 | .u64 => 8 | .i32 => 4 | .boolean => 1 | .domain => 0 | .text => 0

/-- DOMAIN and VISIBLE_STRING entries are reached by block accesses only. -/
def EType.isBytes : EType → Bool
  | .domain => true
  | .text => true
  | _ => false

/-- Entries from 1000 to 4005. -/
def entries0 : List EntryDef := [
  ⟨0x1000, 0x1000, 0x00, 0x00, .text, .const⟩,
  ⟨0x1001, 0x1001, 0x00, 0x00, .u64, .const⟩,
  ⟨0x1002, 0x1002, 0x00, 0x00, .u16, .rw⟩,
  ⟨0x1003, 0x1003, 0x00, 0x00, .domain, .const⟩,
  ⟨0x1004, 0x1004, 0x00, 0x00, .u8, .const⟩,
  ⟨0x1005, 0x1005, 0x00, 0x00, .u16, .const⟩,
  ⟨0x1010, 0x1010, 0x00, 0x00, .u8, .rwi⟩,
  ⟨0x1011, 0x1011, 0x00, 0x00, .u16, .rw⟩,
  ⟨0x1012, 0x1012, 0x00, 0x00, .u16, .rwi⟩,
  ⟨0x1013, 0x1013, 0x00, 0x00, .u16, .rwi⟩,
  ⟨0x1014, 0x1014, 0x00, 0x00, .u16, .wo⟩,
  ⟨0x1015, 0x1015, 0x00, 0x00, .u16, .rw⟩,
  ⟨0x1016, 0x1016, 0x00, 0x00, .u8, .rw⟩,
  ⟨0x1020, 0x1020, 0x00, 0x7F, .u16, .ro⟩,
  ⟨0x1021, 0x1021, 0x00, 0x7F, .u64, .ro⟩,
  ⟨0x1022, 0x1022, 0x00, 0x7F, .u8, .ro⟩,
  ⟨0x1023, 0x1023, 0x00, 0x00, .u64, .ro⟩,
  ⟨0x2001, 0x2001, 0x00, 0x00, .u64, .ro⟩,
  ⟨0x2002, 0x2002, 0x00, 0x00, .u32, .ro⟩,
  ⟨0x2003, 0x2003, 0x00, 0x00, .u8, .ro⟩,
  ⟨0x2004, 0x2004, 0x00, 0x00, .u32, .ro⟩,
  ⟨0x2005, 0x2005, 0x00, 0x00, .domain, .ro⟩,
  ⟨0x2006, 0x2006, 0x00, 0x00, .u32, .ro⟩,
  ⟨0x2008, 0x2008, 0x00, 0x00, .u32, .ro⟩,
  ⟨0x3001, 0x3001, 0x00, 0x80, .u8, .rwi⟩,
  ⟨0x3002, 0x3002, 0x00, 0x80, .u8, .ro⟩,
  ⟨0x3003, 0x3003, 0x00, 0x80, .u32, .ro⟩,
  ⟨0x3004, 0x3004, 0x00, 0x80, .boolean, .rwi⟩,
  ⟨0x3005, 0x3005, 0x00, 0x80, .u64, .ro⟩,
  ⟨0x3006, 0x3006, 0x00, 0x80, .u64, .ro⟩,
  ⟨0x3007, 0x3007, 0x00, 0x80, .u64, .ro⟩,
  ⟨0x3008, 0x3008, 0x00, 0x80, .u64, .ro⟩,
  ⟨0x3009, 0x3009, 0x00, 0x80, .u64, .ro⟩,
  ⟨0x3014, 0x3017, 0x00, 0x80, .u32, .ro⟩,
  ⟨0x3100, 0x3100, 0x00, 0x7F, .u8, .rwi⟩,
  ⟨0x4001, 0x4001, 0x00, 0x00, .u16, .rwi⟩,
  ⟨0x4002, 0x4002, 0x00, 0x00, .u16, .rwi⟩,
  ⟨0x4003, 0x4003, 0x00, 0x00, .u16, .rw⟩,
  ⟨0x4004, 0x4004, 0x00, 0x00, .u64, .ro⟩,
  ⟨0x4005, 0x4005, 0x00, 0x00, .u64, .ro⟩]

/-- Entries from 4006 to 413F. -/
def entries1 : List EntryDef := [
  ⟨0x4006, 0x4006, 0x00, 0x04, .u32, .rw⟩,
  ⟨0x4007, 0x4007, 0x00, 0x00, .u64, .ro⟩,
  ⟨0x4010, 0x4010, 0x00, 0x00, .domain, .wo⟩,
  ⟨0x4011, 0x4011, 0x00, 0x00, .u32, .ro⟩,
  ⟨0x4012, 0x4012, 0x00, 0x00, .u16, .rw⟩,
  ⟨0x4013, 0x4013, 0x00, 0x00, .u64, .ro⟩,
  ⟨0x4014, 0x4014, 0x00, 0x00, .domain, .wo⟩,
  ⟨0x4015, 0x4015, 0x00, 0x80, .u16, .rw⟩,
  ⟨0x4016, 0x4016, 0x00, 0x80, .u8, .rw⟩,
  ⟨0x4020, 0x4020, 0x00, 0x00, .u16, .rw⟩,
  ⟨0x4021, 0x4021, 0x00, 0x00, .u16, .rw⟩,
  ⟨0x4022, 0x4022, 0x00, 0x00, .u8, .wo⟩,
  ⟨0x4023, 0x4023, 0x00, 0x00, .u64, .ro⟩,
  ⟨0x4040, 0x4040, 0x00, 0x00, .u32, .ro⟩,
  ⟨0x4041, 0x4041, 0x00, 0x00, .u32, .ro⟩,
  ⟨0x4042, 0x4042, 0x00, 0x00, .u32, .ro⟩,
  ⟨0x4043, 0x4043, 0x00, 0x00, .u32, .ro⟩,
  ⟨0x4044, 0x4044, 0x00, 0x00, .u32, .ro⟩,
  ⟨0x4045, 0x4045, 0x00, 0x00, .u32, .const⟩,
  ⟨0x4048, 0x4048, 0x00, 0x00, .u8, .wo⟩,
  ⟨0x4049, 0x4049, 0x00, 0x00, .u64, .ro⟩,
  ⟨0x4060, 0x4060, 0x00, 0x0F, .u64, .rw⟩,
  ⟨0x4061, 0x4061, 0x00, 0x00, .u8, .rw⟩,
  ⟨0x4062, 0x4062, 0x00, 0x00, .u32, .rwi⟩,
  ⟨0x4080, 0x4083, 0x00, 0x00, .u64, .rwi⟩,
  ⟨0x4080, 0x4083, 0x01, 0x01, .u32, .rwi⟩,
  ⟨0x4080, 0x4083, 0x02, 0x02, .u32, .rw⟩,
  ⟨0x4080, 0x4083, 0x03, 0x03, .u64, .ro⟩,
  ⟨0x4080, 0x4083, 0x04, 0x04, .u64, .rw⟩,
  ⟨0x4080, 0x4083, 0x05, 0x05, .u64, .ro⟩,
  ⟨0x4080, 0x4083, 0x06, 0x0A, .u32, .rw⟩,
  ⟨0x4080, 0x4083, 0x0B, 0x0B, .u64, .rw⟩,
  ⟨0x4080, 0x4083, 0x0C, 0x0C, .u64, .rw⟩,
  ⟨0x4100, 0x4107, 0x00, 0x80, .u64, .rwi⟩,
  ⟨0x4110, 0x4117, 0x00, 0x80, .u64, .ro⟩,
  ⟨0x4118, 0x411B, 0x00, 0x80, .u64, .ro⟩,
  ⟨0x4120, 0x4127, 0x00, 0x80, .u64, .ro⟩,
  ⟨0x4128, 0x412B, 0x00, 0x80, .u8, .rw⟩,
  ⟨0x4130, 0x4137, 0x00, 0x80, .u8, .rw⟩,
  ⟨0x4138, 0x413F, 0x00, 0x80, .u32, .rw⟩]

/-- Entries from 4140 to 5067. -/
def entries2 : List EntryDef := [
  ⟨0x4140, 0x4147, 0x00, 0x80, .u32, .rw⟩,
  ⟨0x4148, 0x414F, 0x00, 0x80, .domain, .ro⟩,
  ⟨0x4150, 0x4157, 0x00, 0x80, .domain, .ro⟩,
  ⟨0x4158, 0x415F, 0x00, 0x80, .u64, .ro⟩,
  ⟨0x4200, 0x4203, 0x00, 0x80, .u64, .rw⟩,
  ⟨0x4204, 0x4207, 0x00, 0x80, .u64, .rw⟩,
  ⟨0x4208, 0x420B, 0x00, 0x80, .u8, .rw⟩,
  ⟨0x420C, 0x420F, 0x00, 0x80, .u64, .ro⟩,
  ⟨0x4210, 0x4213, 0x00, 0x80, .u64, .ro⟩,
  ⟨0x4214, 0x4217, 0x00, 0x80, .u64, .ro⟩,
  ⟨0x4400, 0x443F, 0x00, 0xFF, .u64, .rw⟩,
  ⟨0x5001, 0x5001, 0x00, 0x00, .u16, .const⟩,
  ⟨0x5002, 0x5002, 0x00, 0x00, .u32, .const⟩,
  ⟨0x5010, 0x5010, 0x00, 0x2F, .u64, .ro⟩,
  ⟨0x5011, 0x5011, 0x00, 0x2F, .u64, .ro⟩,
  ⟨0x5012, 0x5012, 0x00, 0x2F, .u32, .ro⟩,
  ⟨0x5020, 0x5020, 0x00, 0x00, .boolean, .rwi⟩,
  ⟨0x5021, 0x5021, 0x00, 0x00, .u64, .ro⟩,
  ⟨0x5022, 0x5022, 0x00, 0x00, .u64, .ro⟩,
  ⟨0x5023, 0x5023, 0x00, 0x00, .u64, .ro⟩,
  ⟨0x5030, 0x5030, 0x00, 0x00, .u8, .ro⟩,
  ⟨0x5031, 0x5031, 0x00, 0x00, .u32, .ro⟩,
  ⟨0x5032, 0x5032, 0x00, 0x00, .u64, .ro⟩,
  ⟨0x5033, 0x5033, 0x00, 0x3F, .u64, .ro⟩,
  ⟨0x5034, 0x5034, 0x00, 0x00, .u64, .ro⟩,
  ⟨0x5035, 0x5035, 0x00, 0x00, .u64, .ro⟩,
  ⟨0x5036, 0x5036, 0x00, 0x00, .u64, .ro⟩,
  ⟨0x5037, 0x5037, 0x00, 0x00, .u64, .ro⟩,
  ⟨0x5038, 0x5038, 0x00, 0x00, .u64, .ro⟩,
  ⟨0x5040, 0x5040, 0x00, 0xFF, .u64, .ro⟩,
  ⟨0x5041, 0x5041, 0x00, 0x00, .u64, .ro⟩,
  ⟨0x5050, 0x5050, 0x00, 0xFF, .u64, .ro⟩,
  ⟨0x5060, 0x5060, 0x00, 0x1F, .domain, .ro⟩,
  ⟨0x5061, 0x5061, 0x00, 0x1F, .u8, .ro⟩,
  ⟨0x5062, 0x5062, 0x00, 0x1F, .domain, .ro⟩,
  ⟨0x5063, 0x5063, 0x00, 0x1F, .u64, .ro⟩,
  ⟨0x5064, 0x5064, 0x00, 0x1F, .u32, .ro⟩,
  ⟨0x5065, 0x5065, 0x00, 0x1F, .u64, .ro⟩,
  ⟨0x5066, 0x5066, 0x00, 0x1F, .u64, .rw⟩,
  ⟨0x5067, 0x5067, 0x00, 0x1F, .u64, .ro⟩]

/-- Entries from 5068 to 7002. -/
def entries3 : List EntryDef := [
  ⟨0x5068, 0x5068, 0x00, 0x1F, .u64, .ro⟩,
  ⟨0x5069, 0x5069, 0x00, 0x1F, .u64, .ro⟩,
  ⟨0x5070, 0x5070, 0x00, 0xFF, .u16, .ro⟩,
  ⟨0x5071, 0x5071, 0x00, 0xFF, .u16, .wo⟩,
  ⟨0x5072, 0x5072, 0x00, 0xFF, .u16, .ro⟩,
  ⟨0x5073, 0x5073, 0x00, 0x1F, .u8, .wo⟩,
  ⟨0x5080, 0x5080, 0x00, 0x00, .domain, .wo⟩,
  ⟨0x5081, 0x5081, 0x00, 0x00, .u8, .wo⟩,
  ⟨0x5082, 0x5082, 0x00, 0x00, .u8, .wo⟩,
  ⟨0x5083, 0x5083, 0x00, 0x00, .u16, .rwi⟩,
  ⟨0x5084, 0x5084, 0x00, 0x00, .domain, .ro⟩,
  ⟨0x5085, 0x5085, 0x00, 0x00, .u64, .ro⟩,
  ⟨0x5086, 0x5086, 0x00, 0x00, .u64, .ro⟩,
  ⟨0x5090, 0x5090, 0x00, 0x00, .domain, .ro⟩,
  ⟨0x5091, 0x5091, 0x00, 0x00, .u64, .ro⟩,
  ⟨0x6001, 0x6001, 0x00, 0x00, .u16, .ro⟩,
  ⟨0x6002, 0x6002, 0x00, 0x00, .u32, .rwi⟩,
  ⟨0x6003, 0x6003, 0x00, 0x00, .u32, .ro⟩,
  ⟨0x6004, 0x6004, 0x00, 0x03, .u64, .ro⟩,
  ⟨0x6005, 0x6005, 0x00, 0x03, .u64, .ro⟩,
  ⟨0x6006, 0x6006, 0x00, 0x03, .u64, .ro⟩,
  ⟨0x6007, 0x6007, 0x00, 0x00, .u64, .ro⟩,
  ⟨0x6008, 0x6008, 0x00, 0x00, .u32, .rwi⟩,
  ⟨0x6009, 0x6009, 0x00, 0x00, .u32, .ro⟩,
  ⟨0x600A, 0x600A, 0x00, 0x00, .u64, .ro⟩,
  ⟨0x600B, 0x600B, 0x00, 0x00, .u32, .rw⟩,
  ⟨0x600C, 0x600C, 0x00, 0x00, .u8, .rw⟩,
  ⟨0x600D, 0x600D, 0x00, 0x00, .u8, .rw⟩,
  ⟨0x600E, 0x600E, 0x00, 0x00, .u16, .ro⟩,
  ⟨0x6100, 0x610F, 0x00, 0xFF, .u64, .ro⟩,
  ⟨0x6110, 0x611F, 0x00, 0xFF, .u8, .wo⟩,
  ⟨0x6120, 0x612F, 0x00, 0xFF, .u64, .ro⟩,
  ⟨0x6130, 0x613F, 0x00, 0xFF, .u32, .wo⟩,
  ⟨0x6140, 0x614F, 0x00, 0xFF, .u32, .rw⟩,
  ⟨0x6150, 0x615F, 0x00, 0xFF, .u64, .ro⟩,
  ⟨0x6160, 0x616F, 0x00, 0xFF, .domain, .ro⟩,
  ⟨0x6170, 0x617F, 0x00, 0xFF, .u64, .ro⟩,
  ⟨0x6300, 0x6300, 0x00, 0xFF, .domain, .ro⟩,
  ⟨0x7001, 0x7001, 0x00, 0x0F, .u64, .ro⟩,
  ⟨0x7002, 0x7002, 0x00, 0x0F, .u64, .ro⟩]

/-- Entries from 7003 to 8045. -/
def entries4 : List EntryDef := [
  ⟨0x7003, 0x7003, 0x00, 0x1F, .u64, .ro⟩,
  ⟨0x7004, 0x7004, 0x00, 0x1F, .u64, .ro⟩,
  ⟨0x7005, 0x7005, 0x00, 0x00, .u64, .ro⟩,
  ⟨0x7006, 0x7006, 0x00, 0x00, .u64, .ro⟩,
  ⟨0x7007, 0x7007, 0x00, 0x00, .u64, .ro⟩,
  ⟨0x7010, 0x7010, 0x00, 0x00, .u64, .rw⟩,
  ⟨0x7011, 0x7011, 0x00, 0x00, .domain, .rw⟩,
  ⟨0x7012, 0x7012, 0x00, 0x00, .u64, .ro⟩,
  ⟨0x7020, 0x7020, 0x00, 0x00, .u32, .rw⟩,
  ⟨0x7021, 0x7021, 0x00, 0x00, .u32, .rw⟩,
  ⟨0x7022, 0x7022, 0x00, 0x00, .u64, .ro⟩,
  ⟨0x7030, 0x7030, 0x00, 0x00, .u8, .rwi⟩,
  ⟨0x7031, 0x7031, 0x00, 0x00, .u64, .ro⟩,
  ⟨0x7032, 0x7032, 0x00, 0x00, .u64, .ro⟩,
  ⟨0x7033, 0x7033, 0x00, 0x00, .u64, .const⟩,
  ⟨0x7040, 0x7040, 0x00, 0xFF, .domain, .ro⟩,
  ⟨0x7041, 0x7041, 0x00, 0x00, .u32, .ro⟩,
  ⟨0x8001, 0x8001, 0x00, 0x00, .boolean, .rwi⟩,
  ⟨0x8010, 0x8010, 0x00, 0x00, .u8, .rwi⟩,
  ⟨0x8011, 0x8011, 0x00, 0x00, .u16, .rwi⟩,
  ⟨0x8012, 0x8012, 0x00, 0x00, .u8, .rwi⟩,
  ⟨0x8013, 0x8013, 0x00, 0x00, .u16, .rw⟩,
  ⟨0x8014, 0x8014, 0x00, 0x00, .u8, .rw⟩,
  ⟨0x8015, 0x8015, 0x00, 0x00, .u32, .ro⟩,
  ⟨0x8016, 0x8016, 0x00, 0x00, .u64, .ro⟩,
  ⟨0x8020, 0x8020, 0x00, 0xFF, .domain, .ro⟩,
  ⟨0x8021, 0x8021, 0x00, 0x00, .u32, .ro⟩,
  ⟨0x8022, 0x8022, 0x00, 0x00, .u64, .ro⟩,
  ⟨0x8023, 0x8023, 0x00, 0x00, .u64, .ro⟩,
  ⟨0x8024, 0x8024, 0x00, 0x00, .u8, .wo⟩,
  ⟨0x8030, 0x8030, 0x00, 0x00, .u32, .rwi⟩,
  ⟨0x8031, 0x8031, 0x00, 0x00, .u32, .wo⟩,
  ⟨0x8032, 0x8032, 0x00, 0x7F, .boolean, .rw⟩,
  ⟨0x8033, 0x8033, 0x00, 0x00, .u64, .ro⟩,
  ⟨0x8040, 0x8040, 0x00, 0x00, .u16, .rwi⟩,
  ⟨0x8041, 0x8041, 0x00, 0x00, .u8, .rw⟩,
  ⟨0x8042, 0x8042, 0x00, 0x00, .u8, .rwi⟩,
  ⟨0x8043, 0x8043, 0x00, 0x00, .u8, .wo⟩,
  ⟨0x8044, 0x8044, 0x00, 0x00, .u64, .ro⟩,
  ⟨0x8045, 0x8045, 0x00, 0x00, .u32, .ro⟩]

/-- Entries from 9001 to F041. -/
def entries5 : List EntryDef := [
  ⟨0x9001, 0x9001, 0x00, 0x03, .i32, .ro⟩,
  ⟨0x9002, 0x9002, 0x00, 0x03, .i32, .ro⟩,
  ⟨0x9003, 0x9003, 0x00, 0x03, .u16, .ro⟩,
  ⟨0x9004, 0x9004, 0x00, 0x03, .u16, .ro⟩,
  ⟨0x9005, 0x9005, 0x00, 0x00, .u8, .wo⟩,
  ⟨0x9006, 0x9006, 0x00, 0x03, .u64, .ro⟩,
  ⟨0x9007, 0x9007, 0x00, 0x00, .u64, .ro⟩,
  ⟨0x9010, 0x9010, 0x00, 0x00, .u8, .rw⟩,
  ⟨0x9011, 0x9011, 0x00, 0x00, .u64, .ro⟩,
  ⟨0x9012, 0x9012, 0x00, 0x00, .u64, .ro⟩,
  ⟨0x9020, 0x9020, 0x00, 0x00, .u16, .ro⟩,
  ⟨0x9021, 0x9021, 0x00, 0x00, .u64, .ro⟩,
  ⟨0x9022, 0x9022, 0x00, 0x00, .u64, .const⟩,
  ⟨0x9030, 0x9030, 0x00, 0x00, .u64, .ro⟩,
  ⟨0xA001, 0xA001, 0x00, 0x00, .u8, .wo⟩,
  ⟨0xA002, 0xA002, 0x00, 0x00, .boolean, .ro⟩,
  ⟨0xA010, 0xA010, 0x00, 0x00, .domain, .wo⟩,
  ⟨0xA011, 0xA011, 0x00, 0x00, .u8, .wo⟩,
  ⟨0xA012, 0xA012, 0x00, 0x00, .u64, .ro⟩,
  ⟨0xA013, 0xA013, 0x00, 0x00, .domain, .rwi⟩,
  ⟨0xA014, 0xA014, 0x00, 0x00, .domain, .ro⟩,
  ⟨0xA015, 0xA015, 0x00, 0x00, .u32, .ro⟩,
  ⟨0xA016, 0xA016, 0x00, 0x00, .u64, .ro⟩,
  ⟨0xA017, 0xA017, 0x00, 0x00, .u8, .ro⟩,
  ⟨0xA018, 0xA018, 0x00, 0x00, .u64, .ro⟩,
  ⟨0xA020, 0xA020, 0x00, 0x03, .domain, .rwi⟩,
  ⟨0xA021, 0xA021, 0x00, 0x03, .domain, .const⟩,
  ⟨0xA030, 0xA030, 0x00, 0x00, .domain, .const⟩,
  ⟨0xA031, 0xA031, 0x00, 0x00, .domain, .const⟩,
  ⟨0xA040, 0xA040, 0x00, 0x01, .domain, .const⟩,
  ⟨0xA041, 0xA041, 0x00, 0x00, .u32, .const⟩,
  ⟨0xA050, 0xA050, 0x00, 0x00, .domain, .wo⟩,
  ⟨0xA051, 0xA051, 0x00, 0x00, .domain, .ro⟩,
  ⟨0xA052, 0xA052, 0x00, 0x00, .u8, .ro⟩,
  ⟨0xF001, 0xF001, 0x00, 0x00, .u32, .const⟩,
  ⟨0xF010, 0xF010, 0x00, 0x00, .u8, .rwi⟩,
  ⟨0xF011, 0xF011, 0x00, 0x00, .u8, .rwi⟩,
  ⟨0xF040, 0xF040, 0x00, 0x00, .u64, .wo⟩,
  ⟨0xF041, 0xF041, 0x00, 0x00, .u32, .ro⟩]

/-- Every entry of the device (R355). -/
def entryTable : List EntryDef := entries0 ++ entries1 ++ entries2 ++ entries3 ++ entries4 ++ entries5

/-- The key of an entry in the Index store. -/
def ikey (index sub : Nat) : Nat := 256 * index + sub

/-- The row that covers an index and subindex (R343). -/
def entryOf (index sub : Nat) : Option EntryDef :=
  entryTable.find? (fun e => decide (e.lo ≤ index) && decide (index ≤ e.hi) && decide (e.sub ≤ sub) && decide (sub ≤ e.subHi))

/-- The value at reset of an entry held in the Index store, where it is not zero. -/
def resetOf (key : Nat) : Nat :=
  let i := key / 256
  let sub := key % 256
  if i = 0x1015 then 0x0400
  else if i = 0x3001 then 0x01
  else if i = 0x3004 then 1
  else if i = 0x4001 then 0x88B5
  else if i = 0x4002 then 0x88B6
  else if i = 0x4003 then 0xFA50
  else if i = 0x4012 then 0x012C
  else if i = 0x4015 then 0x1001
  else if i = 0x4016 then 0x14
  else if i = 0x4020 then 0x0100
  else if i = 0x4021 then 0x0004
  else if i = 0x4060 then
    (if sub = 0 then 4096 * 2 ^ 36 + 1024 * 2 ^ 8 + 0x20
     else if sub = 1 then 2048 * 2 ^ 36 + 256 * 2 ^ 8 + 0x40 else 0)
  else if i = 0x4061 then 0x06
  else if i = 0x4062 then 1
  else if 0x4100 ≤ i ∧ i ≤ 0x4103 then 0x0000080000010000
  else if i = 0x4104 then 0x0000040000000000
  else if i = 0x4105 then 0x0000020000000000
  else if i = 0x4106 then 0x0000010000000000
  else if i = 0x4107 then 0x0000004000000000
  else if 0x4128 ≤ i ∧ i ≤ 0x412B then 0x10
  else if 0x4130 ≤ i ∧ i ≤ 0x4133 then 0x08
  else if i = 0x4134 then 0x40
  else if i = 0x4135 then 0x20
  else if i = 0x4136 then 0x10
  else if i = 0x4137 then 0x08
  else if 0x4204 ≤ i ∧ i ≤ 0x4207 then 0x0001000000010000
  else if i = 0x5020 then 1
  else if i = 0x5083 then 0x0040
  else if i = 0x6002 then 0x00010000
  else if i = 0x6008 then 0x00100000
  else if i = 0x600B then 0x000004E2
  else if i = 0x600C then 0x40
  else if i = 0x600D then 0x10
  else if 0x6140 ≤ i ∧ i ≤ 0x614F then 0x00010000
  else if i = 0x7020 then 0x00100000
  else if i = 0x7021 then 0x01000000
  else if i = 0x7030 then 0x10
  else if i = 0x7031 then 0x16BC0000000
  else if i = 0x7032 then 0x15BC0000000
  else if i = 0x7033 then 0x16FC0000000
  else if i = 0x8013 then 0x0040
  else if i = 0x8041 then 0x04
  else if i = 0x9004 then 0xFFFF
  else if i = 0x9010 then 0x02
  else if i = 0xF041 then 0xFFFFFFFF
  else 0

end Sys2Proof.Machine
end

