-- ==== Sys2Proof/Machine/Ops.lean ====
section
/-!
DEFINITION. Sys2Proof/Machine/Ops.lean: the operations every meaning shares: the count of time, the Index store, the colophon,
device memory under the symbol code, accumulator windows and leaves.
-/
namespace Sys2Proof.Machine

/-- Every meaning ends in a next state: the spec describes what becomes of every failure. -/
abbrev Out := Host.Outcome State Fault Refusal

/-! ### Time (R356, R359, R367) -/

/-- No clock domain runs and no part of the device responds: RESET_N is low, or lane 0 of port C carries no signal yet
(R2, R362). -/
def State.dark (s : State) : Bool := s.clock.phase == .held || s.clock.phase == .awaitingSignal

/-- The FABRIC cycle counted from the first one that passed. -/
def State.now (s : State) : Nat := s.clock.base + s.clock.cycle

/-! ### Fields of a word -/

/-- Replace bits [hi:lo] of x by v. -/
def setBits (x hi lo v : Nat) : Nat :=
  x - bits x hi lo * 2 ^ lo + (v % 2 ^ (hi + 1 - lo)) * 2 ^ lo

/-- Add n to the counter in bits [hi:lo] of x, stopping at its largest value (R348). -/
def bumpBits (x hi lo n : Nat) : Nat := setBits x hi lo (satAdd (hi + 1 - lo) (bits x hi lo) n)

/-! ### The Index store -/

/-- What the Index store holds for an entry. -/
def State.idx (s : State) (i sub : Nat) : Nat := fget (resetOf (ikey i sub)) s.index (ikey i sub)

/-! ### Clock domains (R356, R358, R360, R361, Tables 16.1, 16.2, 20.5) -/

/-- Reference PLL VCO cycles of one FABRIC cycle. -/
def State.fabricDivider (s : State) : Nat := if s.idx 0xF011 0 = 0 then 8 else s.idx 0xF011 0

/-- FABRIC cycles of one stitch, which is 12,800 cycles of the reference PLL's VCO: 1,600 unless the test override says
otherwise. -/
def State.fabricCycles (s : State) : Nat := 12800 / s.fabricDivider

/-- The mean length of a CORE cycle at a step, in thirds of a cycle of the CORE VCO. -/
def coreThirds (step : Nat) : Nat :=
  match step with
  | 0 => 24
  | 1 => 32
  | _ => 48

/-- The same, under the test override. -/
def State.coreThirds (s : State) : Nat :=
  if s.idx 0xF010 0 = 0 then Sys2Proof.Machine.coreThirds s.clock.step else 3 * s.idx 0xF010 0

/-- Whole CORE cycles in so many hundredths of a CORE VCO cycle from a boundary; at 32 thirds the lengths are 11, 11 and 10,
repeating. -/
def coreCount (thirds t : Nat) : Nat :=
  if thirds = 32 then
    3 * (t / 3200) + (if t % 3200 < 1100 then 0 else if t % 3200 < 2200 then 1 else 2)
  else 3 * t / (100 * thirds)

/-- CORE cycles of one stitch, which is 8,192 cycles of the CORE VCO. -/
def State.coreCycles (s : State) : Nat := coreCount s.coreThirds 819200

/-- The CORE cycle within the stitch: one cycle of the reference PLL's VCO is 64 hundredths of one of the CORE VCO. -/
def State.coreCycle (s : State) : Nat := coreCount s.coreThirds (64 * s.fabricDivider * s.clock.cycle)

/-- The domain clocks have left the limits of R360: CORE below 400 MHz, or FABRIC to CORE outside 1.25 to 3.125. -/
def State.outside (s : State) : Bool :=
  decide (48 < s.coreThirds) || decide (5 * s.coreThirds < 12 * s.fabricDivider) || decide (6 * s.fabricDivider < s.coreThirds)

/-- What becomes of data that crosses between CORE and FABRIC or between CORE and MEM: 0 it passes, 1 it is lost, 2 it passes
twice. Within the limits it always passes (R361, log entry 40). -/
def State.crosses (s : State) : Nat × State :=
  if s.outside then (Config.crossing s.freshCount % 3, { s with freshCount := s.freshCount + 1 }) else (0, s)

/-- Set an entry of the Index store. -/
def State.idxSet (s : State) (i sub v : Nat) : State :=
  { s with index := fset (resetOf (ikey i sub)) s.index (ikey i sub) v }

/-- Add n to the counter in bits [hi:lo] of an entry (R348). -/
def State.idxBump (s : State) (i sub hi lo n : Nat) : State :=
  s.idxSet i sub (bumpBits (s.idx i sub) hi lo n)

/-- Add n to a 64-bit counter entry. -/
def State.count (s : State) (i sub n : Nat) : State := s.idxBump i sub 63 0 n

/-- Entries with these indices return to their values at reset. -/
def State.idxClear (s : State) (p : Nat → Bool) : State :=
  { s with index := fkeep (fun k => !p (k / 256)) s.index }

/-- A settable DOMAIN entry. -/
def State.domain (s : State) (i sub : Nat) : Bytes := fget [] s.domains (ikey i sub)

/-- Set a settable DOMAIN entry. -/
def State.domainSet (s : State) (i sub : Nat) (b : Bytes) : State :=
  { s with domains := fset [] s.domains (ikey i sub) b }

/-- The folio's own address (0x1002.00). -/
def State.address (s : State) : Nat := s.idx 0x1002 0

/-- The strict bit (0x8001.00). -/
def State.strict (s : State) : Bool := s.idx 0x8001 0 == 1

/-- The run has failed (Table 18.2, bit [63]). -/
def State.runFailed (s : State) : Bool := bit (s.idx 0x8033 0) 63

/-- Base of the overflow region: external leaf 0 (0x7031.00). -/
def State.overflowBase (s : State) : Nat := s.idx 0x7031 0

/-- Base of the staging region (0x7032.00). -/
def State.stagingBase (s : State) : Nat := s.idx 0x7032 0

/-- The device area (Table 13.2). -/
def deviceArea : Nat := 0x16FC0000000

/-! ### Ports, cores and contexts by number -/

def State.port (s : State) (p : Nat) : Port := fget Port.reset s.ports p

def State.setPort (s : State) (p : Nat) (x : Port) : State := { s with ports := fset Port.reset s.ports p x }

def State.core (s : State) (c : Nat) : Core := fget Core.reset s.cores.cores c

def State.setCore (s : State) (c : Nat) (x : Core) : State :=
  { s with cores := { s.cores with cores := fset Core.reset s.cores.cores c x } }

def State.ctx (s : State) (x : Nat) : Ctx := fget Ctx.reset s.ctxs x

def State.setCtx (s : State) (x : Nat) (v : Ctx) : State := { s with ctxs := fset Ctx.reset s.ctxs x v }

def Port.queue (p : Port) (v : Nat) : Queue := fget Queue.reset p.queues v

def Port.setQueue (p : Port) (v : Nat) (q : Queue) : Port := { p with queues := fset Queue.reset p.queues v q }

/-- Control port C. -/
def portC : Nat := 0x80

/-- A scalar register; s0 reads zero (R144). -/
def Core.reg (x : Core) (r : Nat) : Nat := if r = 0 then 0 else fget 0 x.regs r

/-- Write a scalar register; writes to s0 are discarded (R144). -/
def Core.setReg (x : Core) (r v : Nat) : Core :=
  if r = 0 then x else { x with regs := fset 0 x.regs r (v % 2 ^ 64) }

/-! ### The colophon (Table 8.4) -/

/-- Cores with a core record in one of these run states. -/
def State.coresIn (s : State) (p : CoreRun → Bool) : Nat :=
  ((List.range 32).filter (fun c => p (s.core c).run)).length

/-- The phase field: finished and stopped follow from the cores' states. -/
def State.colophonPhase (s : State) : Nat :=
  let b := s.binding
  if b.phase = 3 && b.started > 0 && s.coresIn (· == .running) = 0 then
    (if s.coresIn (fun r => r == .halted || r == .stopped) = 0 then 4 else 5)
  else b.phase

/-- Tiles whose bit is set. -/
def State.tilesDone (s : State) : Nat := s.binding.tileBits.length

/-- The status word's counts of running, of halted or stopped, and of ended cores. -/
def State.coreFields (s : State) : Nat :=
  s.coresIn (· == .running) * 2 ^ 40 + s.coresIn (fun r => r == .halted || r == .stopped) * 2 ^ 32 +
    s.coresIn (· == .ended) * 2 ^ 24

/-- The status word, offset 0x00; a refused image has no cores to count. -/
def State.colophonStatus (s : State) : Nat :=
  s.colophonPhase * 2 ^ 56 + s.binding.refusal * 2 ^ 48 +
    (if s.binding.phase < 3 then 0 else s.coreFields) + s.binding.flags + s.tilesDone % 2 ^ 17

/-- A 64-bit word of the colophon's first 128 bytes. -/
def State.colophonWord (s : State) (off : Nat) : Nat :=
  if off = 0 then s.colophonStatus else fget 0 s.binding.colophon off

/-- Size in bytes: 128 plus the tile bitmap, to 64 bytes (R205). -/
def State.colophonSize (s : State) : Nat := roundUp (128 + ceilDiv s.binding.tileList.length 8) 64

/-- A byte of the colophon. -/
def State.colophonByte (s : State) (off : Nat) : Byte :=
  if off < 0x80 then BitVec.ofNat 8 (s.colophonWord (off / 8 * 8) / 2 ^ (8 * (off % 8)))
  else BitVec.ofNat 8 ((List.range 8).foldl
    (fun n i => n + b2n (fget false s.binding.tileBits (8 * (off - 0x80) + i)) * 2 ^ i) 0)

/-- Set a word of the colophon. -/
def State.colophonSet (s : State) (off v : Nat) : State :=
  { s with binding := { s.binding with colophon := fset 0 s.binding.colophon off v } }

/-- Add to a total of the colophon (saturating). -/
def State.colophonAdd (s : State) (off n : Nat) : State :=
  s.colophonSet off (satAdd 64 (fget 0 s.binding.colophon off) n)

/-- Set a flag bit of word 0 ([23:17]). -/
def State.colophonFlag (s : State) (b : Nat) : State :=
  if bit s.binding.flags b then s
  else { s with binding := { s.binding with flags := s.binding.flags + 2 ^ b } }

/-! ### The device address map (Table 13.1) -/

/-- One past the SRAM tiers. -/
def sramEnd : Nat := 0xC80000000

/-- First byte of the LPDDR5X data range. -/
def lpddrBase : Nat := 0x10000000000

/-- One past the LPDDR5X data range. -/
def lpddrEnd : Nat := 0x17000000000

/-- Instruction memory of quire 0. -/
def imemBase : Nat := 0x20000000000

/-- Accumulator window of unit 0. -/
def windowBase : Nat := 0x20100000000

/-- First byte of the colophon area. -/
def colophonBase : Nat := 0x20200000000

/-- First byte of the mirror ring area. -/
def mirrorBase : Nat := 0x20300000000

/-- The device areas are views of the device area of LPDDR5X (R313). -/
def canon (a : Nat) : Nat :=
  if colophonBase ≤ a && a < colophonBase + 0x4000000 then deviceArea + (a - colophonBase)
  else if mirrorBase ≤ a && a < mirrorBase + 0x3C000000 then deviceArea + 0x4000000 + (a - mirrorBase)
  else a

/-- n bytes from a lie in [lo, hi). -/
def within (lo hi a n : Nat) : Bool := decide (lo ≤ a) && decide (a + n ≤ hi)

/-- Two spans share a byte. -/
def meets (a n b m : Nat) : Bool := decide (a < b + m) && decide (b < a + n) && decide (0 < n) && decide (0 < m)

def inSram (a n : Nat) : Bool := within 0 sramEnd a n

/-- The general range (R309): what LPDDR5X means as an operand range (R304). -/
def State.inGeneral (s : State) (a n : Nat) : Bool := within lpddrBase s.stagingBase a n

/-- SRAM tiers or the general range. -/
def State.inData (s : State) (a n : Nat) : Bool := inSram a n || s.inGeneral a n

/-- Store of Table 13.6 that backs a device address. -/
def storeOf (a : Nat) : Nat :=
  let a := canon a
  if a < sramEnd then 1
  else if lpddrBase ≤ a && a < lpddrEnd then 2
  else if imemBase ≤ a && a < imemBase + 4 * 0x800000 then 3
  else 0

/-- Tier of an SRAM address (R305). -/
def tierOf (a : Nat) : Nat :=
  let q := a / 0x320000000
  let l := (a - q * 0x320000000) / 64
  4 * q + (l / 32) % 4

/-- LPDDR5X device of an address (R308). -/
def deviceOf (a : Nat) : Nat := (a - lpddrBase) / 4096 % 32

/-! ### The symbol code (R316 to R319) -/

/-- Symbols of a 144-bit pattern that are not zero. -/
def symbolsHit (p : Nat) : Nat := ((List.range 36).filter (fun k => decide (p / 16 ^ k % 16 ≠ 0))).length

/-- What a reader gets of a stored word. -/
inductive WordRead where
  | clean (data : Nat)
  | corrected (data : Nat)
  | bad
  deriving DecidableEq, Repr

/-- The last row of Table 13.4: reported; passed unseen, with the stored data bits; or taken as a single-symbol error, with
the data bits of the word so altered, which are not the written ones. Data bits are symbols 0 to 31. -/
def multiRead (data pattern x : Nat) : WordRead :=
  let altered := (data ^^^ pattern ^^^ ((x / 108 % 15 + 1) * 16 ^ (x / 3 % 36))) % 2 ^ 128
  match x % 3 with
  | 0 => .bad
  | 1 => .clean ((data ^^^ pattern) % 2 ^ 128)
  | _ => if altered = data then .bad else .corrected altered

/-- Decode a word written as `data` with an error pattern over its 144 stored bits (Table 13.4). -/
def codeRead (data pattern : Nat) : WordRead :=
  match symbolsHit pattern with
  | 0 => .clean data
  | 1 => .corrected data
  | 2 => .bad
  | _ => multiRead data pattern (Config.multiSymbol data pattern)

/-- The pattern of a poisoned word: check symbols 32 and 33 inverted (R318). -/
def poisonPattern : Nat := 0xFF * 2 ^ 128

/-- Sources of an error log record (Table 13.6). -/
inductive ReadSource where
  | scrubber | unit | fetch | frame | pool | host
  deriving DecidableEq, Repr

def ReadSource.code : ReadSource → Nat
  | .scrubber => 1 | .unit => 2 | .fetch => 3 | .frame => 4 | .pool => 5 | .host => 6

/-- Log an uncorrectable read (Table 13.6, R319). -/
def State.logError (s : State) (address : Nat) (src : ReadSource) (store unit : Nat) : State :=
  if s.mem.errorLog.length < 256 then
    { s with mem := { s.mem with errorLog := s.mem.errorLog ++
        [s.clock.stitch % 2 ^ 64 * 2 ^ 64 + address % 2 ^ 48 * 2 ^ 16 + src.code * 2 ^ 12 + store * 2 ^ 8 +
          unit % 256] } }
  else s.idxBump 0x7041 0 31 0 1

/-- Count a corrected or an uncorrectable read of a store (R316, Table 13.7). -/
def State.countRead (s : State) (bad : Bool) (store address : Nat) : State :=
  match store with
  | 1 => s.count (if bad then 0x7002 else 0x7001) (tierOf address) 1
  | 2 => s.count (if bad then 0x7004 else 0x7003) (deviceOf address) 1
  | 3 => s.idxBump (if bad then 0x7007 else 0x7006) 0 63 32 1
  | _ => s.idxBump (if bad then 0x7007 else 0x7006) 0 31 0 1

/-- Account for one word read. -/
def State.accountRead (s : State) (r : WordRead) (src : ReadSource) (store address unit : Nat) : State :=
  match r with
  | .clean _ => s
  | .corrected _ => s.countRead false store address
  | .bad => (s.countRead true store address).logError address src store unit

/-! ### Device memory -/

/-- One byte of device memory as written; an unlisted byte reads 0 (log entry 4). The colophon's bytes are
those of Table 8.4. -/
def State.loadByte (s : State) (a : Nat) : Byte :=
  let a := canon a
  if s.binding.phase ≠ 0 && deviceArea ≤ a && a < deviceArea + s.colophonSize then s.colophonByte (a - deviceArea)
  else fget 0 s.mem.cells a

/-- Error pattern of the word at 16 * w. -/
def State.pattern (s : State) (w : Nat) : Nat := fget 0 s.mem.errors (canon (16 * w) / 16)

/-- The 16 bytes of a word as written. -/
def State.wordBytes (s : State) (w : Nat) : Bytes := (List.range 16).map (fun i => s.loadByte (16 * w + i))

/-- What the code makes of a word of device memory. -/
def State.wordRead (s : State) (w : Nat) : WordRead :=
  if s.pattern w = 0 then .clean (leNat (s.wordBytes w)) else codeRead (leNat (s.wordBytes w)) (s.pattern w)

/-- Some word of n bytes from a is uncorrectable. -/
def State.spanBad (s : State) (a n : Nat) : Bool :=
  (List.range (if n = 0 then 0 else (a + n - 1) / 16 - a / 16 + 1)).any (fun i => s.wordRead (a / 16 + i) == .bad)

/-- Read one word through the code: what the reader gets, as bytes. -/
def State.readWord (s : State) (w : Nat) (src : ReadSource) (unit : Nat) : State × Bytes × Bool :=
  let data := s.wordBytes w
  let a := canon (16 * w)
  let r := s.wordRead w
  let s := s.accountRead r src (storeOf a) a unit
  let x := if storeOf a = 2 then s.crosses else (0, s)
  if x.1 ≠ 0 then (x.2, leBytes 16 (Config.crossedWord x.2.freshCount), false)
  else match r with
    | .clean d => (x.2, leBytes 16 d, false)
    | .corrected d => (x.2, leBytes 16 d, false)
    | .bad => (x.2, data, true)

/-- Read k words from word w: bytes, and the address of the first uncorrectable word. -/
def State.readWords (s : State) (src : ReadSource) (unit : Nat) : Nat → Nat → Bytes → Option Nat → State × Bytes × Option Nat
  | 0, _, acc, bad => (s, acc, bad)
  | k + 1, w, acc, bad =>
    let r := s.readWord w src unit
    State.readWords r.1 src unit k (w + 1) (acc ++ r.2.1) (match bad with
      | some a => some a
      | none => if r.2.2 then some (16 * w) else none)

/-- Read n bytes from address a. -/
def State.readMem (s : State) (a n : Nat) (src : ReadSource) (unit : Nat) : State × Bytes × Option Nat :=
  if n = 0 then (s, [], none)
  else
    let w := a / 16
    let r := s.readWords src unit ((a + n - 1) / 16 - w + 1) w [] none
    (r.1, (r.2.1.drop (a % 16)).take n, r.2.2)

/-- Set one byte, keeping the canonical form. -/
def Memory.setByte (m : Memory) (a : Nat) (b : Byte) : Memory := { m with cells := fset 0 m.cells (canon a) b }

/-- Set a run of bytes. -/
def Memory.setBytes (m : Memory) (a : Nat) : Bytes → Memory
  | [] => m
  | b :: bs => Memory.setBytes (m.setByte a b) (a + 1) bs

/-- Set the error pattern of a word. -/
def Memory.setPattern (m : Memory) (w p : Nat) : Memory := { m with errors := fset 0 m.errors (canon (16 * w) / 16) p }

/-- The state regions: weight-set buffers and memory regions of kinds 0x01 to 0x03 (R393). -/
def State.inStateRegion (s : State) (a : Nat) : Bool :=
  s.stash.sets.any (fun e => meets a 16 e.2.buffer0 e.2.size || (e.2.kind ≥ 3 && meets a 16 e.2.buffer1 e.2.size)) ||
    s.binding.regions.any (fun r => r.kind ≤ 3 && meets a 16 r.address r.size)

/-- While the leading folio mirrors its writes (phases 0x02 and 0x03), each word written into a state region
is noted for the copy stream (R395). -/
def State.noteMirror (s : State) (w : Nat) (data : Bytes) : State :=
  if s.idx 0x8010 0 = 1 && (s.proof.phase = 2 || s.proof.phase = 3) && s.inStateRegion (16 * w) then
    { s with proof := { s.proof with mirror := s.proof.mirror ++ [(16 * w, data)] } }
  else s

/-- Write bytes inside one word, from offset off: whole words take a fresh code, others are merged (R317);
a merge whose read is uncorrectable stores poison (R318). A write that is lost between CORE and MEM stores nothing (R361). -/
def State.writeWord (s : State) (w off : Nat) (data : Bytes) (unit : Nat) : State :=
  let x := if storeOf (16 * w) = 2 then s.crosses else (0, s)
  let s := x.2
  if x.1 = 1 then s
  else if off = 0 && data.length = 16 then
    State.noteMirror { s with mem := (s.mem.setBytes (16 * w) data).setPattern w 0 } w data
  else
    let r := s.readWord w .unit unit
    let merged := patch r.2.1 off data
    let s := r.1
    State.noteMirror
      { s with mem := (s.mem.setBytes (16 * w) merged).setPattern w (if r.2.2 then poisonPattern else 0) } w merged

/-- Write bytes from word w, offset off; k bounds the words touched. -/
def State.writeWords (s : State) (unit : Nat) : Nat → Nat → Nat → Bytes → State
  | 0, _, _, _ => s
  | k + 1, w, off, data =>
    let here := data.take (16 - off)
    if here.isEmpty then s
    else State.writeWords (s.writeWord w off here unit) unit k (w + 1) 0 (data.drop (16 - off))

/-- Write bytes from address a. -/
def State.writeMem (s : State) (a : Nat) (data : Bytes) (unit : Nat) : State :=
  s.writeWords unit (data.length / 16 + 2) (a / 16) (a % 16) data

/-- Store n bytes as poisoned words (R318). -/
def State.poisonMem (s : State) (a n : Nat) : State :=
  (List.range (if n = 0 then 0 else (a + n - 1) / 16 - a / 16 + 1)).foldl
    (fun s i => { s with mem := s.mem.setPattern (a / 16 + i) poisonPattern }) s

/-- Write an item's bytes from address a, and what the write port then finds stored there (R322, step 3). -/
def State.writeBack (s : State) (a : Nat) (data : Bytes) (unit : Nat) : State × Bytes :=
  let t := s.writeMem a data unit
  (t, (List.range data.length).map (fun i => t.loadByte (a + i)))

/-- The write port compares the check of what it stored with the one that the item carries; where they differ every word of
the item becomes poison (R318, R322). `spans`: where the item's bytes lie. -/
def State.checkStored (s : State) (spans : List (Nat × Nat)) (stored carried : Bytes) : State × Bool :=
  if crc32c stored = crc32c carried then (s, true) else (spans.foldl (fun s e => State.poisonMem s e.1 e.2) s, false)

/-- Set a span to zero bytes with fresh codes, dropping its listed bytes (R195, R197). -/
def State.clearMem (s : State) (a n : Nat) : State :=
  { s with mem := { s.mem with
      cells := fkeep (fun k => !(decide (a ≤ k) && decide (k < a + n))) s.mem.cells,
      errors := fkeep (fun k => !(decide (a ≤ 16 * k) && decide (16 * k < a + n))) s.mem.errors } }

/-- An aligned little-endian 64-bit word of memory as the device's own bookkeeping reads it through the code; an uncorrectable
word is read as written, and these reads are not counted (log entry 2). -/
def State.peek64 (s : State) (a : Nat) : Nat :=
  (match s.wordRead (a / 16) with
    | .clean d => d
    | .corrected d => d
    | .bad => leNat (s.wordBytes (a / 16))) / 256 ^ (a % 16) % 2 ^ 64

/-- Write a little-endian 64-bit word. -/
def State.poke64 (s : State) (a v : Nat) : State := s.writeMem a (leBytes 8 v) 0xFF

/-! ### Accumulators (R66, R312) -/

/-- Key of an accumulator entry. -/
def accKey (u r c : Nat) : Nat := 2 ^ 20 * u + 256 * r + c

/-- An ACC36 entry; +0 at reset (R66). -/
def State.acc (s : State) (u r c : Nat) : Nat := fget 0x400000000 s.mem.accumulators (accKey u r c)

def State.setAcc (s : State) (u r c v : Nat) : State :=
  { s with mem := { s.mem with accumulators := fset 0x400000000 s.mem.accumulators (accKey u r c) v } }

/-- The poison bit of an accumulator row (R97). -/
def State.rowPoison (s : State) (u r : Nat) : Bool := fget false s.mem.poison (4096 * u + r)

def State.setRowPoison (s : State) (u r : Nat) (b : Bool) : State :=
  { s with mem := { s.mem with poison := fset false s.mem.poison (4096 * u + r) b } }

/-- An address in the accumulator window of a unit: unit, row, column (R312). -/
def windowAt (a : Nat) : Option (Nat × Nat × Nat) :=
  if windowBase ≤ a && a < windowBase + 0x30 * 0x800000 then
    let o := a - windowBase
    some (o / 0x800000, o % 0x800000 / 2048, o % 2048 / 8)
  else none

/-! ### Leaves (R271) -/

/-- On-die leaves: indices 0 to 393,215. -/
def onDieLeaves : Nat := 0x60000

/-- First external handle: bit 31 set, index 0. -/
def externalBase : Nat := 0x80000000

def isExternal (h : Nat) : Bool := bit h 31

/-- A handle as the pool decodes it: bits [30:28] ignored, the index modulo its list's leaf count (R271). -/
def State.handle (s : State) (h : Nat) : Nat :=
  if isExternal h then externalBase + h % 2 ^ 28 % s.switch.externalSize else h % 2 ^ 28 % onDieLeaves

/-- Device address of an external leaf. -/
def State.leafAddress (s : State) (h : Nat) : Nat := s.overflowBase + 256 * (h - externalBase)

/-- The bytes of a leaf as written. -/
def State.leafBytes (s : State) (h : Nat) : Bytes :=
  if isExternal h then (List.range 256).map (fun i => s.loadByte (s.leafAddress h + i))
  else slice (fget [] s.switch.leaves h) 0 256

/-- Bytes per FABRIC cycle of the pool's share of LPDDR5X: 3/8 of 2.73 TB/s at 1.25 GHz (R285). -/
def shareRate : Nat := 819

/-- Bytes that the pool has moved to and from LPDDR5X in the running window (log entry 48). -/
def State.shareNow (s : State) : Nat :=
  if s.switch.shareUsed.1 = s.now / max 1 Config.shareWindow then s.switch.shareUsed.2 else 0

/-- The pool's external share is not exhausted: another leaf fits (R277, R285). -/
def State.shareOpen (s : State) : Bool := decide (s.shareNow + 256 ≤ shareRate * max 1 Config.shareWindow)

/-- The pool moves n bytes to or from LPDDR5X. -/
def State.noteShare (s : State) (n : Nat) : State :=
  { s with switch := { s.switch with shareUsed := (s.now / max 1 Config.shareWindow, s.shareNow + n) } }

/-- What the code makes of a 16-byte word of an on-die leaf. -/
def State.leafWordRead (s : State) (h w : Nat) : WordRead :=
  let data := leNat (slice (fget [] s.switch.leaves h) (16 * w) 16)
  let p := fget 0 s.mem.leafErrors (16 * h + w)
  if p = 0 then .clean data else codeRead data p

/-- Read one 16-byte word of an on-die leaf through the code. -/
def State.readLeafWord (s : State) (h w : Nat) (src : ReadSource) (unit : Nat) : State × Bytes × Bool :=
  let here := slice (fget [] s.switch.leaves h) (16 * w) 16
  let r := s.leafWordRead h w
  let s := s.accountRead r src 4 h unit
  match r with
  | .clean d => (s, leBytes 16 d, false)
  | .corrected d => (s, leBytes 16 d, false)
  | .bad => (s, here, true)

/-- Read the first n bytes of a leaf through the code; whether a word was uncorrectable. -/
def State.readLeaf (s : State) (h n : Nat) (src : ReadSource) (unit : Nat) : State × Bytes × Bool :=
  if isExternal h then
    let r := (s.noteShare n).readMem (s.leafAddress h) n src unit
    (r.1, r.2.1, r.2.2.isSome)
  else
    let r := (List.range (ceilDiv n 16)).foldl (fun acc w =>
      let x := State.readLeafWord acc.1 h w src unit
      (x.1, acc.2.1 ++ x.2.1, acc.2.2 || x.2.2)) (s, [], false)
    (r.1, r.2.1.take n, r.2.2)

/-- Set the error pattern of a leaf's word. -/
def State.setLeafPattern (s : State) (h w p : Nat) : State :=
  { s with mem := { s.mem with leafErrors := fset 0 s.mem.leafErrors (16 * h + w) p } }

/-- Write bytes into a leaf from offset off: whole words take a fresh code, others are merged (R317, R318). -/
def State.writeLeaf (s : State) (h off : Nat) (data : Bytes) : State :=
  if isExternal h then (s.noteShare data.length).writeMem (s.leafAddress h + off) data 0xFF
  else
    let s := (List.range 16).foldl (fun s w =>
      if off + data.length ≤ 16 * w || 16 * w + 16 ≤ off then s
      else if off ≤ 16 * w && 16 * w + 16 ≤ off + data.length then State.setLeafPattern s h w 0
      else
        let r := State.readLeafWord s h w .pool 0xFF
        State.setLeafPattern r.1 h w (if r.2.2 then poisonPattern else 0)) s
    { s with switch := { s.switch with
        leaves := fset [] s.switch.leaves h (patch (fget [] s.switch.leaves h) off data) } }

/-! ### Free values -/

/-- The number of the next draw of a free value, and the state past it (log entry 2). -/
def State.draw (s : State) : Nat × State := (s.freshCount, { s with freshCount := s.freshCount + 1 })

end Sys2Proof.Machine
end

