-- ==== Sys2Proof/Machine/Operands.lean ====
section
/-!
DEFINITION. Sys2Proof/Machine/Operands.lean: the fields of instruction words (Tables 6.2, 6.4, 6.7, 6.9, 6.10, 6.12 to 6.14),
loop-nest descriptors (Table 6.6, R151 to R153), the units (Table 6.3), and the halts a check can give.
-/
namespace Sys2Proof.Machine

/-! ### Units (R83, R141) -/

/-- Recto or Verso unit. -/
def isArray (u : Nat) : Bool := decide (u < 0x30)

/-- Recto unit: it has a row gate (R84). -/
def isRecto (u : Nat) : Bool := decide (u < 0x10)

def isVector (u : Nat) : Bool := decide (0x40 ≤ u) && decide (u < 0x80)

def isSlice (u : Nat) : Bool := decide (0x80 ≤ u) && decide (u < 0x84)

def isStash (u : Nat) : Bool := u == 0x88

def isCopy (u : Nat) : Bool := decide (0x90 ≤ u) && decide (u < 0x94)

/-- Recto units present (0x5001.00). -/
def State.rectoMask (s : State) : Nat := if s.dev.gradeB then 0x7777 else 0xFFFF

/-- Verso units present (0x5002.00). -/
def State.versoMask (s : State) : Nat := if s.dev.gradeB then 0x3F3F3F3F else 0xFFFFFFFF

/-- The unit exists in this device (Table 6.3, R83). -/
def State.present (s : State) (u : Nat) : Bool :=
  if u < 0x10 then bit s.rectoMask u
  else if u < 0x30 then bit s.versoMask (u - 0x10)
  else isVector u || isSlice u || isStash u || isCopy u

/-- The unit is of the kind that Table 6.1 gives for the opcode. -/
def kindFits (opcode u : Nat) : Bool :=
  match opcode / 16 with
  | 2 => isArray u
  | 3 => isVector u
  | 4 => isStash u
  | 5 => isSlice u
  | 6 => isCopy u
  | _ => false

/-- The quire a unit belongs to. -/
def quireOf (u : Nat) : Nat :=
  if u < 0x10 then u / 4
  else if u < 0x30 then (u - 0x10) / 8
  else if u < 0x80 then (u - 0x40) / 16
  else u % 16 % 4

/-! ### Descriptors (Table 6.6) -/

/-- Level count. -/
def dLevels (d : Nat) : Nat := bits d 122 120

/-- Trip count of a level. -/
def dTrip (d l : Nat) : Nat := if l < 5 then bits d (24 * l + 23) (24 * l) else bits d 151 128

/-- Generator enable. -/
def dOn (d g : Nat) : Bool := bit d (123 + g)

/-- First bit of a generator's two words. -/
def dGen (g : Nat) : Nat := 128 * (2 + 2 * g)

/-- Base. -/
def dBase (d g : Nat) : Nat := bits d (dGen g + 47) (dGen g)

/-- Pitch, in 64-byte units. -/
def dPitch (d g : Nat) : Nat := bits d (dGen g + 63) (dGen g + 48)

/-- Stride of a level, signed. -/
def dStride (d g l : Nat) : Int :=
  let o := dGen g
  toSigned 32 (if l = 0 then bits d (o + 95) (o + 64)
    else if l = 1 then bits d (o + 127) (o + 96)
    else bits d (o + 128 + 32 * (l - 2) + 31) (o + 128 + 32 * (l - 2)))

/-- Both words of a generator are zero. -/
def dGenZero (d g : Nat) : Bool := bits d (dGen g + 255) (dGen g) == 0

/-- Iterations of levels a to b - 1. -/
def dTrips (d a b : Nat) : Nat := ((List.range b).drop a).foldl (fun n l => n * dTrip d l) 1

/-- Iterations of the whole nest: none with level count 0 or a zero trip count (R151). -/
def dCount (d : Nat) : Nat := if dLevels d = 0 then 0 else dTrips d 0 (dLevels d)

/-- Index of a level at iteration n (R152). -/
def dIndex (d n l : Nat) : Nat := n / dTrips d 0 l % dTrip d l

/-- A generator's value at iteration n of a nest with p's levels (an auxiliary descriptor steps with the primary's
indices, R156). -/
def dAddr (p d g n : Nat) : Int :=
  (List.range (dLevels p)).foldl (fun a l => a + (dIndex p n l : Nat) * dStride d g l) (dBase d g : Int)

/-- The span of R153: lowest and one past the highest. -/
def dSpan (p d g : Nat) (extent : Nat) : Int × Int :=
  let steps := (List.range (dLevels p)).map (fun l => ((dTrip p l : Int) - 1) * dStride d g l)
  let lo := steps.foldl (fun a x => if x < 0 then a + x else a) (dBase d g : Int)
  let hi := steps.foldl (fun a x => if x < 0 then a else a + x) (dBase d g : Int)
  (lo, hi + extent)

/-! ### Halts (R143, R181, Table 7.6) -/

/-- A halt condition: reason, detail word, generator field. -/
structure Halt where
  reason : Nat
  detail : Nat
  generator : Nat
  deriving DecidableEq, Repr

/-- A halt that names no generator. -/
def halt (reason detail : Nat) : Option Halt := some ⟨reason, detail % 2 ^ 64, 0xF⟩

/-- A halt that names a generator: 0 to 3 primary, 4 to 7 auxiliary. -/
def haltG (reason : Nat) (detail : Int) (g : Nat) : Option Halt := some ⟨reason, ofSigned 64 detail, g⟩

/-- A halt when a condition holds. -/
def haltIf (b : Bool) (h : Option Halt) : Option Halt := if b then h else none

/-- The first halt of a list in the order of R143. -/
def firstHalt : List (Option Halt) → Option Halt
  | [] => none
  | some h :: _ => some h
  | none :: t => firstHalt t

/-- Lowest set bit of a word within bits [hi:lo], as a position. -/
def lowestIn (w hi lo : Nat) : Option Nat :=
  ((List.range (hi + 1 - lo)).map (· + lo)).find? (fun i => bit w i)

/-- A reserved field that must be zero (R15): the position of its lowest set bit. -/
def reservedAt (w hi lo : Nat) : Option Nat := lowestIn w hi lo

/-- A reserved value of a field: the position of the field's lowest bit (R138). -/
def reservedValue (b : Bool) (lo : Nat) : Option Nat := if b then some lo else none

/-- The halt 0x02 of the lowest offending position (Table 7.6; the lowest of several is DEDUCED, log entry 20). -/
def reservedHalt (ps : List (Option Nat)) : Option Halt :=
  match ps.filterMap (fun p => p) with
  | [] => none
  | p :: t => halt 0x02 (t.foldl min p)

/-- The descriptor halt 0x06: descriptor number and level. -/
def descHalt (number level : Nat) : Option Halt := halt 0x06 (number * 2 ^ 56 + level)

/-- The rules of R151 that hold for every descriptor: which level breaks one. -/
def dRules (d : Nat) (auxiliary : Bool) : Option Nat :=
  if bit d 127 || bits d 255 152 ≠ 0 then some 0xFF
  else if dLevels d = 7 then some 0xFF
  else if auxiliary then
    (match (List.range 6).find? (fun l => dTrip d l ≠ 0) with
      | some l => some l
      | none => if dLevels d ≠ 0 then some 0xFF
        else if (List.range 4).any (fun g => !dOn d g && !dGenZero d g) then some 0xFF else none)
  else
    match (List.range 6).find? (fun l => decide (dLevels d ≤ l) &&
        (dTrip d l ≠ 0 || (List.range 4).any (fun g => dStride d g l ≠ 0))) with
    | some l => some l
    | none => if (List.range 4).any (fun g => !dOn d g && !dGenZero d g) then some 0xFF else none

/-- What a command asks of one generator: required, forbidden. -/
structure GenRole where
  required : Bool
  pitch : Bool               -- the pitch has a role
  deriving DecidableEq, Repr

/-- Roles of the four generators: enabled exactly when required, and a pitch only where it has a role (R151). -/
def dRoles (d : Nat) (roles : List GenRole) : Option Nat :=
  if (List.range 4).any (fun g =>
      let r := roles.getD g ⟨false, false⟩
      dOn d g != r.required || (!r.pitch && dPitch d g ≠ 0)) then some 0xFF else none

/-- The level of the first trip count above a limit. -/
def dTripLimit (d l limit : Nat) : Option Nat := if dTrip d l > limit then some l else none

/-- A misaligned base or stride (R153): the value. -/
def dMisaligned (p d g align : Nat) : Option Int :=
  if dBase d g % align ≠ 0 then some (dBase d g : Int)
  else match (List.range (dLevels p)).find? (fun l => decide (1 < dTrip p l) && dStride d g l % (align : Int) ≠ 0) with
    | some l => some (dStride d g l)
    | none => none

/-- The alignment halt of a generator. -/
def alignHalt (p d g align field : Nat) : Option Halt :=
  match dMisaligned p d g align with
  | some v => haltG 0x07 v field
  | none => none

/-- A span that leaves [lo, hi) (R153): the halt names the span's low end (DEDUCED, log entry 21). -/
def rangeHalt (span : Int × Int) (ok : Bool) (field : Nat) : Option Halt :=
  haltIf (!ok) (haltG 0x03 span.1 field)

/-- A span inside the SRAM tiers. -/
def spanSram (x : Int × Int) : Bool := decide (0 ≤ x.1) && decide (x.2 ≤ (sramEnd : Int))

/-- A span inside the SRAM tiers or the general LPDDR5X range (R304, R309). -/
def State.spanData (s : State) (x : Int × Int) : Bool :=
  spanSram x || (decide ((lpddrBase : Int) ≤ x.1) && decide (x.2 ≤ (s.stagingBase : Int)))

/-- A span that meets [a, a + n). -/
def spanMeets (x : Int × Int) (a n : Nat) : Bool :=
  decide (0 < n) && decide (x.1 < ((a + n : Nat) : Int)) && decide ((a : Int) < x.2)

/-- A span that meets a master-weight or moment region (R126). -/
def State.spanForbidden (s : State) (x : Int × Int) : Bool :=
  s.binding.regions.any (fun r => (r.kind == 1 || r.kind == 2) && spanMeets x r.address r.size)

/-- A span in the ranges that a command of the vector units, slices and copy engines may address: data, and no master-weight or
moment region (R153, log entry 43). -/
def State.spanOpen (s : State) (x : Int × Int) : Bool := s.spanData x && !s.spanForbidden x

/-- A span that meets a weight-set buffer (R127). -/
def State.spanWeights (s : State) (x : Int × Int) : Bool :=
  s.stash.sets.any (fun e => e.2.kind ≠ 0 &&
    (spanMeets x e.2.buffer0 e.2.size || (e.2.kind == 3 && spanMeets x e.2.buffer1 e.2.size)))

/-! ### Instruction words (Tables 6.2 and 6.4) -/

def wOp (w : Nat) : Nat := bits w 127 120
def wRd (w : Nat) : Nat := bits w 119 115
def wRa (w : Nat) : Nat := bits w 114 110
def wRb (w : Nat) : Nat := bits w 109 105
def wSub (w : Nat) : Nat := bits w 104 97
def wAux (w : Nat) : Nat := bits w 95 64
def wImm (w : Nat) : Nat := bits w 63 0

/-- The opcodes of Table 6.1. -/
def opcodes : List Nat :=
  [0x00, 0x01, 0x02, 0x03, 0x04, 0x05, 0x06, 0x07, 0x08, 0x09, 0x0A, 0x0B, 0x0C, 0x0D, 0x0E, 0x0F, 0x10, 0x11,
   0x20, 0x21, 0x30, 0x31, 0x40, 0x41, 0x42, 0x43, 0x50, 0x51, 0x60, 0x61]

/-- The fields of a command header after register lookup (R140). -/
structure Header where
  unit : Nat
  microBatch : Nat           -- 0xFFFF_FFFF is none
  desc : Nat
  deriving DecidableEq, Repr

/-- Read a command header. -/
def header (x : Core) (w : Nat) : Header where
  unit := if bit w 111 then x.reg (bits w 116 112) % 256 else bits w 119 112
  microBatch := if bit w 110 then x.reg (bits w 109 105) % 2 ^ 32 else 0xFFFFFFFF
  desc := bits w 104 99

/-- Reserved parts of a command header (R140); `desc`: the command uses the descriptor field. -/
def headerReserved (w : Nat) (desc : Bool) : List (Option Nat) :=
  [reservedAt w 98 96, if desc then none else reservedAt w 104 99,
   if bit w 110 then none else reservedValue (bits w 109 105 ≠ 0) 105,
   if bit w 111 then reservedAt w 119 117 else none]

/-- The unit halt 0x05 (R141). -/
def State.unitHalt (s : State) (opcode u : Nat) : Option Halt :=
  haltIf (!(s.present u && kindFits opcode u)) (halt 0x05 u)

end Sys2Proof.Machine
end

