-- ==== Sys2Proof/Machine/CoreOps.lean ====
section
/-!
DEFINITION. Sys2Proof/Machine/CoreOps.lean: what all cores and commands share: the answer of a meaning, digest and completion
records (R184 to R186, R380), the halt record, halts and stops (R181, R182), and the fetch of an instruction (R177, R189 to R193).
-/
namespace Sys2Proof.Machine

/-- How every meaning ends: what fuses, ROM and manufacture fixed and the waiting commands stand as they were. -/
def State.ends (s t : State) : Out := .next { t with dev := s.dev, pending := s.pending }

/-! ### Commands -/

/-- A command of a core by serial. -/
def State.cmd (s : State) (core serial : Nat) : Option Cmd :=
  s.cores.cmds.find? (fun c => c.core == core && c.serial == serial)

/-- Replace a command. -/
def State.setCmd (s : State) (c : Cmd) : State :=
  { s with cores := { s.cores with
      cmds := s.cores.cmds.map (fun x => if x.core == c.core && x.serial == c.serial then c else x) } }

/-- Free a command's queue entry (R173). -/
def State.dropCmd (s : State) (core serial : Nat) : State :=
  { s with cores := { s.cores with cmds := s.cores.cmds.filter (fun x => !(x.core == core && x.serial == serial)) } }

/-- The commands that hold an entry of one queue, in queue order. -/
def State.queueOf (s : State) (core unit : Nat) : List Cmd :=
  s.cores.cmds.filter (fun c => c.core == core && c.unit == unit)

/-- A command that its unit has begun and not finished. -/
def Cmd.started (c : Cmd) : Bool := c.phase == .running

/-- A command that has not started: queued, or a CSTEP in its context's pending place (R253). -/
def Cmd.unstarted (c : Cmd) : Bool := c.phase == .queued || c.phase == .pendingPlace

/-- A command is run-ahead while a synchronization point before it is uncommitted (R177). -/
def State.heldCmd (s : State) (c : Cmd) : Bool := decide ((s.core c.core).syncDone < c.behind)

/-! ### Places and roles (R378, R379, R399) -/

/-- The role a command's sends obey: after handover, the former one until the core's first WAITC on the counter
(R399). -/
def State.sendRole (s : State) (c : Cmd) : Nat :=
  let r := s.idx 0x8010 0
  if s.proof.phase = 6 && r ≠ 0 then
    (match (s.core c.core).handBase with
      | some b => if b ≤ c.serial then r else 3 - r
      | none => 3 - r)
  else r

/-- The shadow builds and discards what its binding sends (R379). -/
def State.silentCmd (s : State) (c : Cmd) : Bool := s.sendRole c == 2

/-- The address a folio computes under: its place address in a proof pair, else its own (R378). -/
def State.place (s : State) : Nat := if s.idx 0x8010 0 ≠ 0 then s.proof.place else s.address

/-! ### Completion records -/

/-- The 64 bytes of Table 7.5. -/
def recordBytes (c : Cmd) (status cause item : Nat) (k : Counts) (skipped audited missed failed stitch cycle : Nat) : Bytes :=
  leBytes 8 (status * 2 ^ 56 + cause * 2 ^ 48 + c.unit * 2 ^ 40 + c.opcode * 2 ^ 32 + c.serial % 2 ^ 32) ++
    leBytes 8 (item * 2 ^ 32 + c.microBatch) ++
    leBytes 8 (k.saturated * 2 ^ 32 + k.flushed) ++ leBytes 8 (k.nan * 2 ^ 32 + k.invalid) ++
    leBytes 8 (min skipped (2 ^ 32 - 1) * 2 ^ 32 + min audited (2 ^ 32 - 1)) ++
    leBytes 8 (min missed (2 ^ 32 - 1) * 2 ^ 32 + min failed (2 ^ 32 - 1)) ++
    leBytes 8 stitch ++ leBytes 8 cycle

/-- The completion ring of a core is full (R185). -/
def State.ringFull (s : State) (c : Nat) : Bool :=
  let x := s.core c
  subMod 64 x.producer (s.peek64 (x.ringBase + 8)) == x.ringSize

/-- A summary record has been written: the count of Table 7.2 rises and the queue entry frees (R173). -/
def State.recordDone (s : State) (c serial unit : Nat) (summary : Bool) : State :=
  if summary then
    let x := s.core c
    (s.setCore c { x with completions := fset 0 x.completions unit ((fget 0 x.completions unit + 1) % 2 ^ 32) }).dropCmd c serial
  else s

/-- Write the record at the front of a core's waiting records, where its ring has room (R185); outside the clock limits it
may be lost or come twice (R361). -/
def State.writeRecord (s : State) (c : Nat) : State :=
  let x := s.core c
  match x.records with
  | [] => s
  | (serial, unit, summary, bytes) :: rest =>
    let k := s.crosses
    if s.ringFull c then s
    else if k.1 = 1 then (k.2.setCore c { x with records := rest }).recordDone c serial unit summary
    else
      let rest := if k.1 = 2 then (serial, unit, false, bytes) :: rest else rest
      let s := k.2.setCore c { x with records := rest, producer := (x.producer + 1) % 2 ^ 64 }
      let s := s.writeMem (x.ringBase + 64 + 64 * (x.producer % x.ringSize)) bytes 0xFF
      let s := s.poke64 x.ringBase ((x.producer + 1) % 2 ^ 64)
      s.recordDone c serial unit summary

/-- Write n waiting records while there is room. -/
def State.writeRecords (s : State) (c : Nat) : Nat → State
  | 0 => s
  | n + 1 => State.writeRecords (s.writeRecord c) c n

/-- Put a record into its core's order; without a ring it is taken as written at once (R186), and a tripped
device stores none that finds its ring full (R430). -/
def State.pushRecord (s : State) (c serial unit : Nat) (summary : Bool) (bytes : Bytes) : State :=
  let x := s.core c
  if x.ringSize = 0 then s.recordDone c serial unit summary
  else s.setCore c { x with records := x.records ++ [(serial, unit, summary, bytes)] }

/-- Insert a failed item by item number. -/
def insertFailed (f : Nat × Nat × Counts) : List (Nat × Nat × Counts) → List (Nat × Nat × Counts)
  | [] => [f]
  | g :: t => if f.1 ≤ g.1 then f :: g :: t else g :: insertFailed f t

/-- A command that writes item records (R184). -/
def hasItems (opcode : Nat) : Bool :=
  opcode == 0x21 || opcode == 0x50 || opcode == 0x51 || opcode == 0x60 || opcode == 0x61

/-- Finish a command (R184): its item records, its summary record, and the totals of the colophon (R205). The
summary's counters hold those of the items and enter the totals once (DEDUCED, log entry 22). -/
def State.finishCmd (s : State) (c : Cmd) (status cause : Nat) : State :=
  let failed := c.failed.foldl (fun l f => insertFailed f l) []
  let st := if failed.isEmpty then status else 1
  let ca := match failed with
    | [] => if status = 1 then cause else 0
    | f :: _ => f.2.1
  let squashed := st == 2
  let k := if squashed then Counts.zero else c.counts
  let skipped := if squashed then 0 else c.skipped
  let audited := if squashed then 0 else c.audited
  let missed := if squashed then 0 else c.mispredicted
  let c := { c with phase := .done, status := st, cause := ca }
  let s := s.setCmd c
  let s := failed.foldl (fun s f => State.pushRecord s c.core c.serial c.unit false
    (recordBytes c 1 f.2.1 f.1 f.2.2 0 0 0 0 s.clock.stitch s.coreCycle)) s
  let s := s.pushRecord c.core c.serial c.unit true
    (recordBytes c st ca 0xFFFFFFFF k skipped audited missed failed.length s.clock.stitch s.coreCycle)
  let s := s.writeRecords c.core (s.core c.core).records.length
  let s := s.colophonAdd 0x10 k.saturated
  let s := s.colophonAdd 0x18 k.flushed
  let s := s.colophonAdd 0x20 k.nan
  let s := s.colophonAdd 0x28 k.invalid
  let s := s.colophonAdd 0x30 skipped
  let s := s.colophonAdd 0x38 audited
  let s := s.colophonAdd 0x40 missed
  let s := s.colophonAdd 0x48 failed.length
  let s := ((s.count 0x5021 0 skipped).count 0x5022 0 audited).count 0x5023 0 missed
  let s := if st = 1 then s.colophonFlag 23 else s
  if squashed then ((s.colophonFlag 22).colophonAdd 0x50 1).count 0x5069 c.core 1 else s

/-! ### Halts and stops -/

/-- Squash one command of a halting core: a pending CSTEP frees its context's place (R253), a held start is no
longer held (R426). -/
def State.squash (s : State) (c : Cmd) : State :=
  let x := bits c.word 95 84
  let s := if c.phase = .pendingPlace then s.setCtx x { s.ctx x with pendingCmd := none } else s
  let s := { s with power := { s.power with held := s.power.held.filter (fun h => !(h.1 == c.core && h.2.1 == c.serial)) } }
  s.finishCmd { c with failed := [], counts := Counts.zero } 2 0

/-- Squash every command of a core that has not started, in queue order (R181, step 5). -/
def State.squashAll (s : State) (core : Nat) : State :=
  (s.cores.cmds.filter (fun c => c.core == core && c.unstarted)).foldl (fun s c => State.squash s c) s

/-- Instructions fetched after the oldest uncommitted synchronization point, the command of a stalled core among them (R142,
R177). -/
def Core.windowCount (x : Core) : Nat := x.window.length - 1 + b2n (x.stalled.isSome && !x.window.isEmpty)

/-- The run state's code (Table 7.4). -/
def CoreRun.code : CoreRun → Nat
  | .idle => 0 | .running => 1 | .ended => 2 | .halted => 3 | .stopped => 4

/-- Word 2 of the halt record; `extra`: the halting instruction counts into the window. -/
def haltWord2 (x : Core) (extra cycle : Nat) : Nat :=
  match x.window with
  | [] => cycle
  | e :: _ => e.pc * 2 ^ 32 + 2 ^ 31 + min (x.windowCount + extra) 63 * 2 ^ 20 + cycle

/-- What a halt and a stop share (R181, R182): the record's words, the abandoned points and SIGs, the squash. -/
def State.ceases (s : State) (c : Nat) (run : CoreRun) (reason unit opcode gen detail word mb extra : Nat) : State :=
  let x := s.core c
  let mine := s.cores.cmds.filter (fun k => k.core == c)
  let squashed := (mine.filter Cmd.unstarted).length
  let running := (mine.filter Cmd.started).length
  let rec0 := [reason * 2 ^ 56 + run.code * 2 ^ 48 + unit * 2 ^ 40 + opcode * 2 ^ 32 + gen * 2 ^ 28 + x.pc % 2 ^ 19,
    s.clock.stitch % 2 ^ 64, haltWord2 x extra s.coreCycle, detail, squashed * 2 ^ 32 + running,
    word % 2 ^ 64, word / 2 ^ 64, mb * 2 ^ 32]
  let s := s.setCore c { x with
    run := run, halt := rec0, window := [], sigs := [], stalled := none, refs := [], syncDone := x.syncIssued }
  s.squashAll c

/-- A core halts at its program counter (R181). -/
def State.haltCore (s : State) (c : Nat) (h : Halt) (word unit mb extra : Nat) : State :=
  s.ceases c .halted h.reason unit (wOp word) h.generator h.detail word mb extra

/-- Stop a running core (R182); a core that is not running does not change. -/
def State.stopCore (s : State) (c : Nat) : State :=
  if (s.core c).run = .running then s.ceases c .stopped 0 0 0 0xF 0 0 0xFFFFFFFF 0 else s

/-- Stop every core. -/
def State.stopCores (s : State) : State := (List.range 32).foldl (fun s c => State.stopCore s c) s

/-! ### Fetch -/

/-- Address of an instruction of a core's quire (R137, Table 13.1). -/
def instrAddress (c pc : Nat) : Nat := imemBase + c / 8 * 0x800000 + 16 * pc

/-- A principal core (R172). -/
def principal (c : Nat) : Bool := decide (c % 8 < 2)

/-- An index inside the core's fetch regions (R189). -/
def Core.inRegions (x : Core) (pc : Nat) : Bool := decide (pc < 2 ^ 19) && bit x.regions (pc / 8192)

/-- An END has entered the window: nothing is fetched after it (R178). -/
def Core.endSeen (x : Core) : Bool := x.window.any (fun e => e.point == some .endPoint)

/-- A fetch at the program counter: the core holds a reference on its region from then on (R191). -/
def Core.holdRegion (x : Core) : Core :=
  if x.refs.contains (x.pc / 8192) then x else { x with refs := x.refs ++ [x.pc / 8192] }

/-- Regions still referenced: those of the window, which begins behind its oldest point, and of the program counter (R177,
R191). -/
def Core.trimRefs (x : Core) : Core :=
  { x with refs := x.refs.filter (fun r => r == x.pc / 8192 || (x.window.drop 1).any (fun e => e.pc / 8192 == r)) }

/-- The core can take its next instruction: it runs, is not stalled, its window has room, and no load of the region
holds the fetch back (R142, R177, R178, R193). -/
def State.fetches (s : State) (c : Nat) : Bool :=
  let x := s.core c
  x.run == .running && x.stalled.isNone && !s.power.clocksStopped &&
    (x.window.isEmpty || decide (x.windowCount < 32)) && !x.endSeen &&
    (x.refs.contains (x.pc / 8192) || (fget (0, 0, 0) s.cores.regionLoading (64 * (c / 8) + x.pc / 8192)) == (0, 0, 0))

/-- An instruction of a core is run-ahead now (R177). -/
def Core.runAhead (x : Core) : Bool := decide (x.syncDone < x.syncIssued)

/-- The instruction word at a core's program counter, read through the code (R190). -/
def State.fetchWord (s : State) (c : Nat) : State × Nat × Bool :=
  let a := instrAddress c (s.core c).pc
  let r := s.readWord (a / 16) .fetch 0xFF
  (r.1, leNat r.2.1, r.2.2)

/-- After an executed instruction: it enters the window behind an uncommitted synchronization point or as one, and
the program counter moves (R177, R191). -/
def State.advance (s : State) (c word next : Nat) (point : Option SyncKind) : State :=
  let x := s.core c
  let entry : WinEntry := ⟨x.pc, point, x.serial, word⟩
  let x := { x with
    window := if x.window.isEmpty && point.isNone then [] else x.window ++ [entry]
    syncIssued := if point.isSome then x.syncIssued + 1 else x.syncIssued
    pc := next }
  s.setCore c x.trimRefs

/-- One instruction of a core: what its row does where the core takes its next instruction, the word reads, lies in
the core's regions and bears the row's opcode; else nothing happens (log entry 5). A fetch outside the regions halts
with 0x03 (R189). -/
def State.onInstr (s : State) (c opcode : Nat) (waits : Bool) (f : State → Nat → State) : State :=
  if !s.fetches c then s
  else if !(s.core c).inRegions (s.core c).pc then
    s.haltCore c ⟨0x03, (s.core c).pc, 0xF⟩ 0 0 0xFFFFFFFF (if (s.core c).window.isEmpty then 0 else 1)
  else
    let r := s.fetchWord c
    if r.2.2 || wOp r.2.1 ≠ opcode then s
    else if waits && (s.core c).runAhead then s.setCore c (s.core c).holdRegion
    else f (r.1.setCore c (r.1.core c).holdRegion) r.2.1

/-- Halt on a checked condition, else go on. -/
def State.orHalt (s : State) (c word unit mb : Nat) (h : Option Halt) (f : State → State) : State :=
  match h with
  | some x => s.haltCore c x word unit mb (if (s.core c).window.isEmpty then 0 else 1)
  | none => f s

end Sys2Proof.Machine
end

