-- ==== Sys2Proof/Machine/Compare.lean ====
section
/-!
DEFINITION. Sys2Proof/Machine/Compare.lean: the proof unit (R380 to R384): the samples of sensors it keeps, digest records,
their comparison, and the divergences it records.
-/
namespace Sys2Proof.Machine

/-! ### Who compares, and under which serial (R382, R385, R394, R397) -/

/-- The proof step counter is enabled (0x8040.00). -/
def State.proofing (s : State) : Bool := bit (s.idx 0x8040 0) 8

/-- The proof step counter's number. -/
def State.proofCounter (s : State) : Nat := s.idx 0x8040 0 % 256

/-- The pair is formed: the folio holds a role and an installed binding (R376, R385). -/
def State.pairActive (s : State) : Bool := s.idx 0x8010 0 ≠ 0 && s.binding.loaded && decide (3 ≤ s.binding.phase)

/-- Divergences are compared and recorded: not before phase 0x04 of proofing (R394), not when it is abandoned. -/
def State.recording (s : State) : Bool :=
  s.pairActive && (!s.proofing || (decide (4 ≤ s.proof.phase) && decide (s.proof.phase ≤ 6)))

/-- Comparison goes on: no binding mismatch has been seen (Table 17.4). -/
def State.comparing (s : State) : Bool := s.recording && !s.proof.mismatch

/-- The serial under which a command's items are compared: counted from the first command after the switch while
a proof step counter is enabled, none for commands before it (R397). -/
def State.digestSerial (s : State) (core serial : Nat) : Option Nat :=
  if s.proofing then
    (match (s.core core).proofBase with
      | some b => if b ≤ serial then some (serial - b) else none
      | none => none)
  else some serial

/-! ### Samples (R383) -/

/-- Four 16-bit fields, Q3 highest. -/
def packQuires (xs : List Nat) : Nat :=
  xs.getD 3 0 % 65536 * 2 ^ 48 + xs.getD 2 0 % 65536 * 2 ^ 32 + xs.getD 1 0 % 65536 * 2 ^ 16 + xs.getD 0 0 % 65536

/-- Word 5 of Table 17.5 now: the die temperatures of this stitch. -/
def State.sampleTemps (s : State) : Nat :=
  match s.power.history with
  | [] => 0
  | h :: _ => packQuires (h.1.map (ofSigned 16))

/-- Word 6 of Table 17.5 now: the lowest droop minimum of each quire over the samples kept. -/
def State.sampleDroops (s : State) : Nat :=
  match s.power.history with
  | [] => 0
  | _ => packQuires ((List.range 4).map (fun q =>
      s.power.history.foldl (fun m h => min m (h.2.getD q 0)) 65535))

/-! ### Divergence records (Table 17.5, R383, R384) -/

/-- Status and cause of one side, as word 4 holds them. -/
def sideStatus (d : Option Digest) : Nat :=
  match d with
  | none => 0xFF00
  | some x => b2n x.failed * 256 + x.cause

/-- Two records have one key. -/
def Digest.sameKey (a b : Digest) : Bool := a.core == b.core && a.serial == b.serial && a.item == b.item

/-- Note a divergence against the proof step its key belongs to, else the running one (R398). -/
def State.blameStep (s : State) (key : Option (Nat × Nat)) : State :=
  let late := match key with
    | none => none
    | some (core, serial) => s.proof.steps.findIdx? (fun b => decide (serial < b.1.getD core 0))
  match late with
  | some i => { s with proof := { s.proof with
      steps := s.proof.steps.modify i (fun b => (b.1, true)) } }
  | none => { s with proof := { s.proof with unclean := true } }

/-- The eight words of a divergence record; the activity shares are measurements (log entry 2). -/
def State.divergenceWords (s : State) (kind : Nat) (own other : Option Digest) : State × List Nat :=
  let key := match own, other with
    | some d, _ => (d.core, d.serial, d.item)
    | none, some d => (d.core, d.serial, d.item)
    | none, none => (0, 0, 0)
  let d0 := s.draw
  let d1 := d0.2.draw
  let d2 := d1.2.draw
  let lag := match own, other with
    | some a, some b => subMod 32 a.stitch b.stitch
    | _, _ => 0
  let unit := match own with
    | some a => a.unit * 2 ^ 47 + a.opcode * 2 ^ 39
    | none => 0
  let batch := match own with
    | some a => a.microBatch
    | none => 0xFFFFFFFF
  let check := fun (d : Option Digest) => match d with
    | some x => x.check
    | none => 0
  (d2.2, [s.clock.stitch % 2 ^ 64, kind * 2 ^ 60 + key.1 * 2 ^ 55 + unit + key.2.1,
    key.2.2 * 2 ^ 32 + batch, check own * 2 ^ 32 + check other,
    sideStatus own * 2 ^ 48 + sideStatus other * 2 ^ 32 + lag,
    match own with
      | some a => a.temps
      | none => s.sampleTemps,
    match own with
      | some a => a.droops
      | none => s.sampleDroops,
    Config.activityShare d0.1 % 65536 * 2 ^ 48 + Config.activityShare d1.1 % 65536 * 2 ^ 32 +
      Config.activityShare d2.1 % 65536 * 2 ^ 16 + (match own with
        | some a => a.step
        | none => s.clock.step) * 256])

/-- The field of 0x8022.00 that counts a kind. -/
def kindShift (kind : Nat) : Nat := if kind = 1 then 48 else if kind = 2 then 32 else if kind = 3 then 16 else 0

/-- Record one divergence, and stop a shadow's cores where the divergence action says so (R383, R384). -/
def State.diverge (s : State) (kind : Nat) (own other : Option Digest) : State :=
  let w := s.divergenceWords kind own other
  let s := w.1.blameStep (match own, other with
    | some d, _ => if kind = 4 || kind = 5 then none else some (d.core, d.serial)
    | none, some d => if kind = 4 || kind = 5 then none else some (d.core, d.serial)
    | none, none => none)
  let s := s.idxBump 0x8022 0 (kindShift kind + 15) (kindShift kind) 1
  let s := if s.proof.records.length < 256 then { s with proof := { s.proof with records := s.proof.records ++ [w.2] } }
    else s.idxBump 0x8021 0 31 0 1
  if s.idx 0x8014 0 = 1 && s.idx 0x8010 0 = 2 && (kind = 1 || kind = 2 || kind = 6) then s.stopCores else s

/-! ### Pending records and comparison (R382) -/

/-- Both sides' pending records. -/
def State.pendingRecords (s : State) : Nat := s.proof.own.length + s.proof.partner.length

/-- Compare a matched pair (Table 17.4). -/
def State.comparePair (s : State) (own other : Digest) : State :=
  let same := own.failed == other.failed && (if own.failed then own.cause == other.cause else own.check == other.check)
  if same then s.count 0x8016 0 1
  else if own.failed == other.failed && !own.failed then s.diverge 1 (some own) (some other)
  else s.diverge 2 (some own) (some other)

/-- A record enters the pending store, or meets its pair there; `mine`: it is the folio's own. -/
def State.takeDigest (s : State) (mine : Bool) (d : Digest) : State :=
  let side := if mine then s.proof.own else s.proof.partner
  let other := if mine then s.proof.partner else s.proof.own
  let dup := side.any d.sameKey || s.proof.seen.contains (mine, d.core, d.serial, d.item)
  if dup then (if mine then s.diverge 6 (some d) none else s.diverge 6 none (some d))
  else if !mine && s.proof.lagged.contains (d.core, d.serial, d.item) then s.idxBump 0x8023 0 31 0 1
  else match other.find? d.sameKey with
    | some e =>
      let p := s.proof
      let s := { s with proof := { p with
        own := p.own.filter (fun x => !x.sameKey d), partner := p.partner.filter (fun x => !x.sameKey d),
        seen := p.seen ++ [(true, d.core, d.serial, d.item), (false, d.core, d.serial, d.item)] } }
      if mine then s.comparePair d e else s.comparePair e d
    | none =>
      if 65536 ≤ s.pendingRecords then s.idxBump 0x8023 0 63 32 1
      else if mine then { s with proof := { s.proof with own := s.proof.own ++ [d] } }
      else { s with proof := { s.proof with partner := s.proof.partner ++ [d] } }

/-- A folio of a pair makes a digest record of an item that completed: it is sent with the frames of its stitch, and
compared (R380 to R382). -/
def State.digest (s : State) (c : Cmd) (item : Nat) (failed : Bool) (cause check : Nat) : State :=
  if !s.pairActive then s
  else match s.digestSerial c.core c.serial with
    | none => s
    | some n =>
      let d : Digest := ⟨c.core, n % 2 ^ 32, item, failed, if failed then cause else 0, if failed then 0 else check,
        s.clock.stitch, c.unit, c.opcode, c.microBatch, s.clock.step, s.sampleTemps, s.sampleDroops⟩
      let s := { s with proof := { s.proof with outbox := s.proof.outbox ++ [d] } }
      if s.comparing then s.takeDigest true d else s

/-- A record on the wire (Table 17.3). -/
def Digest.encode (d : Digest) : Bytes :=
  leBytes 16 (d.core * 2 ^ 123 + b2n d.failed * 2 ^ 122 + d.cause * 2 ^ 114 + d.serial * 2 ^ 64 + d.item * 2 ^ 32 + d.check)

/-- A partner's record as read, reported for a stitch. -/
def Digest.decode (b : Bytes) (stitch : Nat) : Digest :=
  let x := leNat b
  ⟨bits x 127 123, bits x 95 64, bits x 63 32, bit x 122, bits x 121 114, bits x 31 0, stitch, 0, 0, 0xFFFFFFFF, 0, 0, 0⟩

/-- LAG_EXPIRY: a record unmatched at the end of its lag bound is reported as kind 0x3 (R382). -/
def execLagExpiry (core : CoreId) (serial item : BitVec 32) (s : State) : Out :=
  let bound := s.idx 0x8013 0
  let due := fun (d : Digest) => d.core == core.val && d.serial == serial.toNat && d.item == item.toNat &&
    decide (d.stitch + bound ≤ s.clock.stitch)
  let note := fun (s : State) => { s with proof := { s.proof with
    lagged := s.proof.lagged ++ [(core.val, serial.toNat, item.toNat)] } }
  s.ends (if bound = 0 || !s.comparing then s
    else match s.proof.own.find? due with
      | some d => (note { s with proof := { s.proof with own := s.proof.own.erase d } }).diverge 3 (some d) none
      | none => (match s.proof.partner.find? due with
        | some d => (note { s with proof := { s.proof with partner := s.proof.partner.erase d } }).diverge 3 none (some d)
        | none => s))

end Sys2Proof.Machine
end

