-- ==== Sys2Proof/Machine/Pool.lean ====
section
/-!
DEFINITION. Sys2Proof/Machine/Pool.lean: the signature pool (R271 to R282): alloc, free and ref, the reserves, and the leaves
that a frame holds.
-/
namespace Sys2Proof.Machine

/-- Size of a list in leaves. -/
def State.listSize (s : State) (ext : Bool) : Nat := if ext then s.switch.externalSize else onDieLeaves

def State.leafList (s : State) (ext : Bool) : LeafList := if ext then s.switch.external else s.switch.onDie

def State.setLeafList (s : State) (ext : Bool) (l : LeafList) : State :=
  if ext then { s with switch := { s.switch with external := l } }
  else { s with switch := { s.switch with onDie := l } }

/-- Free leaves of a list: chain + size - fresh (R272). -/
def State.freeCount (s : State) (ext : Bool) : Nat :=
  (s.leafList ext).chain + s.listSize ext - (s.leafList ext).fresh

/-- The reference count of a leaf. -/
def State.leafCount (s : State) (h : Nat) : Nat := fget 0 s.switch.counts (s.handle h)

def State.setLeafCount (s : State) (h c : Nat) : State :=
  { s with
    switch := { s.switch with counts := fset 0 s.switch.counts (s.handle h) c }
    mem := { s.mem with poolErrors := fset false s.mem.poolErrors (s.handle h) false } }

/-- Keys of a list's head, chain count and fresh mark in the store of uncorrectable pool state. -/
def headKey (ext : Bool) : Nat := 2 ^ 32 + 4 * b2n ext
def chainKey (ext : Bool) : Nat := headKey ext + 1
def freshKey (ext : Bool) : Nat := headKey ext + 2

/-- A register or a count of the pool has been written. -/
def State.poolWritten (s : State) (k : Nat) : State :=
  { s with mem := { s.mem with poolErrors := fset false s.mem.poolErrors k false } }

/-- Set a bit of the pool status (0x4040.00). -/
def State.poolFlag (s : State) (b : Nat) : State :=
  if bit s.switch.poolStatus b then s
  else { s with switch := { s.switch with poolStatus := s.switch.poolStatus + 2 ^ b } }

/-- The pool reads a count or a register: an uncorrectable one is used as read, counted, logged and recorded in bit [30]
(R319). -/
def State.poolRead (s : State) (k address : Nat) : State :=
  if fget false s.mem.poolErrors k then (s.accountRead .bad .pool 4 address 0xFF).poolFlag 30 else s

/-- The stored bits of the first four bytes of a leaf. -/
def State.storedLink (s : State) (h : Nat) : Nat :=
  let p := if isExternal h then s.pattern (s.leafAddress h / 16) else fget 0 s.mem.leafErrors (16 * h)
  (leNat ((s.leafBytes h).take 4) ^^^ p) % 2 ^ 32

/-- The link word of a leaf; an uncorrectable one is used as stored and recorded in bit [30] (R272, R319). -/
def State.readLink (s : State) (h : Nat) : State × Nat :=
  let r := s.readLeaf (s.handle h) 4 .pool 0xFF
  if r.2.2 then (r.1.poolFlag 30, s.storedLink (s.handle h)) else (r.1, leNat r.2.1)

/-- alloc of R272. -/
def State.alloc (s : State) (ext : Bool) : State × Option Nat :=
  let l := s.leafList ext
  let s := s.poolRead (chainKey ext) l.head
  if l.chain > 0 then
    let r := (s.poolRead (headKey ext) l.head).readLink l.head
    let s := r.1.setLeafList ext { l with head := r.2, chain := l.chain - 1 }
    (((s.poolWritten (headKey ext)).poolWritten (chainKey ext)).setLeafCount l.head 1, some l.head)
  else
    let s := s.poolRead (freshKey ext) l.fresh
    if l.fresh < s.listSize ext then
      let h := l.fresh + (if ext then externalBase else 0)
      (((s.setLeafList ext { l with fresh := l.fresh + 1 }).poolWritten (freshKey ext)).setLeafCount h 1, some h)
    else (s, none)

/-- ref of R272. -/
def State.refLeaf (s : State) (h n : Nat) : State :=
  (s.poolRead (s.handle h) (s.handle h)).setLeafCount h ((s.leafCount h + n) % 256)

/-- free of R272; whether the leaf went back onto its list. -/
def State.freeLeaf (s : State) (h : Nat) : State × Bool :=
  let c := s.leafCount h
  let s := (s.poolRead (s.handle h) (s.handle h)).setLeafCount h ((c + 255) % 256)
  if c ≤ 1 then
    let ext := isExternal h
    let l := s.leafList ext
    let s := ((s.poolRead (headKey ext) l.head).poolRead (chainKey ext) l.head).writeLeaf (s.handle h) 0 (leBytes 4 l.head)
    (((s.setLeafList ext { l with head := h, chain := l.chain + 1 }).poolWritten (headKey ext)).poolWritten (chainKey ext), true)
  else (s, false)

/-- The reserve of a virtual channel VC4 to VC7 of a port (R275). -/
def State.reserve (s : State) (p v : Nat) : Nat := if v = 7 then 64 else bits (s.idx (0x4100 + v) p) 63 32

/-- Leaves charged to a port and virtual channel. -/
def Port.charge (x : Port) (v : Nat) : Nat := fget 0 x.charged v

/-- The outstanding reserve (R276). -/
def State.outstanding (s : State) : Nat :=
  (List.range 129).foldl (fun n p =>
    [4, 5, 6, 7].foldl (fun n v => n + (s.reserve p v - (s.port p).charge v)) n) 0

/-- A lossy frame, a lead leaf or a spilled item may take an on-die leaf (R276). -/
def State.onDieOpen (s : State) : Bool := decide (s.outstanding < s.freeCount false)

/-- Charge n leaves to an ingress port and virtual channel. -/
def State.chargePort (s : State) (p v n : Nat) : State :=
  let x := s.port p
  s.setPort p { x with charged := fset 0 x.charged v (x.charge v + n) }

/-- Return n credits of a port and virtual channel (R275, R334). -/
def State.creditFreed (s : State) (p v n : Nat) : State :=
  let x := s.port p
  s.setPort p { x with freed := fset 0 x.freed v ((fget 0 x.freed v + n) % 2 ^ 32) }

/-- Return n credits: leaves charged to this port and virtual channel were freed. -/
def State.creditReturn (s : State) (p v n : Nat) : State :=
  let x := s.port p
  (s.setPort p { x with charged := fset 0 x.charged v (x.charge v - n) }).creditFreed p v n

/-- Allocate a leaf for a lossy frame: on die where R276 allows, else external (R277). -/
def State.allocLossy (s : State) : State × Option Nat :=
  if s.onDieOpen then s.alloc false else s.alloc true

/-- Allocate k leaves, all or none: leaves taken before a failure are given back. -/
def State.allocMany (take : State → State × Option Nat) : Nat → State → List Nat → State × Option (List Nat)
  | 0, s, acc => (s, some acc.reverse)
  | k + 1, s, acc =>
    match take s with
    | (s, some h) => State.allocMany take k s (h :: acc)
    | (s, none) => (acc.foldl (fun s h => (State.freeLeaf s h).1) s, none)

/-- Free leaves that carry no credit. -/
def State.freeLeaves (s : State) (hs : List Nat) : State := hs.foldl (fun s h => (State.freeLeaf s h).1) s

/-- The leaf after a leaf in the chain table; an entry that nothing has written reads 0 (log entry 3). -/
def State.chainNext (s : State) (h : Nat) : Nat := fget 0 s.switch.chain (s.handle h)

/-- n leaves along the chain table from one on. -/
def State.chainWalk (s : State) : Nat → Nat → List Nat
  | 0, _ => []
  | n + 1, h => h :: State.chainWalk s n (s.chainNext h)

/-- A frame's leaves: its first one, and the rest as the chain table links them (R272). -/
def State.handlesOf (s : State) (f : Frame) : List Nat :=
  match f.handles with
  | [] => []
  | h :: t => s.chainWalk (t.length + 1) h

/-- Record a frame's leaves in the chain table (R279, item 1); the last one links to nil. -/
def State.linkChain (s : State) : List Nat → State
  | [] => s
  | h :: t => ({ s with switch := { s.switch with
      chain := fset 0 s.switch.chain (s.handle h) (t.headD 0xFFFFFFFF) } } : State).linkChain t

/-- A frame that landed on VC4 to VC7 of a port owes its credits. -/
def Frame.owesCredits (f : Frame) : Bool := decide (4 ≤ f.vc) && decide (f.inPort < 129)

/-- What further copies of a lossless frame are counted under. -/
def Frame.shareKey (f : Frame) : Nat := 256 * f.ordinal + f.inPort

/-- A copy of a frame is gone: the last copy of a lossless one returns the credits of its leaves. A frame outside the leaves was
charged to no reserve. The counts are the port's own, so misuse of the pool cannot reach them (R275, R280). -/
def State.creditCopy (s : State) (f : Frame) : State :=
  if !f.owesCredits then s
  else if f.handles.isEmpty then s.creditFreed f.inPort f.vc f.onDie
  else match fget 0 s.switch.shares f.shareKey with
    | 0 => s.creditReturn f.inPort f.vc f.onDie
    | k + 1 => { s with switch := { s.switch with shares := fset 0 s.switch.shares f.shareKey k } }

/-- Free a copy's leaves and return the credits it owes (R275, R279). -/
def State.freeFrame (s : State) (f : Frame) : State := (s.freeLeaves (s.handlesOf f)).creditCopy f

/-- ref every leaf of a frame by n, for n further copies (R279). -/
def State.refFrame (s : State) (f : Frame) (n : Nat) : State :=
  if n = 0 then s
  else
    let s := (s.handlesOf f).foldl (fun s h => State.refLeaf s h n) s
    if f.owesCredits then
      { s with switch := { s.switch with shares := fset 0 s.switch.shares f.shareKey (fget 0 s.switch.shares f.shareKey + n) } }
    else s

/-- Write a frame's bytes into its leaves, 256 bytes each. -/
def State.fillLeaves (s : State) : List Nat → Bytes → State
  | [], _ => s
  | h :: hs, bs => State.fillLeaves (s.writeLeaf (s.handle h) 0 (bs.take 256)) hs (bs.drop 256)

/-- Read a frame's n bytes from its leaves; whether a word was uncorrectable. -/
def State.readFrom (s : State) (src : ReadSource) (unit : Nat) : List Nat → Nat → Bytes → Bool → State × Bytes × Bool
  | [], _, acc, bad => (s, acc, bad)
  | h :: hs, n, acc, bad =>
    let r := s.readLeaf (s.handle h) (min n 256) src unit
    State.readFrom r.1 src unit hs (n - 256) (acc ++ r.2.1) (bad || r.2.2)

/-- Read a frame through the code: its bytes, and whether a word was uncorrectable. -/
def State.readFrame (s : State) (src : ReadSource) (unit : Nat) (f : Frame) : State × Bytes × Bool :=
  if f.handles.isEmpty then (s, f.bytes, false) else s.readFrom src unit (s.handlesOf f) f.rawLength [] false

/-- A frame's bytes as written. -/
def State.frameBytes (s : State) (f : Frame) : Bytes :=
  if f.bytes.isEmpty then (((s.handlesOf f).flatMap (fun h => s.leafBytes (s.handle h))).take f.rawLength) else f.bytes

/-- Bytes of the staging region (0x5083.00). -/
def State.stagingSize (s : State) : Nat := s.idx 0x5083 0 * 2 ^ 30

/-- Every staged byte is cleared to zero (R197, R310). -/
def State.clearStaged (s : State) : State := (s.clearMem s.stagingBase s.stagingSize).idxSet 0x5086 0 0

/-- Lay out the carved regions below the device area for an overflow and a staging size in GiB (R309, R310); a move
clears every staged byte, and the region at its new place reads zero (R195). -/
def State.carve (s : State) (overflow staging : Nat) : State :=
  let top := deviceArea - overflow * 2 ^ 30
  let stage := top - staging * 2 ^ 30
  if s.overflowBase = top && s.stagingBase = stage then s
  else ((((s.clearStaged.idxSet 0x5083 0 staging).idxSet 0x7031 0 top).idxSet 0x7032 0 stage).clearMem stage
    (staging * 2 ^ 30))

/-- Empty both lists and start again (R281, step 4). -/
def State.poolReset (s : State) : State :=
  { s with
    switch := { s.switch with
      onDie := LeafList.reset, external := LeafList.reset, counts := [], shares := [], poolStatus := 0,
      externalSize := s.idx 0x7030 0 * 0x400000 }
    mem := { s.mem with poolErrors := [] } }

/-- No leaf is charged any more, and every credit goes back (R281, steps 4 and 5). -/
def State.chargesBack (s : State) : State :=
  s.ports.foldl (fun s e => [4, 5, 6, 7].foldl (fun s v => State.creditReturn s e.1 v ((State.port s e.1).charge v)) s) s

end Sys2Proof.Machine
end

