-- ==== Sys2Proof/Machine/Frames.lean ====
section
/-!
DEFINITION. Sys2Proof/Machine/Frames.lean: the frames the device builds and reads (R265, R336 to R339), the egress queues of a
port with their tags, credits and shapers (R290, R295 to R299, R334), and the mirror (R286 to R288).
-/
namespace Sys2Proof.Machine

/-! ### Building and reading frames -/

/-- A frame with nothing in it. -/
def Frame.blank : Frame where
  handles := []
  bytes := []
  length := 0
  rawLength := 0
  ordinal := 0
  tagged := false
  tci := none
  cls := .ordinary
  vc := 0
  vid := 0
  colour := .green
  inPort := 0xFF
  landed := 0
  landedAt := (0, 0)
  destination := 0
  source := 0
  group := 0
  onDie := 0
  external := 0
  queued := 0
  sender := none
  sendingContext := 0xFFFF
  check := 0
  emitter := none
  cut := false

/-- The 802.1Q Ethertype. -/
def tagType : Nat := 0x8100

/-- A frame's 802.1Q tag control field, its Ethertype after any tag, and where its body starts. -/
structure Parsed where
  tci : Option Nat
  etype : Nat
  body : Nat
  deriving DecidableEq, Repr

/-- Read the Ethernet header (R265). -/
def parseFrame (b : Bytes) : Parsed :=
  if beAt b 12 2 = tagType then ⟨some (beAt b 14 2), beAt b 16 2, 18⟩ else ⟨none, beAt b 12 2, 14⟩

/-- The class of a frame by its Ethertype (Table 11.1). -/
def State.classOf (s : State) (etype : Nat) : FrameClass :=
  if etype = s.idx 0x4001 0 then .compute
  else if etype = s.idx 0x4002 0 then .index
  else .ordinary

/-- Pad to 60 bytes and add the frame check sequence. -/
def sealFrame (b : Bytes) : Bytes :=
  let b := b ++ zeros (60 - b.length)
  b ++ leBytes 4 (fcs b)

/-- The frame check sequence of a whole frame holds. -/
def fcsOk (b : Bytes) : Bool :=
  decide (4 ≤ b.length) && (fcs (b.take (b.length - 4)) == leAt b (b.length - 4) 4)

/-- A frame between folio addresses (R336, R337; Index frames take the same addresses, log entry 18). -/
def etherFrame (etype dst src : Nat) (body : Bytes) : Bytes :=
  sealFrame ([0x02, 0x4B, 0x4E, 0x00] ++ beBytes 2 dst ++ [0x02, 0x4B, 0x4E, 0x00] ++ beBytes 2 src ++ beBytes 2 etype ++ body)

/-- The fields of a folio header (Table 14.4). -/
structure FolioHeader where
  vc : Nat
  last : Bool
  failed : Bool
  cause : Nat
  destination : Nat
  source : Nat
  group : Nat
  sequence : Nat
  position : Nat
  tag : Nat
  offset : Nat
  count : Nat
  length : Nat
  check : Nat
  deriving DecidableEq, Repr

/-- A header with every field at zero on VC4. -/
def FolioHeader.blank : FolioHeader := ⟨4, false, false, 0, 0, 0, 0, 0, 0, 0, 0, 0, 0, 0⟩

/-- The 32 bytes of a folio header. -/
def FolioHeader.encode (h : FolioHeader) : Bytes :=
  beBytes 4 (0x11000000 + h.vc % 8 * 2 ^ 21 + b2n h.last * 2 ^ 20 + b2n h.failed * 2 ^ 19 + h.cause % 256 * 2 ^ 8) ++
    beBytes 2 h.destination ++ beBytes 2 h.source ++ beBytes 4 h.group ++ beBytes 4 h.sequence ++
    beBytes 2 h.position ++ beBytes 2 (h.tag % 4096 * 16) ++ beBytes 2 h.offset ++ beBytes 2 h.count ++
    beBytes 2 h.length ++ beBytes 2 0 ++ beBytes 4 h.check

/-- Read a folio header at an offset. -/
def FolioHeader.decode (b : Bytes) (o : Nat) : FolioHeader :=
  let w := beAt b o 4
  { vc := bits w 23 21, last := bit w 20, failed := bit w 19, cause := bits w 15 8,
    destination := beAt b (o + 4) 2, source := beAt b (o + 6) 2, group := beAt b (o + 8) 4,
    sequence := beAt b (o + 12) 4, position := beAt b (o + 16) 2, tag := beAt b (o + 18) 2 / 16,
    offset := beAt b (o + 20) 2, count := beAt b (o + 22) 2, length := beAt b (o + 24) 2,
    check := beAt b (o + 28) 4 }

/-- Header checks at ingress (R338), but for the payload against the frame's bytes. -/
def folioHeaderOk (b : Bytes) (o room : Nat) : Bool :=
  let w := beAt b o 4
  let typ := w / 2 ^ 28
  (typ == 1 || typ == 2) && bits w 27 24 == 1 &&
    (typ == 2 || (bits w 18 16 == 0 && bits w 7 0 == 0 && bits (beAt b (o + 18) 2) 3 0 == 0 &&
      beAt b (o + 26) 2 == 0 && decide (beAt b (o + 24) 2 ≤ 8192) && decide (32 + beAt b (o + 24) 2 ≤ room)))

/-- A compute frame built by the device. -/
def State.fragment (s : State) (h : FolioHeader) (payload : Bytes) : Frame :=
  let h := { h with length := payload.length, check := if payload.isEmpty && h.failed then 0 else crc32c payload }
  let bytes := etherFrame (s.idx 0x4001 0) h.destination h.source (h.encode ++ payload)
  { Frame.blank with
    bytes := bytes, length := bytes.length, rawLength := bytes.length, cls := .compute, vc := h.vc,
    destination := h.destination, source := h.source, group := h.group, landed := s.now, landedAt := (s.clock.stitch, s.clock.cycle) }

/-- A fragment that carries a failure and nothing else (R235, R247): length, count and check zero. -/
def State.failedFragment (s : State) (h : FolioHeader) (cause : Nat) : Frame :=
  s.fragment { h with failed := true, cause := cause, last := true, count := 0 } []

/-! ### Queues, credits and tags -/

/-- later of R296. -/
def later (a b : Nat) : Nat := if subMod 64 b a < 2 ^ 63 then b % 2 ^ 64 else a

/-- Counted length on a port (R290). -/
def State.counted (s : State) (p : Nat) (f : Frame) : Nat := f.length + s.idx 0x4016 p

/-- Credits a frame needs: one per 256 bytes of its transmitted length (R290). -/
def Frame.credits (f : Frame) : Nat := ceilDiv f.length 256

/-- Credits available: (L - S) mod 2^32 (R334). -/
def Port.available (x : Port) (v : Nat) : Nat := subMod 32 (fget 0 x.limit v) (fget 0 x.spent v)

/-- Leaves a queue holds (R283). -/
def Queue.depth (q : Queue) : Nat := q.frames.foldl (fun n f => n + f.onDie + f.external) 0

def Queue.onDie (q : Queue) : Nat := q.frames.foldl (fun n f => n + f.onDie) 0

def Queue.external (q : Queue) : Nat := q.frames.foldl (fun n f => n + f.external) 0

/-- A queue's weight (R297). -/
def State.weight (s : State) (p v : Nat) : Nat := s.idx (0x4130 + v) p

/-- Eligibility (R295). -/
def State.eligible (s : State) (p v : Nat) : Bool :=
  let x := s.port p
  match (x.queue v).frames with
  | [] => false
  | f :: _ => (x.queue v).wheel.isNone && (decide (v < 4) || decide (f.credits ≤ x.available v))

/-- head_tags for a queue whose head becomes eligible: it takes tags, or none under a weight of zero; a queue that is not eligible
drops its claim (R296, R297). -/
def State.retagQueue (s : State) (p v : Nat) : State :=
  let x := s.port p
  let q := x.queue v
  match q.frames with
  | [] => s.setPort p (x.setQueue v { q with tagged := false })
  | f :: _ =>
    if !s.eligible p v then s.setPort p (x.setQueue v { q with tagged := false })
    else if q.tagged then s
    else if s.weight p v = 0 then s.setPort p (x.setQueue v { q with tagged := true, weighted := false })
    else
      let st := later x.vtime q.finish
      s.setPort p (x.setQueue v { q with
        tagged := true, weighted := true, start := st, finish := (st + s.counted p f * 65536 / s.weight p v) % 2 ^ 64 })

/-- Tags of all eight queues of a port. -/
def State.retag (s : State) (p : Nat) : State := (List.range 8).foldl (fun s v => State.retagQueue s p v) s

/-- The link mode of a port (Table 14.1). -/
def State.mode (s : State) (p : Nat) : Nat := s.idx 0x3001 p

/-- A virtual channel that the link partner reports closed (R335). -/
def Port.closed (x : Port) (v : Nat) : Bool := decide (4 ≤ v) && decide (v ≤ 6) && !bit x.openMask (v - 4)

/-- Put a frame into its egress queue. A frame that the port cannot send is dropped and counted (R328, R331,
R335, and R368 while every transmitter is squelched): its leaves are freed and the answer is false. -/
def State.enqueue (s : State) (p : Nat) (f : Frame) : State × Bool :=
  let x := s.port p
  if !x.up || s.clock.coasting || (s.mode p = 4 && f.vc ≥ 4) || x.closed f.vc then ((s.freeFrame f).count 0x3008 p 1, false)
  else
    let q := x.queue f.vc
    ((s.setPort p (x.setQueue f.vc { q with frames := q.frames ++ [{ f with queued := s.now }] })).retag p, true)

/-- The queue the transmitter takes next (R296). -/
def State.selectQueue (s : State) (p : Nat) : Option Nat :=
  let x := s.port p
  let el := (List.range 8).filter (fun v => s.eligible p v)
  let w := el.filter (fun v => (x.queue v).weighted)
  match w with
  | [] => el.reverse.head?
  | v :: vs => some (vs.foldl (fun b v =>
      let fb := (x.queue b).finish
      let fv := (x.queue v).finish
      if fb = fv then max b v else if later fb fv = fb then v else b) v)

/-- Visit every wheel slot from the last visited up to the present one (R298): queues whose rounds are spent
leave the wheel. -/
def State.wheelVisit (s : State) (p : Nat) : State :=
  let cur := s.now / 16
  let s := (List.range 8).foldl (fun s v =>
    let x := State.port s p
    let q := x.queue v
    match q.wheel with
    | none => s
    | some (slot, rounds) =>
      let n := (cur + 4096 - slot) / 4096 - (x.slot + 4096 - slot) / 4096
      if n > rounds then State.setPort s p (x.setQueue v { q with wheel := none })
      else State.setPort s p (x.setQueue v { q with wheel := some (slot, rounds - n) })) s
  let x' := s.port p
  (s.setPort p { x' with slot := cur }).retag p

/-- Depth and head delay of every queue that holds a frame, as they stand (R300), by 8 * port + virtual channel. -/
def State.queueSample (s : State) : FMap (Nat × Nat) :=
  s.ports.foldl (fun m e => e.2.queues.foldl (fun m q =>
    match q.2.frames with
    | [] => m
    | f :: _ => fset (0, 0) m (8 * e.1 + q.1) (q.2.depth, State.now s - f.queued)) m) []

/-- Put a queue on the wheel for the first slot boundary at which its tokens have reached zero (R298). -/
def wheelPlace (tokens : Int) (rate c : Nat) : Nat × Nat :=
  let z := c + ceilDiv tokens.natAbs rate
  let b := ceilDiv z 16
  (b % 4096, (b - c / 16) / 4096)

/-- The shaper of a selected queue (R298). -/
def shapeOnSend (q : Queue) (rate burst len c : Nat) : Queue :=
  if rate = 0 then q
  else
    let t : Int := min (q.tokens + (rate * (c - q.tokenCycle) : Nat)) ((burst * 10000 + 15 * rate : Nat) : Int) - ((len * 10000 : Nat) : Int)
    { q with tokens := t, tokenCycle := c, wheel := if t < 0 then some (wheelPlace t rate c) else none }

/-- A frame whose tag changes, with its check brought along: a check that failed before fails after (R280). -/
def resealFrame (raw b : Bytes) : Bytes :=
  let b := b ++ zeros (60 - b.length)
  b ++ leBytes 4 (fcs b ^^^ fcs (raw.take (raw.length - 4)) ^^^ leAt raw (raw.length - 4) 4)

/-- The bytes of a frame on the wire, made of the bytes read: its tag removed, set or kept. -/
def Frame.wire (f : Frame) (raw : Bytes) : Bytes :=
  if f.tagged == f.tci.isSome && f.tagged == false then raw
  else
    let plain := if f.tagged then raw.take 12 ++ (raw.drop 16).take (raw.length - 20) else raw.take (raw.length - 4)
    resealFrame raw (match f.tci with
      | none => plain
      | some t => plain.take 12 ++ beBytes 2 tagType ++ beBytes 2 t ++ plain.drop 12)

/-! ### Mirroring -/

/-- The control word of a session (Table 11.5). -/
def State.mirrorControl (s : State) (m : Nat) : Nat := s.idx (0x4080 + m) 2

/-- A port's bit in a mask held in five 32-bit entries. -/
def State.maskBit (s : State) (i base p : Nat) : Bool := bit (s.idx i (base + p / 32)) (p % 32)

/-- The filter key of a frame (R286). -/
def mirrorKey (etype vid dst src : Nat) : Nat := etype * 2 ^ 48 + vid % 4096 * 2 ^ 36 + dst * 2 ^ 16 + src

/-- A capture: what Table 11.6 records of a frame. -/
structure Capture where
  stitch : Nat
  cycle : Nat
  port : Nat
  queue : Nat
  egress : Bool
  dropReason : Nat           -- 0 when it was not dropped
  length : Nat
  sequence : Nat
  key : Nat
  head : Bytes
  deriving DecidableEq, Repr

/-- The 160 bytes of a mirror entry (Table 11.6). -/
def Capture.encode (c : Capture) : Bytes :=
  leBytes 8 c.stitch ++
    leBytes 8 (c.cycle % 2 ^ 11 * 2 ^ 53 + c.port % 256 * 2 ^ 45 + c.queue % 8 * 2 ^ 42 + b2n c.egress * 2 ^ 41 +
      b2n (c.dropReason ≠ 0) * 2 ^ 40 + c.dropReason % 16 * 2 ^ 36 + c.length % 2 ^ 14 * 2 ^ 22) ++
    leBytes 8 (c.sequence % 2 ^ 32 * 2 ^ 32) ++ leBytes 8 0 ++ slice c.head 0 128

/-- One session takes a frame: the ordinal moves on, and the entry is written or the capture is lost (R287). -/
def State.mirrorSession (s : State) (m : Nat) (c : Capture) : State :=
  let w := s.mirrorControl m
  let selected := bit w 31 && bit w (if c.egress then 30 else 29) && bit w (16 + c.queue) &&
    s.maskBit (0x4080 + m) 6 c.port && (c.dropReason = 0 || bit w 27)
  if !selected then s
  else
    let ord := fget 0 s.switch.mirrorCount m
    let s := { s with switch := { s.switch with mirrorCount := fset 0 s.switch.mirrorCount m (ord + 1) } }
    let n := bits w 15 0 + 1
    let take := if bit w 28 then (c.key &&& s.idx (0x4080 + m) 0xC) == s.idx (0x4080 + m) 0xB else ord % n == n - 1
    let e := s.idx (0x4080 + m) 1
    if !take || e = 0 then s
    else
      let base := s.idx (0x4080 + m) 0
      let prod := s.peek64 base
      let written := if s.switch.mirrorsThisCycle.1 = s.now then s.switch.mirrorsThisCycle.2 else 0
      if subMod 64 prod (s.peek64 (base + 8)) = e || written ≥ 8 then s.count (0x4080 + m) 5 1
      else
        let s := s.writeMem (base + 64 + 160 * (prod % e)) c.encode 0xFF
        let s := s.poke64 base ((prod + 1) % 2 ^ 64)
        { s with switch := { s.switch with mirrorsThisCycle := (s.now, written + 1) } }

/-- All four sessions, in ascending order. -/
def State.mirror (s : State) (c : Capture) : State := [0, 1, 2, 3].foldl (fun s m => State.mirrorSession s m c) s

/-- The filter key and VID of a frame's bytes. -/
def State.keyOf (s : State) (b : Bytes) (vid : Nat) : Nat :=
  let p := parseFrame b
  match s.classOf p.etype with
  | .ordinary => mirrorKey p.etype vid 0 0
  | _ => mirrorKey p.etype vid (beAt b (p.body + 4) 2) (beAt b (p.body + 6) 2)

/-- Capture a frame at ingress, once its fate is known (R287). -/
def State.mirrorIngress (s : State) (f : Frame) (reason : Nat) : State :=
  let b := if f.handles.isEmpty then f.bytes
    else slice (s.leafBytes (s.handle (f.handles.headD 0))) 0 (min 128 f.rawLength)
  s.mirror ⟨f.landedAt.1, f.landedAt.2, f.inPort, f.vc, false, reason, f.rawLength,
    f.ordinal % 2 ^ 32, s.keyOf b f.vid, b⟩

/-- Select at a free transmitter (R296, R298): the frame leaves its queue, takes its credits and is on the wire. Its leaves are
read through the code; an uncorrectable word ends it with an invalid end-of-frame (R319). -/
def State.transmit (s : State) (p v : Nat) (f : Frame) (rest : List Frame) : State :=
  let r := s.readFrame .frame 0xFF f
  let s := r.1
  let wire := f.wire r.2.1
  let x := s.port p
  let q := x.queue v
  let len := s.counted p f
  let q' := { shapeOnSend q (s.idx (0x4138 + v) p) (s.idx (0x4140 + v) p) len s.now with
    frames := rest, tagged := false, emptySince := if rest.isEmpty then s.now else q.emptySince }
  let x := { x.setQueue v q' with
    vtime := if q.weighted then later x.vtime q.start else x.vtime,
    spent := if v < 4 then x.spent else fset 0 x.spent v ((fget 0 x.spent v + f.credits) % 2 ^ 32),
    sending := some { f with bytes := wire, cut := r.2.2 } }
  let s := (s.setPort p x).retag p
  s.mirror ⟨s.clock.stitch, s.clock.cycle, p, v, true, 0, f.length, x.sentCount % 2 ^ 32, s.keyOf wire f.vid, wire⟩

end Sys2Proof.Machine
end

