-- ==== Sys2Proof/Machine/IndexFrame.lean ====
section
/-!
DEFINITION. Sys2Proof/Machine/IndexFrame.lean: the frames of the Index protocol (R339 to R341, Tables 14.5 and 14.6): their header and
records, and the requests and replies that the device itself builds.
-/
namespace Sys2Proof.Machine

/-- The header of an Index protocol frame (Table 14.5). -/
structure IndexHeader where
  version : Nat
  reply : Bool
  op : Nat
  status : Nat
  count : Nat
  destination : Nat
  source : Nat
  sequence : Nat
  deriving DecidableEq, Repr

/-- One record: its header fields and its data. -/
structure IndexRecord where
  index : Nat
  sub : Nat
  status : Nat
  reserved : Nat
  length : Nat
  data : Bytes
  deriving DecidableEq, Repr

/-- The four operations. -/
def opRead : Nat := 0
def opWrite : Nat := 1
def opBlockRead : Nat := 2
def opBlockWrite : Nat := 3

/-- The twelve bytes of a header. -/
def IndexHeader.encode (h : IndexHeader) : Bytes :=
  beBytes 4 (h.version % 16 * 2 ^ 28 + b2n h.reply * 2 ^ 27 + h.op % 8 * 2 ^ 24 + h.status % 256 * 2 ^ 16 + h.count % 65536) ++
    beBytes 2 h.destination ++ beBytes 2 h.source ++ beBytes 4 h.sequence

/-- Read a header at the start of a body. -/
def IndexHeader.decode (b : Bytes) : IndexHeader :=
  let w := beAt b 0 4
  ⟨bits w 31 28, bit w 27, bits w 26 24, bits w 23 16, bits w 15 0, beAt b 4 2, beAt b 6 2, beAt b 8 4⟩

/-- A record with its data, padded to a multiple of 4. -/
def IndexRecord.encode (r : IndexRecord) : Bytes :=
  beBytes 2 r.index ++ beBytes 1 r.sub ++ beBytes 1 r.status ++ beBytes 2 0 ++ beBytes 2 r.length ++ padTo 4 r.data

/-- A request record. -/
def requestRecord (index sub length : Nat) (data : Bytes) : IndexRecord := ⟨index, sub, 0, 0, length, data⟩

/-- Read k records from offset o of a body; records of a write carry data. None where one runs past the body with its padding
(R339, R340). -/
def readRecords (b : Bytes) (data : Bool) : Nat → Nat → Option (List IndexRecord)
  | 0, _ => some []
  | k + 1, o =>
    let n := beAt b (o + 6) 2
    let m := if data then n else 0
    if b.length < o + 8 + roundUp m 4 then none
    else
      let r : IndexRecord := ⟨beAt b o 2, beAt b (o + 2) 1, beAt b (o + 3) 1, beAt b (o + 4) 2, n, (b.drop (o + 8)).take m⟩
      (readRecords b data k (o + 8 + roundUp m 4)).map (fun rs => r :: rs)

/-- The body of a frame: what follows its Ethertype, up to the frame check sequence. -/
def indexBody (b : Bytes) : Bytes := (b.take (b.length - 4)).drop (parseFrame b).body

/-- An Index protocol frame built by the device, on VC7. -/
def State.indexFrame (s : State) (h : IndexHeader) (rs : List IndexRecord) : Frame :=
  let bytes := etherFrame (s.idx 0x4002 0) h.destination h.source (h.encode ++ rs.flatMap IndexRecord.encode)
  { Frame.blank with
    bytes := bytes, length := bytes.length, rawLength := bytes.length, cls := .index, vc := 7,
    destination := h.destination, source := h.source, landed := s.now, landedAt := (s.clock.stitch, s.clock.cycle) }

/-- The sequence number of a request that the device builds: "chosen by the requester" (Table 14.5, log entry 23). -/
def State.requestSequence (s : State) : Nat × State := (Config.requestSequence s.draw.1 % 2 ^ 32, s.draw.2)

/-- A request that the device builds, and its sequence number. -/
def State.indexRequest (s : State) (op destination : Nat) (rs : List IndexRecord) : State × Nat × Frame :=
  let q := s.requestSequence
  (q.2, q.1, q.2.indexFrame ⟨1, false, op, 0, rs.length, destination, s.address, q.1⟩ rs)

/-- A reply goes to its destination: delivered here where that is the folio's own address, else out of port C (R341). -/
def State.sendReply (s : State) (destination : Nat) (f : Frame) : State :=
  if destination = s.address then
    { s with switch := { s.switch with replies := s.switch.replies ++ [f] } }
  else (s.enqueue portC f).1

/-- The ports of the broadcast mask (0x4006.00 to 0x4006.04). -/
def State.broadcastPorts (s : State) : List Nat := (List.range 129).filter (fun p => s.maskBit 0x4006 0 p)

end Sys2Proof.Machine
end

