-- ==== Sys2Proof/Machine/Arith.lean ====
section
/-!
DEFINITION. Sys2Proof/Machine/Arith.lean: products, group sums, ACC36 addition, exact sums, maximum and minimum (chapter 3).
-/
namespace Sys2Proof.Machine

/-- The product of two exact values and whether it counts an invalid operation (R58, R59). -/
def mulVal (x y : Val) : Val × Bool :=
  match x, y with
  | .nan, _ => (.nan, false)
  | _, .nan => (.nan, false)
  | .inf a, .inf b => (.inf (a != b), false)
  | .inf a, .num b m _ => if m = 0 then (.nan, true) else (.inf (a != b), false)
  | .num a m _, .inf b => if m = 0 then (.nan, true) else (.inf (a != b), false)
  | .num a m e, .num b n f => (.num (a != b) (m * n) (e + f), false)

/-- The signed integer of a finite value in units of 2^u, low bits dropped toward zero. -/
def truncInt (u : Int) : Val → Int
  | .num neg m e => if neg then -((floorAt m e u : Nat) : Int) else ((floorAt m e u : Nat) : Int)
  | _ => 0

/-- A signed integer times 2^u as an exact value; zero is +0. -/
def ofUnits (s u : Int) : Val := .num (decide (s < 0)) s.natAbs u

/-- The value is a NaN. -/
def Val.isNan : Val → Bool
  | .nan => true
  | _ => false

/-- The value is an infinity of the given sign. -/
def Val.isInf (neg : Bool) : Val → Bool
  | .inf n => n == neg
  | _ => false

/-- The value is a zero of either sign. -/
def Val.isZero : Val → Bool
  | .num _ m _ => m == 0
  | _ => false

/-- The value is -0. -/
def Val.isNegZero : Val → Bool
  | .num n m _ => n && m == 0
  | _ => false

/-- floor(log2 |x|) of a nonzero finite value. -/
def Val.order : Val → Option Int
  | .num _ m e => if m = 0 then none else some (logOf m e)
  | _ => none

/-- Window bits of an operand pair (Table 3.1). -/
def windowOf (a b : Elt) : Int :=
  if a = .fp16 || a = .bf16 || b = .fp16 || b = .bf16 then 40 else 28

/-- The group sum of R63 and whether it counts an invalid operation. -/
def groupSum (w : Int) (p : List Val) : Val × Bool :=
  if p.any Val.isNan then (.nan, false)
  else
    let pos := p.any (Val.isInf false)
    let neg := p.any (Val.isInf true)
    if pos && neg then (.nan, true)
    else if pos then (.inf false, false)
    else if neg then (.inf true, false)
    else match p.filterMap Val.order with
      | [] => (.num (p.all Val.isNegZero) 0 0, false)
      | l :: ls =>
        let u := ls.foldl max l - w + 1
        (ofUnits (p.foldl (fun s x => s + truncInt u x) 0) u, false)

/-- The value of an ACC36 word by its class (R66, R67). -/
def accValue (a : Nat) : Val :=
  let neg := bit a 33
  match bits a 35 34 with
  | 0 => .num neg (2 ^ 23 + bits a 22 0) ((bits a 32 23 : Nat) - 511 - 23 : Int)
  | 1 => .num neg 0 0
  | 2 => .inf neg
  | _ => .nan

/-- The +0 entry that every accumulator reads after reset and after a load (R66). -/
def accZero : Nat := 0x400000000

/-- Round to ACC36; whether the value saturated (R68, R69). -/
def roundAcc (v : Val) : Nat × Bool :=
  match v with
  | .nan => (0xC00000000, false)
  | .inf n => (0x800000000 + b2n n * 2 ^ 33, false)
  | .num n m e =>
    if m = 0 then (accZero + b2n n * 2 ^ 33, false)
    else
      let l := logOf m e
      let q := roundAt m e (l - 23)
      let l' := if q = 2 ^ 24 then l + 1 else l
      let f := if q = 2 ^ 24 then 0 else q - 2 ^ 23
      if l' > 512 then (b2n n * 2 ^ 33 + 0x3FF * 2 ^ 23 + 0x7FFFFF, true)
      else (b2n n * 2 ^ 33 + (l' + 511).toNat * 2 ^ 23 + f, false)

/-- Exact sum of two finite values; an exact zero result is +0 unless both are -0. -/
def addFinite (x y : Val) : Val :=
  match x, y with
  | .num a m e, .num b n f =>
    if m = 0 && n = 0 then .num (a && b) 0 0
    else
      let u := min e f
      let p : Int := (m * 2 ^ (e - u).toNat : Nat)
      let q : Int := (n * 2 ^ (f - u).toNat : Nat)
      ofUnits ((if a then -p else p) + (if b then -q else q)) u
  | _, _ => .nan

/-- One accumulator addition (R69): the new word and what it counts. `none` is overwrite. -/
def addGroup (a : Option Nat) (g : Val) : Nat × Event :=
  let r : Val × Bool :=
    match a with
    | none => (g, false)
    | some w =>
      match accValue w, g with
      | .nan, _ => (.nan, false)
      | _, .nan => (.nan, false)
      | .inf m, .inf n => if m = n then (.inf m, false) else (.nan, true)
      | .inf m, _ => (.inf m, false)
      | _, .inf n => (.inf n, false)
      | x, y => (addFinite x y, false)
  let o := roundAcc r.1
  (o.1, if r.2 then .invalid else if o.2 then .saturated else .none)

/-- Add one contribution to an exact-sum element (R76). -/
def collateAdd (c : Elem) (x : Val) : Elem :=
  let c := { c with count := c.count + 1 }
  match x with
  | .nan => { c with nan := true }
  | .inf false => { c with pinf := true }
  | .inf true => { c with ninf := true }
  | .num n m e =>
    let c := if m = 0 && n then c else { c with allNegZero := false }
    { c with sum := c.sum + truncInt (-149) (.num n m e) }

/-- The value an exact-sum element finishes at and whether that counts an invalid operation (R76). -/
def collateValue (c : Elem) : Val × Bool :=
  if c.nan then (.nan, false)
  else if c.pinf && c.ninf then (.nan, true)
  else if c.pinf then (.inf false, false)
  else if c.ninf then (.inf true, false)
  else if c.sum = 0 then (.num c.allNegZero 0 0, false)
  else (ofUnits c.sum (-149), false)

/-- Compare two values other than NaN; -0 lies below +0, which gives the zero rows of Table 3.3. -/
def cmpVal (x y : Val) : Ordering :=
  match x, y with
  | .inf a, .inf b => if a = b then .eq else if a then .lt else .gt
  | .inf a, _ => if a then .lt else .gt
  | _, .inf b => if b then .gt else .lt
  | .num a m e, .num b n f =>
    let u := min e f
    let p : Int := (m * 2 ^ (e - u).toNat : Nat)
    let q : Int := (n * 2 ^ (f - u).toNat : Nat)
    let p := if a then -p else p
    let q := if b then -q else q
    if p < q then .lt else if q < p then .gt
    else if m = 0 then (if a = b then .eq else if a then .lt else .gt)
    else .eq
  | _, _ => .eq

/-- The larger or the smaller of two values, a NaN giving way (Table 3.3). -/
def pickVal (largest : Bool) (x y : Val) : Val :=
  match x, y with
  | .nan, _ => y
  | _, .nan => x
  | _, _ =>
    match cmpVal x y with
    | .lt => if largest then y else x
    | .gt => if largest then x else y
    | .eq => x

/-- A finite value's code as FP32, which holds every value of the Collator's formats exactly (R75). -/
def fp32Code (x : Val) : Nat := (Elt.fp32.convert x).1

/-- Add one operand to a maximum or minimum element (R78, Table 3.3). -/
def selectAdd (largest : Bool) (c : Elem) (x : Val) : Elem :=
  let c := { c with count := c.count + 1 }
  match x with
  | .nan => { c with nan := true }
  | _ =>
    if c.someNumber then
      { c with selected := fp32Code (pickVal largest (Elt.fp32.decode c.selected) x) }
    else { c with someNumber := true, selected := fp32Code x }

/-- The value a maximum or minimum element finishes at. -/
def selectValue (c : Elem) : Val :=
  if c.someNumber then Elt.fp32.decode c.selected else .nan

end Sys2Proof.Machine
end

