-- ==== Sys2Proof/Machine/Context.lean ====
section
/-!
DEFINITION. Sys2Proof/Machine/Context.lean: what a Collator context's declaration says (R210, R211, R221, R222, Tables 6.17, 6.18,
9.1), and its current sequence (R245).
-/
namespace Sys2Proof.Machine

/-- Operation of a program instruction. -/
def pOp (i : Nat) : Nat := bits i 31 26
/-- Input format. -/
def pIn (i : Nat) : Nat := bits i 25 22
/-- Output format. -/
def pOut (i : Nat) : Nat := bits i 21 18
/-- Flags. -/
def pFlags (i : Nat) : Nat := bits i 17 16
/-- Parameter. -/
def pParam (i : Nat) : Nat := bits i 15 0

/-- A collecting operation: SUM, MAX, MIN, GATHER, SCATTER, MERGE or SPMERGE. -/
def isCollecting (op : Nat) : Bool := (decide (1 ≤ op) && decide (op ≤ 6)) || op == 0x0A

/-- The collecting operation of a context's program; END where it has none. -/
def Ctx.collect (x : Ctx) : Nat := (x.program.find? (fun i => isCollecting (pOp i))).getD 0

/-- Window W. -/
def Ctx.win (x : Ctx) : Nat := bits x.shape 59 48
/-- Contributor count c. -/
def Ctx.contributors (x : Ctx) : Nat := bits x.shape 47 32 + 1
/-- Elements per item E. -/
def Ctx.elements (x : Ctx) : Nat := bits x.shape 31 16 + 1

/-- The collecting operation takes streams. -/
def Ctx.stream (x : Ctx) : Bool := pOp x.collect == 0x06 || pOp x.collect == 0x0A

/-- The collecting operation merges sparse streams. -/
def Ctx.sparse (x : Ctx) : Bool := pOp x.collect == 0x0A

/-- Index bytes of an SPMERGE entry. -/
def indexBytes (collect : Nat) : Nat := if bit (pFlags collect) 0 then 8 else 4

/-- Bytes of one contributed element or entry (R211). -/
def Ctx.entryBytes (x : Ctx) : Nat :=
  fmtBytes (pIn x.collect) + (if x.sparse then indexBytes x.collect else 0)

/-- An early-k GATHER (Table 6.18). -/
def Ctx.earlyK (x : Ctx) : Bool := pOp x.collect == 0x04 && bit (pFlags x.collect) 0

/-- A shaping operation: SORT, FILTER or TOPK. -/
def isShaping (op : Nat) : Bool := op == 7 || op == 8 || op == 9

/-- Largest number of elements or entries of an item behind the collecting operation (R222). -/
def collectLength (collect c e : Nat) : Nat :=
  match pOp collect with
  | 0x04 => (if bit (pFlags collect) 0 then pParam collect else c) * e
  | 0x06 => c * e
  | 0x0A => c * e
  | _ => e

/-- Largest working length behind each instruction (R222). -/
def Ctx.lengthAfter (x : Ctx) : List Nat → Nat → Nat
  | [], n => n
  | i :: t, n =>
    let n := if isCollecting (pOp i) then collectLength i x.contributors x.elements
      else if pOp i = 9 then min (pParam i) n else n
    Ctx.lengthAfter x t n

/-- The program up to its first EMIT. -/
def Ctx.beforeEmit (x : Ctx) : List Nat := x.program.takeWhile (fun i => pOp i ≠ 0x0D)

/-- Largest working length that an EMIT sends. -/
def Ctx.emitLength (x : Ctx) : Nat := x.lengthAfter x.beforeEmit 0

/-- Format of the working value at the EMITs. -/
def Ctx.emitFormat (x : Ctx) : Nat :=
  x.beforeEmit.foldl (fun f i => if isCollecting (pOp i) || isShaping (pOp i) then pOut i else f) 0

/-- Bytes of an emitted element or entry. -/
def Ctx.emitBytes (x : Ctx) : Nat := fmtBytes x.emitFormat + (if x.sparse then indexBytes x.collect else 0)

/-- The number of EMITs. -/
def Ctx.emits (x : Ctx) : Nat := (x.program.filter (fun i => pOp i == 0x0D)).length

/-- Largest emitted byte length; each EMIT of a SCATTER sends one part (R227). -/
def Ctx.emitMax (x : Ctx) : Nat :=
  x.emitBytes * (if pOp x.collect = 5 then x.emitLength / max 1 x.emits else x.emitLength)

/-- The slot size L of a memory destination (R234). -/
def Ctx.slotSize (x : Ctx) : Nat := roundUp (64 + x.emitMax) 64

/-- Entry k of the destination list; entry 0 is the shape. -/
def Ctx.dest (x : Ctx) (k : Nat) : Nat := if k = 0 then x.shape else x.dests.getD (k - 1) 0

/-- The memory destinations of the destination list (R217, R237). -/
def Ctx.memoryDests (x : Ctx) : List Nat := x.dests.filter (fun d => bits d 63 60 == 1)

/-- State codes (Table 9.3). -/
def ctxIdle : Nat := 1
def ctxOpen : Nat := 2
def ctxFenced : Nat := 3

/-- The current sequence (R245). -/
def Ctx.current (x : Ctx) : Nat := if x.state = ctxOpen then x.sequence else x.expected

/-- The declared context that holds a group identifier. -/
def State.groupCtx (s : State) (group : Nat) : Option Nat :=
  (s.ctxs.find? (fun e => e.2.declared && e.2.group == group)).map (·.1)

end Sys2Proof.Machine
end

