-- ==== Sys2Proof/Machine/Control.lean ====
section
/-!
DEFINITION. Sys2Proof/Machine/Control.lean: the control instructions that a core carries out itself (R138, R144 to R148, R174,
R177, R178), the commit of a synchronization point (R177, R180), and the two halts of a fetch.
-/
namespace Sys2Proof.Machine

/-- The reserved bit of Table 6.4 and a reserved value of a field (R15, R138). -/
def controlReserved (w : Nat) (bad : Option Nat) : Option Halt := reservedHalt [reservedAt w 96 96, bad]

/-- The next instruction. -/
def State.nextPc (s : State) (c : Nat) : Nat := (s.core c).pc + 1

/-- Write a register and go on. -/
def State.setRegGo (s : State) (c word r v : Nat) : State :=
  (s.setCore c ((s.core c).setReg r v)).advance c word (s.nextPc c) none

/-- NOP: nothing. -/
def execNop (c : CoreId) (s : State) : Out :=
  s.ends (s.onInstr c 0x00 false (fun s w =>
    s.orHalt c w 0 0xFFFFFFFF (controlReserved w none) (fun s => s.advance c w (s.nextPc c) none)))

/-- END: the core ends at once, or when the points before it have committed (R178, R182). -/
def execEndCore (c : CoreId) (s : State) : Out :=
  s.ends (s.onInstr c 0x01 false (fun s w =>
    s.orHalt c w 0 0xFFFFFFFF (controlReserved w none) (fun s =>
      let x := s.core c
      if x.window.isEmpty then s.setCore c { x with run := .ended, refs := [], pc := x.pc + 1 }
      else s.advance c w (s.nextPc c) (some .endPoint))))

/-- A jump: to the target where it lies in the core's fetch regions, else the halt 0x03 (R145). -/
def State.jump (s : State) (c word target : Nat) : State :=
  s.orHalt c word 0 0xFFFFFFFF (haltIf (!(s.core c).inRegions target) (halt 0x03 target))
    (fun s => s.advance c word target none)

/-- JMP: pc = ra + imm. -/
def execJmp (c : CoreId) (s : State) : Out :=
  s.ends (s.onInstr c 0x02 false (fun s w =>
    s.orHalt c w 0 0xFFFFFFFF (controlReserved w none) (fun s =>
      s.jump c w (addMod 64 ((s.core c).reg (wRa w)) (wImm w)))))

/-- The conditions of BR (Table 6.5). -/
def branchTaken (sub a b : Nat) : Bool :=
  match sub with
  | 0 => a == b
  | 1 => a != b
  | 2 => decide (toSigned 64 a < toSigned 64 b)
  | 3 => decide (toSigned 64 b ≤ toSigned 64 a)
  | 4 => decide (a < b)
  | _ => decide (b ≤ a)

/-- BR: pc = imm where the condition holds. -/
def execBr (c : CoreId) (s : State) : Out :=
  s.ends (s.onInstr c 0x03 false (fun s w =>
    s.orHalt c w 0 0xFFFFFFFF (controlReserved w (reservedValue (decide (wSub w > 5)) 97)) (fun s =>
      if branchTaken (wSub w) ((s.core c).reg (wRa w)) ((s.core c).reg (wRb w)) then s.jump c w (wImm w)
      else s.advance c w (s.nextPc c) none)))

/-- The scalar operations (Table 6.5), 64 bits. -/
def scalarOp (f a b : Nat) : Nat :=
  let sa := toSigned 64 a
  let sb := toSigned 64 b
  let k := b % 64
  match f with
  | 0x00 => addMod 64 a b
  | 0x01 => subMod 64 a b
  | 0x02 => a * b % 2 ^ 64
  | 0x03 => a &&& b
  | 0x04 => a ||| b
  | 0x05 => a ^^^ b
  | 0x06 => a * 2 ^ k % 2 ^ 64
  | 0x07 => a / 2 ^ k
  | 0x08 => ofSigned 64 (sa / ((2 ^ k : Nat) : Int))
  | 0x09 => if sa ≤ sb then a else b
  | 0x0A => if sa ≤ sb then b else a
  | 0x0B => min a b
  | 0x0C => max a b
  | 0x0D => b2n (decide (sa < sb))
  | _ => b2n (decide (a < b))

/-- SOP: rd = ra op b. -/
def execSop (c : CoreId) (s : State) : Out :=
  s.ends (s.onInstr c 0x04 false (fun s w =>
    s.orHalt c w 0 0xFFFFFFFF (controlReserved w (reservedValue (decide (wSub w % 128 > 0x0E)) 97)) (fun s =>
      let x := s.core c
      s.setRegGo c w (wRd w)
        (scalarOp (wSub w % 128) (x.reg (wRa w)) (if bit (wSub w) 7 then wImm w else x.reg (wRb w))))))

/-- LDI: rd = imm. -/
def execLdi (c : CoreId) (s : State) : Out :=
  s.ends (s.onInstr c 0x05 false (fun s w =>
    s.orHalt c w 0 0xFFFFFFFF (controlReserved w none) (fun s => s.setRegGo c w (wRd w) (wImm w))))

/-! ### Loads and stores (R145, R304, R311 to R313) -/

/-- The unit of a window address is present (R304). -/
def State.windowOk (s : State) (a : Nat) : Bool :=
  match windowAt a with
  | some (u, _, _) => s.present u
  | none => false

/-- A row that an executing product writes (R96). -/
def State.rowWritten (s : State) (u r : Nat) : Bool :=
  s.cores.cmds.any (fun c => c.phase == .running && c.opcode == 0x20 && c.unit == u &&
    (List.range (dCount c.primary)).any (fun n =>
      let a := dAddr c.primary c.primary 2 n
      a == (r : Int) || (bit c.word 84 && bits c.word 87 86 == 1 && a + 2048 == (r : Int))))

/-- A window access to such a row waits (R96). -/
def State.windowBusy (s : State) (a : Nat) : Bool :=
  match windowAt a with
  | some (u, r, _) => s.rowWritten u r
  | none => false

/-- An address in the colophon area or the mirror ring area. -/
def inViews (a n : Nat) : Bool :=
  within colophonBase (colophonBase + 0x4000000) a n || within mirrorBase (mirrorBase + 0x3C000000) a n

/-- The consumer word of a mirror ring header (R313). -/
def State.mirrorConsumer (s : State) (a : Nat) : Bool :=
  [0, 1, 2, 3].any (fun m => s.idx (0x4080 + m) 1 ≠ 0 && a == s.idx (0x4080 + m) 0 + 8)

/-- What an LDS may address. -/
def State.loadOk (s : State) (a : Nat) : Bool := s.inData a 8 || s.windowOk a || inViews a 8

/-- What an STS may address. -/
def State.storeOk (s : State) (a : Nat) : Bool :=
  (s.inData a 8 && !s.spanWeights ((a : Int), (a : Int) + 8)) || s.windowOk a || s.mirrorConsumer a

/-- LDS: rd = the 8 bytes at ra + imm; an uncorrectable word halts with its address (R319). -/
def execLds (c : CoreId) (s : State) : Out :=
  s.ends (s.onInstr c 0x06 true (fun s w =>
    let a := addMod 64 ((s.core c).reg (wRa w)) (wImm w)
    s.orHalt c w 0 0xFFFFFFFF (firstHalt [controlReserved w none, haltIf (a % 8 ≠ 0) (halt 0x07 a),
        haltIf (!s.loadOk a) (halt 0x03 a)]) (fun t =>
      match windowAt a with
      | some (u, r, col) => if t.windowBusy a then s else t.setRegGo c w (wRd w) (t.acc u r col)
      | none =>
        let r := t.readMem a 8 .unit 0xFF
        match r.2.2 with
        | some bad => r.1.orHalt c w 0 0xFFFFFFFF (halt 0x03 bad) (fun s => s)
        | none => r.1.setRegGo c w (wRd w) (leNat r.2.1))))

/-- STS: the 8 bytes at ra + imm = rb. -/
def execSts (c : CoreId) (s : State) : Out :=
  s.ends (s.onInstr c 0x07 true (fun s w =>
    let a := addMod 64 ((s.core c).reg (wRa w)) (wImm w)
    let v := (s.core c).reg (wRb w)
    s.orHalt c w 0 0xFFFFFFFF (firstHalt [controlReserved w none, haltIf (a % 8 ≠ 0) (halt 0x07 a),
        haltIf (!s.storeOk a) (halt 0x03 a)]) (fun t =>
      match windowAt a with
      | some (u, r, col) =>
        if t.windowBusy a then s else (t.setAcc u r col (v % 2 ^ 36)).advance c w (t.nextPc c) none
      | none => (t.writeMem a (leBytes 8 v) 0xFF).advance c w (t.nextPc c) none)))

/-- LDD: a descriptor = the 160 bytes at ra + imm. -/
def execLdd (c : CoreId) (s : State) : Out :=
  s.ends (s.onInstr c 0x08 true (fun s w =>
    let a := addMod 64 ((s.core c).reg (wRa w)) (wImm w)
    s.orHalt c w 0 0xFFFFFFFF (firstHalt [controlReserved w (reservedValue (decide (wSub w > 63)) 97),
        haltIf (a % 16 ≠ 0) (halt 0x07 a), haltIf (!s.inData a 160) (halt 0x03 a)]) (fun s =>
      let r := s.readMem a 160 .unit 0xFF
      match r.2.2 with
      | some bad => r.1.orHalt c w 0 0xFFFFFFFF (halt 0x03 bad) (fun s => s)
      | none =>
        let x := r.1.core c
        (r.1.setCore c { x with descs := fset 0 x.descs (wSub w) (leNat r.2.1) }).advance c w (s.nextPc c) none)))

/-- SETD of a field named by aux[3:0]: bases of generators 0 to 3, trip counts of levels 0 to 5. -/
def setDescField (d f v : Nat) : Nat :=
  if f ≤ 3 then setBits d (dGen f + 47) (dGen f) v
  else if f ≤ 8 then setBits d (24 * (f - 4) + 23) (24 * (f - 4)) v
  else setBits d 151 128 v

/-- SETD: sets one base or trip count of a descriptor (R146). -/
def execSetd (c : CoreId) (s : State) : Out :=
  s.ends (s.onInstr c 0x09 false (fun s w =>
    let v := addMod 64 ((s.core c).reg (wRa w)) (wImm w)
    let f := wAux w % 16
    s.orHalt c w 0 0xFFFFFFFF (firstHalt [
        controlReserved w (match reservedValue (decide (f > 9)) 64 with
          | some p => some p
          | none => reservedValue (decide (wSub w > 63)) 97),
        haltIf (decide (f > 3) && decide (v ≥ 2 ^ 24)) (descHalt (wSub w) (f - 4)),
        haltIf (decide (f ≤ 3) && decide (v ≥ 2 ^ 48)) (haltG 0x03 (v : Int) f)]) (fun s =>
      let x := s.core c
      (s.setCore c { x with descs := fset 0 x.descs (wSub w) (setDescField (fget 0 x.descs (wSub w)) f v) }).advance
        c w (s.nextPc c) none)))

/-- The queue depth word (Table 7.2, R174). -/
def State.depthWord (s : State) (c u : Nat) : Nat :=
  if !s.present u then 0
  else
    let q := s.queueOf c u
    let held := (q.filter s.heldCmd).length
    64 * 2 ^ 56 + q.length * 2 ^ 48 + (64 - q.length) * 2 ^ 40 + held * 2 ^ 32 + fget 0 (s.core c).completions u

/-- RDQ: rd = the queue depth word. -/
def execRdq (c : CoreId) (s : State) : Out :=
  s.ends (s.onInstr c 0x0A false (fun s w =>
    s.orHalt c w 0 0xFFFFFFFF (controlReserved w none) (fun s =>
      let u := if bit (wAux w) 8 then (s.core c).reg (wRa w) % 256 else wAux w % 256
      s.setRegGo c w (wRd w) (s.depthWord c u))))

/-! ### Synchronization (R147, R148, R177 to R180) -/

/-- SYNC: a point that waits for the earlier commands to a unit. -/
def execSync (c : CoreId) (s : State) : Out :=
  s.ends (s.onInstr c 0x0B false (fun s w =>
    s.orHalt c w 0 0xFFFFFFFF (controlReserved w none) (fun s =>
      s.advance c w (s.nextPc c) (some (.sync (wAux w % 256))))))

/-- SIG: the increment is recorded (R178). -/
def execSig (c : CoreId) (s : State) : Out :=
  s.ends (s.onInstr c 0x0C false (fun s w =>
    s.orHalt c w 0 0xFFFFFFFF (controlReserved w none) (fun s =>
      let x := s.core c
      (s.setCore c { x with sigs := x.sigs ++ [⟨wSub w, x.serial, x.syncIssued⟩] }).advance c w (s.nextPc c) none)))

/-- WAITC: a point that waits until a counter reaches ra. -/
def execWaitc (c : CoreId) (s : State) : Out :=
  s.ends (s.onInstr c 0x0D false (fun s w =>
    s.orHalt c w 0 0xFFFFFFFF (controlReserved w none) (fun s =>
      s.advance c w (s.nextPc c) (some (.waitc (wSub w) ((s.core c).reg (wRa w)))))))

/-- The deadline of a WAITST has passed (R148). -/
def State.late (s : State) (p : Option SyncKind) : Bool :=
  match p with
  | some (.waitst st true grace) => decide (st + grace < s.clock.stitch)
  | _ => false

/-- The oldest uncommitted point is a WAITST that reaches its stitch too late: halt 0x0B (R180). -/
def State.judge (s : State) (c : Nat) : State :=
  let x := s.core c
  match x.window with
  | [] => s
  | e :: _ =>
    if s.late e.point then
      (s.setCore c { x with pc := e.pc }).haltCore c ⟨0x0B, s.clock.stitch % 2 ^ 64, 0xF⟩ e.word 0 0xFFFFFFFF 0
    else s

/-- WAITST: a point that waits for a stitch; it is judged at once where it is the oldest one (R180). -/
def execWaitst (c : CoreId) (s : State) : Out :=
  s.ends (s.onInstr c 0x0E false (fun s w =>
    s.orHalt c w 0 0xFFFFFFFF (controlReserved w none) (fun s =>
      let first := (s.core c).window.isEmpty
      let s := s.advance c w (s.nextPc c)
        (some (.waitst ((s.core c).reg (wRa w)) (bit (wAux w) 16) (wAux w % 65536)))
      if first then s.judge c else s)))

/-- The condition of a point holds. -/
def State.pointHolds (s : State) (c : Nat) (e : WinEntry) : Bool :=
  match e.point with
  | some (.sync u) => !s.cores.cmds.any (fun k =>
      k.core == c && decide (k.serial < e.serial) && (u == 0xFF || k.unit == u) && k.phase != .done)
  | some (.waitc n v) => decide (v ≤ fget 0 s.cores.syncs n)
  | some (.waitst st _ _) => decide (st ≤ s.clock.stitch)
  | some .endPoint => true
  | none => false

/-- The first WAITC on the proof step counter to commit after the switch, and after handover, marks the serials
counted from then on (R397, R399). -/
def State.markBase (s : State) (x : Core) (e : WinEntry) : Core :=
  match e.point with
  | some (.waitc n _) =>
    if bit (s.idx 0x8040 0) 8 && n = s.idx 0x8040 0 % 256 then
      { x with
        proofBase := if x.proofBase.isNone && decide (4 ≤ s.proof.phase) && decide (s.proof.phase ≤ 6)
          then some e.serial else x.proofBase
        handBase := if x.handBase.isNone && s.proof.phase = 6 then some e.serial else x.handBase }
    else x
  | _ => x

/-- Commit the oldest point (R177): what follows it ceases to be run-ahead up to the next point. -/
def State.commit (s : State) (c : Nat) : State :=
  let x := s.core c
  match x.window with
  | [] => s
  | e :: rest =>
    let x := s.markBase { x with window := rest.dropWhile (fun r => r.point.isNone), syncDone := x.syncDone + 1 } e
    if e.point = some .endPoint then s.setCore c { x with run := .ended, window := [], refs := [] }
    else (s.setCore c x.trimRefs).judge c

/-- SYNC_POINT_COMMIT: the oldest point commits where its condition holds. -/
def execSyncPointCommit (c : CoreId) (s : State) : Out :=
  s.ends (match (s.core c).window with
    | [] => s
    | e :: _ => if (s.core c).run == .running && s.pointHolds c e then s.commit c else s)

/-! ### Halts of a fetch -/

/-- A fetch that R189 or R190 judges before the opcode: what it does with the word read. -/
def State.onFetch (s : State) (c : Nat) (f : State → Nat → Bool → State) : State :=
  if !s.fetches c || !(s.core c).inRegions (s.core c).pc then s
  else
    let r := s.fetchWord c
    f r.1 r.2.1 r.2.2

/-- ILLEGAL_OPCODE: an opcode that Table 6.1 does not list halts with 0x01 (R138). -/
def execIllegalOpcode (c : CoreId) (s : State) : Out :=
  s.ends (s.onFetch c (fun t w bad =>
    if bad || opcodes.contains (wOp w) then s else t.orHalt c w 0 0xFFFFFFFF (halt 0x01 0) (fun s => s)))

/-- UNCORRECTABLE_INSTRUCTION_FETCH: a word that reads uncorrectable halts with 0x0A (R190). -/
def execUncorrectableInstructionFetch (c : CoreId) (s : State) : Out :=
  s.ends (s.onFetch c (fun t _ bad =>
    if bad then
      let d := t.draw
      d.2.orHalt c (Config.unreadableWord d.1 % 2 ^ 128) 0 0xFFFFFFFF (halt 0x0A (t.core c).pc) (fun s => s)
    else s))

end Sys2Proof.Machine
end

