-- ==== Sys2Proof/Machine/StashOps.lean ====
section
/-!
DEFINITION. Sys2Proof/Machine/StashOps.lean: the stash's layout (R114, R115), its slots and claims (R119 to R121), and the
weight sets (R125 to R130).
-/
namespace Sys2Proof.Machine

/-- A slot of the stash. -/
def State.slot (s : State) (k : Nat) : Slot := fget Slot.reset s.stash.slots k

def State.setSlot (s : State) (k : Nat) (x : Slot) : State :=
  { s with stash := { s.stash with slots := fset Slot.reset s.stash.slots k x } }

/-- A weight set. -/
def State.wset (s : State) (k : Nat) : WeightSet := fget WeightSet.reset s.stash.sets k

def State.setWset (s : State) (k : Nat) (x : WeightSet) : State :=
  { s with stash := { s.stash with sets := fset WeightSet.reset s.stash.sets k x } }

/-- The slot of a micro-batch (R114). -/
def State.slotOf (s : State) (m : Nat) : Nat := m % s.stash.slotCount

/-- The value that names no micro-batch (R113). -/
def noBatch : Nat := 0xFFFFFFFF

/-- Pitch of a tile's reservation (R115). -/
def tilePitch (cols fmt : Nat) : Nat := roundUp (ceilDiv (cols * fmtBits fmt) 8) 64

/-- Size of a tile's reservation. -/
def tileSize (t : Nat × Nat × Nat) : Nat := t.1 * tilePitch t.2.1 t.2.2

/-- Bytes of the header table, rounded up to 64 (R115). -/
def headerTable (n : Nat) : Nat := roundUp (16 * n) 64

/-- Offset of tile i's reservation in the payload area. -/
def tileOffset : List (Nat × Nat × Nat) → Nat → Nat
  | _, 0 => 0
  | [], _ => 0
  | t :: ts, i + 1 => tileSize t + tileOffset ts i

/-- Bytes a slot needs (R115). -/
def slotNeeds (tiles : List (Nat × Nat × Nat)) : Nat :=
  headerTable tiles.length + tiles.foldl (fun n t => n + tileSize t) 0

/-- The tile whose reservation holds n bytes from an offset of the payload area: its index and the offset in it. -/
def tileAt : List (Nat × Nat × Nat) → Nat → Int → Nat → Option (Nat × Nat)
  | [], _, _, _ => none
  | t :: ts, i, o, n =>
    if o < 0 then none
    else if o + n ≤ (tileSize t : Int) then some (i, o.toNat)
    else tileAt ts (i + 1) (o - (tileSize t : Int)) n

/-- Device address of the slot of a micro-batch. -/
def State.slotBase (s : State) (m : Nat) : Nat := s.stash.base + s.slotOf m * s.stash.slotSize

/-- Device address of a tile's header. -/
def State.tileHeader (s : State) (m i : Nat) : Nat := s.slotBase m + 16 * i

/-- Device address of a tile's reservation. -/
def State.tilePayload (s : State) (m i : Nat) : Nat :=
  s.slotBase m + headerTable s.stash.tiles.length + tileOffset s.stash.tiles i

/-! ### Claims and releases -/

/-- A stash command that has entered its queue and is not yet recorded. -/
def State.queuedStash (s : State) (opcode : Nat) (p : Cmd → Bool) : Bool :=
  s.cores.cmds.any (fun c => c.opcode == opcode && c.phase == .queued && p c)

/-- The slot of m has a claim that is recorded or accepted and not granted. -/
def State.claimWaits (s : State) (m : Nat) : Bool :=
  (s.slot (s.slotOf m)).claim.isSome || s.queuedStash 0x40 (fun c => s.slotOf c.microBatch == s.slotOf m)

/-- A claim of m is recorded (R120). -/
def State.claimed (s : State) (m : Nat) : Bool :=
  let k := s.slot (s.slotOf m)
  s.stash.slotCount ≠ 0 && ((k.state ≠ 0 && k.owner == m) || (match k.claim with
    | some (b, _) => b == m
    | none => false))

/-- A claim of m has been granted and its slot is not yet free. -/
def State.granted (s : State) (m : Nat) : Bool :=
  let k := s.slot (s.slotOf m)
  s.stash.slotCount ≠ 0 && k.state ≠ 0 && k.owner == m

/-- A release of m has been accepted and has not taken effect (R121). -/
def State.releaseAccepted (s : State) (m : Nat) : Bool :=
  let k := s.slot (s.slotOf m)
  (k.state = 2 && k.owner == m) || (match k.claim with
    | some (b, _, some _) => b == m
    | _ => false) || s.queuedStash 0x41 (fun c => c.microBatch == m)

/-- An open of a set is accepted and not published. -/
def State.openAccepted (s : State) (w : Nat) : Bool :=
  (s.wset w).openState ≠ 0 || s.queuedStash 0x42 (fun c => bits c.word 95 88 == w)

/-- A publish of a set is accepted and not in effect. -/
def State.publishAccepted (s : State) (w : Nat) : Bool :=
  (s.wset w).publish.isSome || s.queuedStash 0x43 (fun c => bits c.word 95 88 == w)

/-- The set is updated: single- or double-buffered (R126). -/
def WeightSet.updated (x : WeightSet) : Bool := x.kind == 2 || x.kind == 3

/-- The weight set into whose open buffer a command stores (R127). -/
def Cmd.storesInto (c : Cmd) : Option Nat :=
  if c.opcode = 0x30 && bits c.word 40 39 = 2 then some (bits c.word 38 31) else none

/-- A product, a write-out or a vector command: what waits for the claim of its micro-batch (R120). -/
def Cmd.awaitsClaim (c : Cmd) : Bool := c.opcode == 0x20 || c.opcode == 0x21 || c.opcode == 0x30 || c.opcode == 0x31

/-- The claim that a command waits for is granted (R120), and so is the open it stores under (R127). -/
def State.admits (s : State) (c : Cmd) : Bool :=
  (!c.awaitsClaim || c.microBatch == noBatch || s.granted c.microBatch) &&
    (match c.storesInto with
      | some w => (s.wset w).openState == 2
      | none => true)

/-- A store into an open buffer of a set, accepted before a publish and not complete (R130). -/
def State.storesWait (s : State) (w order : Nat) : Bool :=
  s.cores.cmds.any (fun c => c.storesInto == some w && decide (c.order < order) && c.phase != .done)

/-- A set's publish can take effect: its open is granted and every store before it is complete (R130). -/
def State.publishReady (s : State) (w : Nat) : Bool :=
  match (s.wset w).publish with
  | some order => (s.wset w).openState == 2 && !s.storesWait w order
  | none => false

/-- A set's version as a claim of this cycle meets it: a publish that can take effect is ordered first (R131). -/
def State.versionNow (s : State) (w : Nat) : Nat :=
  if s.publishReady w then (s.wset w).version + 1 else (s.wset w).version

/-- An open of a set as a claim of this cycle meets it: a publish that can take effect has ended it (R131). -/
def State.openNow (s : State) (w : Nat) : Bool := s.openAccepted w && !s.publishReady w

/-- The version v is stale for a claim (R129). -/
def State.stale (s : State) (v : Nat) : Bool :=
  s.stash.sets.any (fun e => e.2.updated &&
    (decide (s.versionNow e.1 > v) || (e.2.kind == 2 && s.versionNow e.1 == v && s.openNow e.1)))

/-- The refusals of a CLAIM (R114, R119, R129, R164). -/
def State.claimHalt (s : State) (m v : Nat) : Option Halt :=
  let k := s.slot (s.slotOf m)
  firstHalt [haltIf (m == noBatch) (halt 0x03 m), haltIf (s.stash.slotCount == 0) (halt 0x03 m),
    haltIf (s.claimWaits m) (halt 0x03 m),
    haltIf (if k.owner == noBatch then m ≠ s.slotOf m else m ≠ k.owner + s.stash.slotCount) (halt 0x03 m),
    haltIf (s.stale v) (halt 0x03 v)]

/-- The refusals of a REL (R114, R121, R164). -/
def State.relHalt (s : State) (m : Nat) : Option Halt :=
  firstHalt [haltIf (m == noBatch) (halt 0x03 m), haltIf (s.stash.slotCount == 0) (halt 0x03 m),
    haltIf (!s.claimed m) (halt 0x03 m),
    haltIf (s.releaseAccepted m) (halt 0x03 m)]

/-- The refusals of an OPEN (R128, R164). -/
def State.openHalt (s : State) (w v : Nat) : Option Halt :=
  let x := s.wset w
  firstHalt [haltIf (!x.updated) (halt 0x03 w), haltIf (s.openAccepted w) (halt 0x03 w),
    haltIf (v ≠ x.version + 1) (halt 0x03 v)]

/-- The refusals of a PUB (R130, R164). -/
def State.pubHalt (s : State) (w : Nat) : Option Halt :=
  firstHalt [haltIf (!(s.wset w).updated) (halt 0x03 w), haltIf (!s.openAccepted w) (halt 0x03 w),
    haltIf (s.publishAccepted w) (halt 0x03 w)]

/-- The halt of a command that names a micro-batch without a recorded claim, or after its release (R120, R121). -/
def State.batchHalt (s : State) (m : Nat) : Option Halt :=
  haltIf (m ≠ noBatch && (!s.claimed m || s.releaseAccepted m)) (halt 0x03 m)

/-- The stash controller records a command at the head of its queue (R119, R121, R128, R130); it completes OK. -/
def State.recordStash (s : State) (c : Cmd) : State :=
  let k := s.slotOf c.microBatch
  let w := bits c.word 95 88
  let s := match c.opcode with
    | 0x40 => s.setSlot k { s.slot k with claim := some (c.microBatch, c.values.headD 0, none) }
    | 0x41 =>
      let x := s.slot k
      if x.state = 1 && x.owner = c.microBatch then s.setSlot k { x with state := 2, release := c.order }
      else (match x.claim with
        | some (m, v, _) => s.setSlot k { x with claim := some (m, v, some c.order) }
        | none => s)
    | 0x42 => s.setWset w { s.wset w with openState := 1 }
    | _ => s.setWset w { s.wset w with publish := some c.order }
  s.finishCmd c 0 0

/-- Buffer that an open writes (R128). -/
def WeightSet.target (x : WeightSet) : Nat := if x.kind = 3 then 1 - x.current else 0

/-- Base of a buffer. -/
def WeightSet.base (x : WeightSet) (b : Nat) : Nat := if b = 0 then x.buffer0 else x.buffer1

/-- Pins of a buffer. -/
def WeightSet.pinsOf (x : WeightSet) (b : Nat) : Nat := if b = 0 then x.pins0 else x.pins1

/-- Change the pins of a buffer. -/
def WeightSet.setPins (x : WeightSet) (b n : Nat) : WeightSet :=
  if b = 0 then { x with pins0 := n } else { x with pins1 := n }

/-- The buffer a micro-batch reads (R126): the one its grant pinned, or a static set's only one. -/
def State.pinned (s : State) (m w : Nat) : Nat :=
  match (s.slot (s.slotOf m)).pins.find? (fun p => p.1 == w) with
  | some p => p.2
  | none => 0

end Sys2Proof.Machine
end

