-- ==== Sys2Proof/Machine/Vector.lean ====
section
/-!
DEFINITION. Sys2Proof/Machine/Vector.lean: the functions of the vector units (R73, R160, R161). Each is the exact value rounded
once to FP32. An irrational value is carried as a 256-bit fixed-point reading with a sticky last bit, which rounds as the exact
value does (log entry 16).
-/
namespace Sys2Proof.Machine

/-- Fraction bits of the fixed-point readings. -/
def fixBits : Nat := 256

/-- ln 2 in fixed point. -/
def ln2Fix : Nat := 0xb17217f7d1cf79abc9e3b39803f2f6af40f343267298b62d8a0d175b8baafa2b

/-- 2 / sqrt pi in fixed point. -/
def erfFix : Nat := 0x120dd750429b6d11ae3a914fed7fd8688281341d7587cea2e7342b06199cc4161

/-- A positive value known to be no multiple of its unit: a sticky bit below it. -/
def sticky (neg : Bool) (m : Nat) (e : Int) : Val := .num neg (2 * m + 1) (e - 1)

/-- A quotient carried with 64 more bits than a significand needs, and a sticky bit unless exact. -/
def quotient (neg : Bool) (m : Nat) (e : Int) (n : Nat) (f : Int) : Val :=
  let k := 64 + Nat.log2 n
  let q := m * 2 ^ k / n
  if m * 2 ^ k % n = 0 then .num neg q (e - f - k) else sticky neg q (e - f - k)

/-- Integer square root, bit by bit from bit `fuel - 1`. -/
def isqrtFrom (n : Nat) : Nat → Nat → Nat
  | 0, r => r
  | k + 1, r =>
    let t := r + 2 ^ k
    isqrtFrom n k (if t * t ≤ n then t else r)

/-- floor(sqrt n). -/
def isqrt (n : Nat) : Nat := isqrtFrom n (Nat.log2 n / 2 + 1) 0

/-- Square root of m * 2^e. -/
def sqrtVal (m : Nat) (e : Int) : Val :=
  let m := if e % 2 = 0 then m else 2 * m
  let e := if e % 2 = 0 then e else e - 1
  let r := isqrt (m * 2 ^ 128)
  if r * r = m * 2 ^ 128 then .num false r (e / 2 - 64) else sticky false r (e / 2 - 64)

/-- Reciprocal square root of m * 2^e: floor(sqrt(2^(2k) / m)) with a sticky bit unless exact. -/
def rsqrtVal (m : Nat) (e : Int) : Val :=
  let m := if e % 2 = 0 then m else 2 * m
  let e := if e % 2 = 0 then e else e - 1
  let k := 64 + Nat.log2 m
  let r := isqrt (2 ^ (2 * k) / m)
  if r * r * m = 2 ^ (2 * k) then .num false r (-(e / 2) - k) else sticky false r (-(e / 2) - k)

/-- Taylor sum of e^r in fixed point: the term t is r^n / n!. -/
def expSum (r : Nat) : Nat → Nat → Nat → Nat → Nat
  | 0, _, _, s => s
  | k + 1, n, t, s =>
    let t' := t * r / 2 ^ fixBits / n
    expSum r k (n + 1) t' (s + t')

/-- e^x for x = m * 2^e with a sign, not zero, as t * 2^(k - 256) with t in [1, 2) of fixed point. -/
def expParts (neg : Bool) (m : Nat) (e : Int) : Nat × Int :=
  let a : Int := (floorAt m e (-(fixBits : Int)) : Nat)
  let x := if neg then -a else a
  let k := x / (ln2Fix : Int)
  let r := (x % (ln2Fix : Int)).toNat
  (expSum r 70 1 (2 ^ fixBits) (2 ^ fixBits), k)

/-- The magnitude m * 2^e is at least b. -/
def atLeast (m : Nat) (e : Int) (b : Nat) : Bool := cmpMag m e b 0 != .lt

/-- e^x. -/
def expVal (neg : Bool) (m : Nat) (e : Int) : Val :=
  if atLeast m e 128 then sticky false 1 (if neg then -400 else 400)
  else
    let p := expParts neg m e
    sticky false p.1 (p.2 - fixBits)

/-- 1 / (1 + e^(-x)). -/
def sigmoidVal (neg : Bool) (m : Nat) (e : Int) : Val :=
  if atLeast m e 128 then (if neg then sticky false 1 (-400) else sticky false (2 ^ 100 - 1) (-100))
  else
    let p := expParts true m e
    let d := 2 ^ (fixBits + (-p.2).toNat)
    let n := if neg then p.1 else d
    sticky false (n * 2 ^ (fixBits + (-p.2).toNat) / (d + p.1)) (-(fixBits + (-p.2).toNat : Nat))

/-- tanh x. -/
def tanhVal (neg : Bool) (m : Nat) (e : Int) : Val :=
  if atLeast m e 40 then sticky neg (2 ^ 100 - 1) (-100)
  else
    let p := expParts true m (e + 1)
    let d := 2 ^ (fixBits + (-p.2).toNat)
    sticky neg ((d - p.1) * 2 ^ fixBits / (d + p.1)) (-(fixBits : Int))

/-- Series of atanh z: the sum of z^(2n+1) / (2n+1), z and its square in fixed point. -/
def atanhSum (z2 : Nat) : Nat → Nat → Nat → Nat → Nat
  | 0, _, _, s => s
  | k + 1, n, t, s => atanhSum z2 k (n + 2) (t * z2 / 2 ^ fixBits) (s + t / n)

/-- ln x for x = m * 2^e positive. -/
def lnVal (m : Nat) (e : Int) : Val :=
  let l := logOf m e
  let b := Nat.log2 m
  let z := (m - 2 ^ b) * 2 ^ fixBits / (m + 2 ^ b)
  let f := 2 * atanhSum (z * z / 2 ^ fixBits) 90 1 z 0
  let y : Int := l * (ln2Fix : Int) + (f : Int)
  if m = 2 ^ b && l = 0 then .num false 0 0
  else sticky (decide (y < 0)) y.natAbs (-(fixBits : Int))

/-- Series of erf without its factor: terms x^(2n+1) / (n! (2n+1)), signs alternating. -/
def erfSum (x2 : Nat) : Nat → Nat → Nat → Int → Int
  | 0, _, _, s => s
  | k + 1, n, t, s =>
    let u : Int := (t / (2 * n + 1) : Nat)
    erfSum x2 k (n + 1) (t * x2 / 2 ^ fixBits / (n + 1)) (if n % 2 = 0 then s + u else s - u)

/-- erf x. -/
def erfVal (neg : Bool) (m : Nat) (e : Int) : Val :=
  if atLeast m e 4 then sticky neg (2 ^ 100 - 1) (-100)
  else
    let x := floorAt m e (-(fixBits : Int))
    let s := (erfSum (x * x / 2 ^ fixBits) 130 0 x 0).toNat
    sticky neg (s * erfFix / 2 ^ fixBits) (-(fixBits : Int))

/-- Sum of two values with the infinities of R79; whether it counts an invalid operation. -/
def addVal (x y : Val) : Val × Bool :=
  match x, y with
  | .nan, _ => (.nan, false)
  | _, .nan => (.nan, false)
  | .inf a, .inf b => if a = b then (.inf a, false) else (.nan, true)
  | .inf a, _ => (.inf a, false)
  | _, .inf b => (.inf b, false)
  | x, y => (addFinite x y, false)

/-- Sign flipped. -/
def Val.neg : Val → Val
  | .nan => .nan
  | .inf n => .inf (!n)
  | .num n m e => .num (!n) m e

/-- Magnitude. -/
def Val.abs : Val → Val
  | .nan => .nan
  | .inf _ => .inf false
  | .num _ m e => .num false m e

/-- Quotient of two values (R79). -/
def divVal (x y : Val) : Val × Bool :=
  match x, y with
  | .nan, _ => (.nan, false)
  | _, .nan => (.nan, false)
  | .inf _, .inf _ => (.nan, true)
  | .inf a, .num b _ _ => (.inf (a != b), false)
  | .num a _ _, .inf b => (.num (a != b) 0 0, false)
  | .num a m e, .num b n f =>
    if n = 0 then (if m = 0 then (.nan, true) else (.inf (a != b), false))
    else if m = 0 then (.num (a != b) 0 0, false)
    else (quotient (a != b) m e n f, false)

/-- A function of one operand that is invalid below -0: square root, its reciprocal, logarithm. `zero` is
its value at a zero of the given sign, `top` at +infinity. -/
def rootLike (zero : Bool → Val) (top : Val) (g : Nat → Int → Val) (x : Val) : Val × Bool :=
  match x with
  | .nan => (.nan, false)
  | .inf n => if n then (.nan, true) else (top, false)
  | .num n m e => if m = 0 then (zero n, false) else if n then (.nan, true) else (g m e, false)

/-- A function of one operand with limits at the infinities and a value at zero. -/
def sigmoidLike (zero : Bool → Val) (top : Bool → Val) (g : Bool → Nat → Int → Val) (x : Val) : Val × Bool :=
  match x with
  | .nan => (.nan, false)
  | .inf n => (top n, false)
  | .num n m e => if m = 0 then (zero n, false) else (g n m e, false)

/-- 1.0. -/
def oneVal : Val := .num false 1 0

/-- +0. -/
def zeroVal : Val := .num false 0 0

/-- The functions of Table 6.11 before their one rounding, and whether an invalid operation is counted. -/
def vopValue (f : Nat) (a b c : Val) : Val × Bool :=
  match f with
  | 0x00 => (a, false)
  | 0x01 => addVal a b
  | 0x02 => addVal a b.neg
  | 0x03 => mulVal a b
  | 0x04 =>
    let p := mulVal a b
    if c.isNan then (.nan, false) else if p.2 then p else addVal p.1 c
  | 0x05 => divVal a b
  | 0x06 => (pickVal true a b, false)
  | 0x07 => (pickVal false a b, false)
  | 0x08 => (a.abs, false)
  | 0x09 => (a.neg, false)
  | 0x0A => rootLike (fun n => .num n 0 0) (.inf false) sqrtVal a
  | 0x0B => rootLike (fun n => .inf n) (.num false 0 0) rsqrtVal a
  | 0x0C => divVal oneVal a
  | 0x0D => sigmoidLike (fun _ => oneVal) (fun n => if n then zeroVal else .inf false) expVal a
  | 0x0E => rootLike (fun _ => .inf true) (.inf false) lnVal a
  | 0x0F => sigmoidLike (fun n => .num n 0 0) (fun n => .num n 1 0) tanhVal a
  | 0x10 => sigmoidLike (fun _ => .num false 1 (-1)) (fun n => if n then zeroVal else oneVal) sigmoidVal a
  | 0x11 => sigmoidLike (fun n => .num n 0 0) (fun n => .num n 1 0) erfVal a
  | 0x12 => (if !a.isNan && !b.isNan && cmpVal a b == .gt && !(a.isZero && b.isZero) then oneVal else zeroVal, false)
  | 0x13 => (if !c.isNan && !c.isZero then a else b, false)
  | _ => (a, false)

/-- The one rounding of R73 to FP32, overflow to an infinity; whether a nonzero value became zero. -/
def roundF32 (x : Val) : Val × Bool :=
  match x, Elt.fp32.convert x with
  | .num n _ _, (_, .saturated) => (.inf n, false)
  | _, (_, .flushed) => ((match x with | .num n _ _ => .num n 0 0 | y => y), true)
  | .nan, _ => (.nan, false)
  | _, (c, _) => (Elt.fp32.decode c, false)

/-- A vector unit source as the FP32 value it is widened to (R50, R161), and the event that counts: an MX value that FP32
cannot hold falls under R51 (log entry 16). -/
def widen (x : Val) : Val × Event :=
  match x with
  | .nan => (.nan, .none)
  | _ => (Elt.fp32.decode (Elt.fp32.convert x).1, (Elt.fp32.convert x).2)

/-- One vector operation: the FP32 result, whether it was invalid, whether it flushed. -/
def vopRun (f : Nat) (a b c : Val) : Val × Bool × Bool :=
  let r := vopValue f a b c
  let o := roundF32 r.1
  (o.1, r.2, o.2)

/-- How many sources a vector function reads (Table 6.11). -/
def vopSources (f : Nat) : Nat :=
  match f with
  | 0x01 | 0x02 | 0x03 | 0x05 | 0x06 | 0x07 | 0x12 => 2
  | 0x04 | 0x13 => 3
  | _ => 1

/-- A function code of Table 6.11 that is not reserved. -/
def vopKnown (f : Nat) : Bool := decide (f ≤ 0x14)

end Sys2Proof.Machine
end

