-- ==== Sys2Proof/Machine/Issue.lean ====
section
/-!
DEFINITION. Sys2Proof/Machine/Issue.lean: the issue of commands: every check of chapter 6 in the order of R143, and the entry into
a queue (R139 to R143, R151 to R167, R245).
-/
namespace Sys2Proof.Machine

/-! ### Fields of a PROD (Table 6.7) -/

def pfSf (w : Nat) : Nat := bits w 95 92
def pfTf (w : Nat) : Nat := bits w 91 88
def pfOrient (w : Nat) : Nat := bits w 87 86
def pfAccumulate (w : Nat) : Bool := bit w 85
def pfSparse (w : Nat) : Bool := bit w 84
def pfStash (w : Nat) : Bool := bit w 83
def pfExpand (w : Nat) : Nat := bits w 82 81
def pfArrange (w : Nat) : Bool := bit w 80
def pfAux (w : Nat) : Nat := bits w 79 74
def pfAuxOn (w : Nat) : Bool := bit w 73
/-- Level l, from 1 to 5, is a reduction level. -/
def pfReduces (w l : Nat) : Bool := bit w (67 + l)
def pfTie (w : Nat) : Nat := bits w 67 60
def pfUse (w : Nat) : Nat := bits w 59 52
def pfGate (w : Nat) : Bool := bit w 51
def pfAudit (w : Nat) : Nat := bits w 50 47
def pfTheta (w : Nat) : Nat := bits w 46 42
def pfSet (w : Nat) : Nat := bits w 41 34
def pfSetOn (w : Nat) : Bool := bit w 33
def pfLast (w : Nat) : Nat := bits w 32 23
def pfOut (w : Nat) : Nat := bits w 22 13

/-- North entry: the stationary tile is read onto the column bus (Table 4.1). -/
def pfNorth (w : Nat) : Bool := bit w 86
/-- The streamed operand is turned. -/
def pfTurned (w : Nat) : Bool := bit w 87
/-- The stationary format is INT4. -/
def pfInt4 (w : Nat) : Bool := pfTf w == 12 || pfTf w == 13

/-- The format code the stationary operand enters as (R47). -/
def pfTarget (w : Nat) : Nat :=
  if pfInt4 w then (match pfExpand w with | 0 => 3 | 1 => 4 | _ => 2) else pfTf w

/-- FP16 or BF16. -/
def isWide (f : Nat) : Bool := f == 1 || f == 2

/-- FP8, MXFP8 or MXFP6. -/
def isFp8Set (f : Nat) : Bool := decide (3 ≤ f) && decide (f ≤ 8)

/-- The pairs of Table 2.4, either way round. -/
def pairOk (a b : Nat) : Bool :=
  (isWide a && isWide b) || (isFp8Set a && (isFp8Set b || b == 9)) || (a == 9 && (isFp8Set b || b == 9)) ||
    (a == 10 && b == 10) || (a == 11 && b == 11)

/-- Extents kx and nx of a pair (Table 4.2), doubled for a sparse operand (R103, R104). -/
def extents (w : Nat) : Nat × Nat :=
  let wide := isWide (pfSf w) && isWide (pfTarget w)
  let kx := if pfSf w = 9 && pfTarget w = 9 then 512 else if wide then 128 else 256
  let nx := if wide then 128 else 256
  if pfSparse w then (if pfNorth w then (kx, 2 * nx) else (2 * kx, nx)) else (kx, nx)

/-- Passes of one reduction run. -/
def reductionPasses (w d : Nat) : Nat :=
  (List.range (dLevels d)).foldl (fun n l => if l ≥ 1 && pfReduces w l then n * dTrip d l else n) 1

/-- Most reduction elements of one pass. -/
def passReach (w d : Nat) : Nat := if reductionPasses w d > 1 then max (extents w).1 (pfLast w) else pfLast w

/-- Kept values of n positions of a 2:4-sparse dimension. -/
def keptOf (n : Nat) : Nat := 2 * ceilDiv n 4

/-- Stored rows and columns of a stationary tile that covers k reduction elements and n outputs. -/
def storedShape (w k n : Nat) : Nat × Nat :=
  if pfNorth w then (if pfSparse w then keptOf n else n, k) else (if pfSparse w then keptOf k else k, n)

/-- The command runs no iteration, or an extent of zero: it completes OK with no effect (R16, R151, R154). -/
def prodIdle (w d : Nat) : Bool := dCount d == 0 || pfLast w == 0 || pfOut w == 0

/-- The accumulator row is assigned to the core (R93). -/
def State.rowAssigned (s : State) (u c : Nat) (r : Int) : Bool :=
  s.binding.rows.any (fun e =>
    let (unit, core, tie, first, count) := e
    unit == u && decide ((first : Int) ≤ r) && decide (r < ((first + count : Nat) : Int)) &&
      (core == c || (tie ≠ 0 && s.binding.ties.any (fun g => g.number == tie && bit g.issuers c))))

/-- The first row of a span that is not the core's, or lies beyond a limit. -/
def State.rowHalt (s : State) (u c : Nat) (span : Int × Int) (limit : Int) (again : Bool) : Option Halt :=
  if span.1 < 0 || limit < span.2 then haltG 0x03 span.1 2
  else
    match (List.range (span.2 - span.1).toNat).find? (fun k : Nat =>
        !(s.rowAssigned u c (span.1 + (k : Int))) || (again && !(s.rowAssigned u c (span.1 + (k : Int) + 2048)))) with
    | some k => haltG 0x03 (span.1 + (k : Int)) 2
    | none => none

/-- An operand span of a PROD in the SRAM tiers, outside master-weight and moment regions (R89, R126). -/
def State.operandHalt (s : State) (span : Int × Int) (field : Nat) : Option Halt :=
  rangeHalt span (spanSram span && !s.spanForbidden span) field

/-- Which auxiliary generators a PROD needs (Table 6.8). -/
def auxNeeds (w : Nat) : List GenRole :=
  [⟨fmtMX (pfTf w) || pfInt4 w, true⟩, ⟨fmtMX (pfSf w), false⟩, ⟨pfTf w == 13, true⟩, ⟨pfSparse w, true⟩]

/-- Bytes that the auxiliary generators address in one pass: scales, tables, zero points, metadata (R156). -/
def auxExtent (w k n g pitch : Nat) : Nat :=
  let rows := if g = 3 then (storedShape w k n).2 else n
  match g with
  | 1 => ceilDiv k 32
  | 0 =>
    if pfTf w = 12 then (if pfArrange w then ceilDiv n 128 else 1) * 16 * (fmtBits (pfTarget w) / 8)
    else if pfTf w = 13 then (rows - 1) * 64 * pitch + 2 * ceilDiv k (if pfArrange w then 128 else 32)
    else (rows - 1) * 64 * pitch + ceilDiv k 32
  | 2 => (rows - 1) * 64 * pitch + ceilDiv (ceilDiv k (if pfArrange w then 128 else 32)) 2
  | _ => (rows - 1) * 64 * pitch + ceilDiv (ceilDiv (if pfNorth w then n else k) 4) 2

/-- Bytes of one streamed vector's reach (direct or turned). -/
def streamExtent (w d k : Nat) : Nat :=
  if pfTurned w then (k - 1) * 64 * dPitch d 0 + fmtBytes (pfSf w) else ceilDiv (k * fmtBits (pfSf w)) 8

/-- Bytes of one stationary tile's reach. -/
def tileExtent (w d k n : Nat) : Nat :=
  let sh := storedShape w k n
  (sh.1 - 1) * 64 * dPitch d 1 + ceilDiv (sh.2 * fmtBits (pfTf w)) 8

/-- Ordinal ρ of a pass among the combinations of the reduction levels (R155). -/
def reductionOrdinal (w d p : Nat) : Nat :=
  let n := p * dTrip d 0
  ((List.range (dLevels d)).foldl (fun (acc : Nat × Nat) l =>
    if l ≥ 1 && pfReduces w l then (acc.1 + dIndex d n l * acc.2, acc.2 * dTrip d l) else acc) (0, 1)).1

/-- Reduction elements of a pass. -/
def passLength (w d p : Nat) : Nat :=
  if reductionOrdinal w d p + 1 = reductionPasses w d then pfLast w else (extents w).1

/-- A vector of a stash source that does not lie within one reservation (Table 6.8). -/
def State.stashSourceHalt (s : State) (w d : Nat) : Option Halt :=
  match (List.range (dCount d)).find? (fun n =>
      (tileAt s.stash.tiles 0 (dAddr d d 0 n) (streamExtent w d (passLength w d (n / max 1 (dTrip d 0))))).isNone) with
  | some n => haltG 0x03 (dAddr d d 0 n) 0
  | none => none

/-- A misaligned streamed vector: at every level, or at the first iteration of a pass when turned (R156). -/
def streamAlign (w d : Nat) : Option Halt :=
  if pfTurned w then
    (if dBase d 0 % 64 ≠ 0 then haltG 0x07 (dBase d 0 : Int) 0
    else match ((List.range (dLevels d)).drop 1).find? (fun l => decide (1 < dTrip d l) && dStride d 0 l % 64 ≠ 0) with
      | some l => haltG 0x07 (dStride d 0 l) 0
      | none => none)
  else alignHalt d d 0 64 0

/-- The checks of a PROD (R154 to R157), in the order of R143. -/
def State.prodChecks (s : State) (c w : Nat) (h : Header) (d a : Nat) : Option Halt :=
  let u := h.unit
  let fits := s.present u && isArray u
  let ex := extents w
  let k := passReach w d
  let needs := auxNeeds w
  let needed := needs.any (·.required)
  let sf := pfSf w
  let tf := pfTf w
  let tie := s.binding.ties.find? (fun g => g.number == pfTie w)
  firstHalt [
    reservedHalt (headerReserved w true ++ [reservedAt w 12 0,
      if pfInt4 w then reservedValue (pfExpand w == 3) 81 else reservedAt w 82 80,
      if fits && !isRecto u then reservedAt w 51 42 else none]),
    s.unitHalt 0x20 u,
    (match dRules d false with
      | some l => descHalt h.desc l
      | none => match dRoles d [⟨true, pfTurned w⟩, ⟨true, true⟩, ⟨true, false⟩, ⟨pfGate w, false⟩] with
        | some l => descHalt h.desc l
        | none => haltIf (dStride d 1 0 ≠ 0) (descHalt h.desc 0)),
    (if pfAuxOn w then
      (match dRules a true with
        | some l => descHalt (pfAux w) l
        | none => match dRoles a needs with
          | some l => descHalt (pfAux w) l
          | none => none)
    else haltIf needed (descHalt (pfAux w) 0xFF)),
    haltIf (!(fmtArray false sf && fmtArray true tf && pairOk sf (pfTarget w)) ||
        (pfTurned w && fmtMX sf) || (fmtMX tf && !pfNorth w) ||
        (pfSparse w && (fmtMX tf || pfTurned w)) ||
        ((fmtMX sf || fmtMX tf) && pfLast w % 32 ≠ 0)) (halt 0x08 (sf * 256 + tf * 16)),
    (if prodIdle w d then none else firstHalt [streamAlign w d, alignHalt d d 1 64 1,
      if pfGate w then alignHalt d d 3 4 3 else none]),
    haltIf (decide (ex.1 < pfLast w)) (halt 0x03 (pfLast w)),
    haltIf (decide (ex.2 < pfOut w)) (halt 0x03 (pfOut w)),
    haltIf (h.microBatch == noBatch && (pfStash w || pfSetOn w)) (halt 0x03 h.microBatch),
    haltIf (pfStash w && s.stash.slotCount == 0) (halt 0x03 h.microBatch),
    s.batchHalt h.microBatch,
    (if prodIdle w d then none else firstHalt [
      (if pfStash w then s.stashSourceHalt w d
        else s.operandHalt (dSpan d d 0 (streamExtent w d k)) 0),
      (let span := dSpan d d 1 (tileExtent w d k (pfOut w))
        if pfSetOn w then
          rangeHalt span (decide (0 ≤ span.1) && decide (span.2 ≤ ((s.wset (pfSet w)).size : Int))) 1
        else s.operandHalt span 1),
      (let north := pfSparse w && pfNorth w;
        s.rowHalt u c (dSpan d d 2 1) (if north then 2048 else 4096) (north && decide (256 < pfOut w))),
      (if pfGate w then s.operandHalt (dSpan d d 3 4) 3 else none),
      firstHalt ((List.range 4).map (fun g =>
        if (needs.getD g ⟨false, false⟩).required
        then s.operandHalt (dSpan d a g (auxExtent w k (pfOut w) g (dPitch a g))) (4 + g) else none))]),
    haltIf (s.strict && pfTie w ≠ 0 && decide ((match tie with
        | some g => g.uses
        | none => 0) ≤ pfUse w)) (halt 0x0E (pfTie w * 256 + pfUse w))]

/-! ### WOUT (Table 6.9) -/

def wfFmt (w : Nat) : Nat := bits w 95 92
def wfMask (w : Nat) : Nat := bits w 91 88
def wfDest (w : Nat) : Nat := bits w 87 86
def wfComp (w : Nat) : Nat := bits w 85 84
def wfCol (w : Nat) : Nat := bits w 83 76
def wfCols (w : Nat) : Nat := bits w 75 67
def wfTile (w : Nat) : Nat := bits w 66 55
def wfFolio (w : Nat) : Nat := bits w 66 51
def wfVc (w : Nat) : Nat := bits w 50 48
def wfTag (w : Nat) : Nat := bits w 47 36

/-- Items of a command whose level 0 iterates inside one item. -/
def itemCount (d : Nat) : Nat := if dCount d = 0 then 0 else dCount d / dTrip d 0

/-- Bytes of a write-out's mask (R437). -/
def maskBytes (src rows cols : Nat) : Nat :=
  match src with
  | 1 => 32
  | 2 => ceilDiv rows 8
  | _ => ceilDiv (rows * cols) 8

/-- The mask is addressed by G2. -/
def maskRead (src : Nat) : Bool := src == 1 || src == 2 || src == 3

/-- A context bound to a slice. -/
def State.ctxBound (s : State) (x slice : Nat) : Bool := (s.ctx x).declared && (s.ctx x).slice == slice

/-- A count that a context does not take (R213). -/
def Ctx.countWrong (x : Ctx) (n : Nat) : Bool := if x.stream then decide (x.elements < n) else n != x.elements

/-- A tile shape that a stash destination does not take (R116). -/
def State.tileWrong (s : State) (i rows cols fmt : Nat) : Bool :=
  match s.stash.tiles[i]? with
  | none => true
  | some (r, c, f) => decide (r < rows) || decide (c < cols) || f != fmt

/-- Runs no iteration or writes no column. -/
def woutIdle (w d : Nat) : Bool := dCount d == 0 || wfCols w == 0

/-- The checks of a WOUT (R158, R159, R213, R245, R437), in the order of R143. -/
def State.woutChecks (s : State) (c w : Nat) (h : Header) (d : Nat) : Option Halt :=
  let u := h.unit
  let dest := wfDest w
  let b := fmtBytes (wfFmt w)
  let rows := dTrip d 0
  let n := rows * wfCols w
  let x := s.ctx (wfTile w)
  let idle := woutIdle w d
  firstHalt [
    reservedHalt (headerReserved w true ++ [reservedAt w 35 0,
      reservedValue (decide (4 < wfMask w)) 88,
      if dest = 1 then none else reservedAt w 85 84,
      if dest = 0 then reservedAt w 66 55 else none,
      if dest = 3 then reservedValue (!(wfVc w == 4 || wfVc w == 5 || wfVc w == 6)) 48 else none]),
    s.unitHalt 0x21 u,
    (match dRules d false with
      | some l => descHalt h.desc l
      | none => match dRoles d [⟨true, false⟩, ⟨dest == 0, false⟩, ⟨maskRead (wfMask w), false⟩, ⟨false, false⟩] with
        | some l => descHalt h.desc l
        | none => haltIf (decide (256 < rows)) (descHalt h.desc 0)),
    haltIf (dest == 2 && !s.ctxBound (wfTile w) (quireOf u)) (halt 0x0D (wfTile w)),
    haltIf (dest == 3 && !(s.ctx (wfTag w)).declared) (halt 0x0D (wfTag w)),
    haltIf (!fmtNarrow (wfFmt w) || (dest == 2 && (x.sparse || wfFmt w != pIn x.collect))) (halt 0x08 (wfFmt w)),
    (if dest = 1 && !idle && s.stash.slotCount ≠ 0 then
      (match (List.range (itemCount d)).find? (fun k => s.tileWrong (wfTile w + k) rows (wfCols w) (wfFmt w)) with
        | some k => halt 0x09 ((wfTile w + k) * 2 ^ 32 + rows * 65536 + wfCols w)
        | none => none)
    else none),
    (if dest = 0 && dCount d ≠ 0 then alignHalt d d 1 (max 1 b) 1 else none),
    haltIf (decide (256 < wfCol w + wfCols w)) (halt 0x03 (wfCols w)),
    haltIf (dest == 3 && (wfFolio w == 0 || wfFolio w == 0xFFFF)) (halt 0x03 (wfFolio w)),
    haltIf (dest == 1 && h.microBatch == noBatch) (halt 0x03 h.microBatch),
    haltIf (dest == 1 && s.stash.slotCount == 0) (halt 0x03 h.microBatch),
    s.batchHalt h.microBatch,
    haltIf (dest == 2 && !idle && x.countWrong n) (halt 0x03 n),
    (if idle then none else firstHalt [
      (match s.rowHalt u c (dSpan d d 0 1) 4096 false with
        | some x => some { x with generator := 0 }
        | none => none),
      (let span := dSpan d d 1 (wfCols w * b)
        if dest = 0 then rangeHalt span (s.spanOpen span && !s.spanWeights span) 1 else none),
      (let span := dSpan d d 2 (maskBytes (wfMask w) rows (wfCols w))
        if maskRead (wfMask w) then rangeHalt span (spanSram span && !s.spanForbidden span) 2 else none)])]

/-! ### VOP and VRED (Tables 6.10, 6.12) -/

def vfFun (w : Nat) : Nat := bits w 95 90
/-- Source format 0, 1 or 2. -/
def vfSrc (w i : Nat) : Nat := bits w (89 - 4 * i) (86 - 4 * i)
def vfDst (w : Nat) : Nat := bits w 77 74
def vfImm (w : Nat) : Nat := bits w 73 42
def vfImmOn (w : Nat) : Bool := bit w 41
def vfKind (w : Nat) : Nat := bits w 40 39
def vfTile (w : Nat) : Nat := bits w 38 27
def vfSet (w : Nat) : Nat := bits w 38 31
def vfComp (w : Nat) : Nat := bits w 26 25
def vfStash (w : Nat) : Bool := bit w 24
def vfAux (w : Nat) : Nat := bits w 23 18
def vfAuxOn (w : Nat) : Bool := bit w 17

/-- The function uses a source through its generator. -/
def vopUses (w i : Nat) : Bool :=
  match i with
  | 0 => true
  | 1 => (vopSources (vfFun w) ≥ 2 || vfFun w == 0x13) && !vfImmOn w
  | _ => vopSources (vfFun w) ≥ 3 || vfFun w == 0x13

/-- A descriptor whose generator g takes no step along level 0: packed elements narrower than a byte lie along
level 0 from the address of its first element (DEDUCED, log entry 16). -/
def dFlat (d g : Nat) : Nat := setBits d (dGen g + 95) (dGen g + 64) 0

/-- The level-0 stride of contiguous elements: their size, and none where the packing itself takes the step (R161; the latter a
DESIGN CHOICE, log entry 16). -/
def contiguousStride (fmt : Nat) : Int := ((fmtBits fmt / 8 : Nat) : Int)

/-- The span of an element generator of a format. -/
def elementSpan (d g fmt : Nat) : Int × Int :=
  if fmtBits fmt < 8 then dSpan d (dFlat d g) g (ceilDiv (dTrip d 0 * fmtBits fmt) 8) else dSpan d d g (fmtBytes fmt)

/-- Which auxiliary generators a VOP needs: the scale arrays of its MX formats. -/
def vopAuxNeeds (w : Nat) : List GenRole :=
  [⟨fmtMX (vfSrc w 0), false⟩, ⟨vopUses w 1 && fmtMX (vfSrc w 1), false⟩,
   ⟨vopUses w 2 && fmtMX (vfSrc w 2), false⟩, ⟨fmtMX (vfDst w), false⟩]

/-- The scale arrays' reach: one byte for each 32 elements along level 0. -/
def scaleSpan (d a g : Nat) : Int × Int := dSpan d (dFlat a g) g (ceilDiv (dTrip d 0) 32)

/-- The checks of a VOP (R160 to R162), in the order of R143. -/
def State.vopChecks (s : State) (w : Nat) (h : Header) (d a : Nat) : Option Halt :=
  let kind := vfKind w
  let needs := vopAuxNeeds w
  let idle := dCount d == 0
  let x := s.wset (vfSet w)
  let isSource := fun i => vopUses w i
  firstHalt [
    reservedHalt (headerReserved w true ++ [reservedAt w 16 0, reservedValue (!vopKnown (vfFun w)) 90,
      reservedValue (kind == 3) 39, if kind = 2 then reservedAt w 30 27 else none]),
    s.unitHalt 0x30 h.unit,
    (match dRules d false with
      | some l => descHalt h.desc l
      | none => match dRoles d [⟨true, false⟩, ⟨isSource 1, false⟩, ⟨isSource 2, false⟩,
          ⟨if kind = 1 then dOn d 3 else true, false⟩] with
        | some l => descHalt h.desc l
        | none => haltIf (kind == 1 && dLevels d ≠ 2 && dLevels d ≠ 0) (descHalt h.desc 0xFF)),
    (if vfAuxOn w then
      (match dRules a true with
        | some l => descHalt (vfAux w) l
        | none => match dRoles a needs with
          | some l => descHalt (vfAux w) l
          | none => none)
    else haltIf (needs.any (·.required)) (descHalt (vfAux w) 0xFF)),
    haltIf (!fmtVector (vfSrc w 0) || (isSource 1 && !fmtVector (vfSrc w 1)) || (isSource 2 && !fmtVector (vfSrc w 2)) ||
        !fmtVector (vfDst w) ||
        (vfFun w == 0x14 && (!fmtMX (vfDst w) || dTrip d 0 % 32 ≠ 0 ||
          (kind ≠ 1 && dStride d 3 0 ≠ contiguousStride (vfDst w)))))
      (halt 0x08 (vfSrc w 0 * 16 + vfDst w)),
    (if kind = 1 && !idle && s.stash.slotCount ≠ 0 then
      haltIf (s.tileWrong (vfTile w) (dTrip d 1) (dTrip d 0) (vfDst w))
        (halt 0x09 (vfTile w * 2 ^ 32 + dTrip d 1 * 65536 + dTrip d 0))
    else none),
    (if idle then none else firstHalt ([0, 1, 2].map (fun i =>
        if isSource i then alignHalt d d i (max 1 (fmtBytes (vfSrc w i))) i else none) ++
      [if kind = 1 then none else alignHalt d d 3 (max 1 (fmtBytes (vfDst w))) 3])),
    haltIf (h.microBatch == noBatch && (kind == 1 || kind == 2 || vfStash w)) (halt 0x03 h.microBatch),
    haltIf ((kind == 1 || vfStash w) && s.stash.slotCount == 0) (halt 0x03 h.microBatch),
    s.batchHalt h.microBatch,
    haltIf (kind == 2 && !(x.updated && s.openAccepted (vfSet w) && !s.publishAccepted (vfSet w))) (halt 0x03 (vfSet w)),
    (if idle then none else firstHalt ([0, 1, 2].map (fun i =>
        if !isSource i then none
        else if i = 0 && vfStash w then
          (match (List.range (dCount d)).find? (fun n =>
              (tileAt s.stash.tiles 0 (dAddr d d 0 n) (max 1 (fmtBytes (vfSrc w 0)))).isNone) with
            | some n => haltG 0x03 (dAddr d d 0 n) 0
            | none => none)
        else rangeHalt (elementSpan d i (vfSrc w i)) (s.spanOpen (elementSpan d i (vfSrc w i))) i) ++
      [(let span := elementSpan d 3 (vfDst w)
        match kind with
        | 0 => rangeHalt span (s.spanOpen span && !s.spanWeights span) 3
        | 2 => rangeHalt span (decide (0 ≤ span.1) && decide (span.2 ≤ (x.size : Int))) 3
        | _ => none)] ++
      (List.range 4).map (fun g =>
        if (needs.getD g ⟨false, false⟩).required then
          rangeHalt (scaleSpan d a g) (s.spanOpen (scaleSpan d a g) && (g ≠ 3 || !s.spanWeights (scaleSpan d a g))) (4 + g)
        else none)))]

def rfSrc (w : Nat) : Nat := bits w 89 86
def rfDst (w : Nat) : Nat := bits w 85 82
/-- A reduced level. -/
def rfReduced (w l : Nat) : Bool := bit w (76 + l)

/-- Product of the reduced levels' trip counts. -/
def reducedTrips (w d : Nat) : Nat :=
  (List.range (dLevels d)).foldl (fun n l => if rfReduced w l then n * dTrip d l else n) 1

/-- The checks of a VRED (R163), in the order of R143. -/
def State.vredChecks (s : State) (w : Nat) (h : Header) (d : Nat) : Option Halt :=
  firstHalt [
    reservedHalt (headerReserved w true ++ [reservedAt w 75 0, reservedValue (decide (4 < vfFun w)) 90]),
    s.unitHalt 0x31 h.unit,
    (match dRules d false with
      | some l => descHalt h.desc l
      | none => match dRoles d [⟨true, false⟩, ⟨false, false⟩, ⟨false, false⟩, ⟨true, false⟩] with
        | some l => descHalt h.desc l
        | none => match (List.range (dLevels d)).find? (fun l => rfReduced w l && dStride d 3 l ≠ 0) with
          | some l => descHalt h.desc l
          | none => none),
    haltIf (!(fmtVector (rfSrc w) && fmtVector (rfDst w))) (halt 0x08 (rfSrc w * 16 + rfDst w)),
    haltIf (decide (65536 < reducedTrips w d)) (halt 0x03 (reducedTrips w d)),
    s.batchHalt h.microBatch,
    (if dCount d = 0 then none else firstHalt [
      rangeHalt (elementSpan d 0 (rfSrc w)) (s.spanOpen (elementSpan d 0 (rfSrc w))) 0,
      rangeHalt (elementSpan d 3 (rfDst w))
        (s.spanOpen (elementSpan d 3 (rfDst w)) && !s.spanWeights (elementSpan d 3 (rfDst w))) 3])]

/-! ### Stash, Collator, copy and frame commands (Tables 6.13, 6.14) -/

/-- A 32-bit value from a field or from a register. -/
def fieldOrReg (x : Core) (w hi lo on rhi rlo : Nat) : Nat :=
  if bit w on then x.reg (bits w rhi rlo) % 2 ^ 32 else bits w hi lo

/-- The checks of a CLAIM. -/
def State.claimChecks (s : State) (w : Nat) (h : Header) (v : Nat) : Option Halt :=
  firstHalt [reservedHalt (headerReserved w false ++ [reservedAt w 57 0]), s.unitHalt 0x40 h.unit,
    s.claimHalt h.microBatch v]

/-- The checks of a REL. -/
def State.relChecks (s : State) (w : Nat) (h : Header) : Option Halt :=
  firstHalt [reservedHalt (headerReserved w false ++ [reservedAt w 95 0]), s.unitHalt 0x41 h.unit, s.relHalt h.microBatch]

/-- An OPEN or a PUB with a micro-batch other than none: a reserved value of its field (R164). -/
def batchReserved (h : Header) : Option Nat := reservedValue (h.microBatch != noBatch) 105

/-- The checks of an OPEN. -/
def State.openChecks (s : State) (w : Nat) (h : Header) (v : Nat) : Option Halt :=
  firstHalt [reservedHalt (headerReserved w false ++ [reservedAt w 49 0, batchReserved h]),
    s.unitHalt 0x42 h.unit, s.openHalt (bits w 95 88) v]

/-- The checks of a PUB. -/
def State.pubChecks (s : State) (w : Nat) (h : Header) : Option Halt :=
  firstHalt [reservedHalt (headerReserved w false ++ [reservedAt w 87 0, batchReserved h]),
    s.unitHalt 0x43 h.unit, s.pubHalt (bits w 95 88)]

/-- Context field of CSTEP and CSUB. -/
def cfCtx (w : Nat) : Nat := bits w 95 84

/-- Item count of a CSTEP. -/
def cfItems (w : Nat) : Nat := bits w 45 30

/-- A memory destination's span that R237 refuses. -/
def State.emitSpanHalt (s : State) (x : Ctx) (n : Nat) : Option Halt :=
  firstHalt (x.memoryDests.map (fun d =>
    let b := bits d 47 0
    let span : Int × Int := ((b : Int), ((b + n * x.slotSize : Nat) : Int))
    let inRange := if b < sramEnd then spanSram span
      else decide ((lpddrBase : Int) ≤ span.1) && decide (span.2 ≤ (s.stagingBase : Int))
    haltIf (n ≠ 0 && !(inRange && !s.spanWeights span && !s.spanForbidden span)) (halt 0x03 b)))

/-- The checks of a CSTEP (R166, R237). -/
def State.cstepChecks (s : State) (w : Nat) (h : Header) : Option Halt :=
  firstHalt [reservedHalt (headerReserved w false ++ [reservedAt w 29 0]), s.unitHalt 0x50 h.unit,
    haltIf (!s.ctxBound (cfCtx w) (h.unit % 16)) (halt 0x0D (cfCtx w)), s.batchHalt h.microBatch,
    s.emitSpanHalt (s.ctx (cfCtx w)) (cfItems w)]

/-- The checks of a CSUB (R166, R213). -/
def State.csubChecks (s : State) (w : Nat) (h : Header) (d : Nat) : Option Halt :=
  let x := s.ctx (cfCtx w)
  firstHalt [
    reservedHalt (headerReserved w true ++ [reservedAt w 63 0]), s.unitHalt 0x51 h.unit,
    (match dRules d false with
      | some l => descHalt h.desc l
      | none => match dRoles d [⟨true, false⟩, ⟨false, false⟩, ⟨false, false⟩, ⟨false, false⟩] with
        | some l => descHalt h.desc l
        | none => none),
    haltIf (!s.ctxBound (cfCtx w) (h.unit % 16)) (halt 0x0D (cfCtx w)),
    haltIf (!fmtNarrow (bits w 83 80) || bits w 83 80 != pIn x.collect) (halt 0x08 (bits w 83 80 * 16)),
    s.batchHalt h.microBatch,
    haltIf (dCount d ≠ 0 && x.countWrong (dTrip d 0)) (halt 0x03 (dTrip d 0)),
    (if dCount d = 0 then none else
      let span := dSpan d d 0 x.entryBytes
      rangeHalt span (s.spanOpen span) 0)]

/-- The checks of a COPY (R167). -/
def State.copyChecks (s : State) (w : Nat) (h : Header) (d : Nat) : Option Halt :=
  let src := dSpan d d 0 64
  let dst := dSpan d d 1 64
  firstHalt [
    reservedHalt (headerReserved w true ++ [reservedAt w 95 0]), s.unitHalt 0x60 h.unit,
    (match dRules d false with
      | some l => descHalt h.desc l
      | none => match dRoles d [⟨true, false⟩, ⟨true, false⟩, ⟨false, false⟩, ⟨false, false⟩] with
        | some l => descHalt h.desc l
        | none => none),
    (if dCount d = 0 then none else firstHalt [alignHalt d d 0 64 0, alignHalt d d 1 64 1]), s.batchHalt h.microBatch,
    (if dCount d = 0 then none else firstHalt [
      rangeHalt src (s.spanOpen src) 0,
      rangeHalt dst (s.spanOpen dst && !s.spanWeights dst) 1])]

def ffFolio (w : Nat) : Nat := bits w 95 80
def ffVc (w : Nat) : Nat := bits w 79 77
def ffTag (w : Nat) : Nat := bits w 76 65

/-- The checks of an FSEND (R167, R245). -/
def State.fsendChecks (s : State) (w : Nat) (h : Header) (d : Nat) : Option Halt :=
  let src := dSpan d d 0 64
  let x := s.ctx (ffTag w)
  let n := 64 * dTrip d 0
  firstHalt [
    reservedHalt (headerReserved w true ++ [reservedAt w 64 0,
      reservedValue (!(ffVc w == 4 || ffVc w == 5 || ffVc w == 6)) 77]),
    s.unitHalt 0x61 h.unit,
    (match dRules d false with
      | some l => descHalt h.desc l
      | none => match dRoles d [⟨true, false⟩, ⟨false, false⟩, ⟨false, false⟩, ⟨false, false⟩] with
        | some l => descHalt h.desc l
        | none => haltIf (decide (128 < dTrip d 0)) (descHalt h.desc 0)),
    (if dCount d = 0 then none else alignHalt d d 0 64 0),
    haltIf (ffFolio w == 0 || ffFolio w == 0xFFFF) (halt 0x03 (ffFolio w)), s.batchHalt h.microBatch,
    haltIf (!x.declared) (halt 0x03 (ffTag w)),
    (if dCount d = 0 then none else firstHalt [rangeHalt src (s.spanOpen src) 0,
      haltIf (n % max 1 x.entryBytes ≠ 0) (halt 0x03 n)])]

/-! ### Entry into a queue -/

/-- A send: a WOUT with a frame destination, or an FSEND (R245). -/
def isSend (opcode w : Nat) : Bool := opcode == 0x61 || (opcode == 0x21 && wfDest w == 3)

/-- The sending context of a send. -/
def sendTag (opcode w : Nat) : Nat := if opcode = 0x61 then ffTag w else wfTag w

/-- Items of a send. -/
def sendItems (opcode w d : Nat) : Nat := if opcode = 0x21 && wfCols w = 0 then 0 else itemCount d

/-- A command enters its queue (R142): a send takes its three values and the cursor advances (R245); a stash command
that is not held and is first in its queue is recorded at once. -/
def State.accept (s : State) (c : Cmd) : State :=
  let x := s.core c.core
  let first := !s.cores.cmds.any (fun k => k.core == c.core && k.unit == c.unit && k.unstarted)
  let c := { c with serial := x.serial, behind := x.syncIssued, order := s.cores.nextOrder }
  let tag := sendTag c.opcode c.word
  let y := s.ctx tag
  let send := isSend c.opcode c.word
  let c := if send then { c with values := [y.group, y.current, y.cursor] } else c
  let s := if send then
      s.setCtx tag { y with cursor := (y.cursor + sendItems c.opcode c.word c.primary) % 65536 } else s
  let s := { s with cores := { s.cores with cmds := s.cores.cmds ++ [c], nextOrder := s.cores.nextOrder + 1 } }
  let s := s.setCore c.core { s.core c.core with serial := x.serial + 1 }
  if c.opcode / 16 = 4 && first && !s.heldCmd c then s.recordStash c else s

/-- A command as it is checked at issue. -/
def Cmd.make (core : Nat) (w : Nat) (h : Header) (primary auxiliary : Nat) (values : List Nat) : Cmd where
  core := core
  unit := h.unit
  opcode := wOp w
  serial := 0
  word := w
  microBatch := h.microBatch
  primary := primary
  auxiliary := auxiliary
  values := values
  behind := 0
  order := 0
  phase := .queued
  status := 0
  cause := 0
  next := 0
  failed := []
  sentItems := []
  counts := Counts.zero
  skipped := 0
  audited := 0
  mispredicted := 0
  skips := 0
  skipRows := []
  reached := []
  fouled := []
  faultAt := none
  waited := false

/-- Issue a checked command: a full queue stalls a principal core and halts a subordinate one with 0x04 (R142). -/
def State.issue (s : State) (c w : Nat) (h : Header) (primary auxiliary : Nat) (values : List Nat)
    (bad : Option Halt) : State :=
  s.orHalt c w h.unit h.microBatch bad (fun s =>
    let k := Cmd.make c w h primary auxiliary values
    if (s.queueOf c h.unit).length < 64 then (s.accept k).advance c w (s.nextPc c) none
    else if principal c then s.setCore c { s.core c with stalled := some k }
    else s.orHalt c w h.unit h.microBatch (halt 0x04 (s.depthWord c h.unit)) (fun s => s))

/-- What every command instruction does: its header and descriptors are read, its checks made, and it is issued. -/
def State.onCommand (s : State) (c : CoreId) (opcode : Nat) (values : Core → Nat → List Nat)
    (check : State → Nat → Header → Nat → Nat → List Nat → Option Halt) (auxOf : Nat → Option Nat) : State :=
  s.onInstr c opcode false (fun s w =>
    let x := s.core c
    let h := header x w
    let d := fget 0 x.descs h.desc
    let a := match auxOf w with
      | some k => fget 0 x.descs k
      | none => 0
    let v := values x w
    s.issue c w h d a v (check s w h d a v))

/-- PROD (R154 to R157). -/
def execProd (c : CoreId) (s : State) : Out :=
  s.ends (s.onCommand c 0x20 (fun x w => [x.reg (pfTheta w) % 2 ^ 32]) (fun s w h d a _ => s.prodChecks c w h d a)
    (fun w => if pfAuxOn w then some (pfAux w) else none))

/-- WOUT (R158, R159). -/
def execWout (c : CoreId) (s : State) : Out :=
  s.ends (s.onCommand c 0x21 (fun _ _ => []) (fun s w h d _ _ => s.woutChecks c w h d) (fun _ => none))

/-- VOP (R160 to R162). -/
def execVop (c : CoreId) (s : State) : Out :=
  s.ends (s.onCommand c 0x30 (fun _ _ => []) (fun s w h d a _ => s.vopChecks w h d a)
    (fun w => if vfAuxOn w then some (vfAux w) else none))

/-- VRED (R163). -/
def execVred (c : CoreId) (s : State) : Out :=
  s.ends (s.onCommand c 0x31 (fun _ _ => []) (fun s w h d _ _ => s.vredChecks w h d) (fun _ => none))

/-- CLAIM: its value is the version named. -/
def execClaim (c : CoreId) (s : State) : Out :=
  s.ends (s.onCommand c 0x40 (fun x w => [fieldOrReg x w 95 64 63 62 58]) (fun s w h _ _ v => s.claimChecks w h (v.headD 0))
    (fun _ => none))

/-- REL. -/
def execRel (c : CoreId) (s : State) : Out :=
  s.ends (s.onCommand c 0x41 (fun _ _ => []) (fun s w h _ _ _ => s.relChecks w h) (fun _ => none))

/-- OPEN: its value is the version named. -/
def execOpenSet (c : CoreId) (s : State) : Out :=
  s.ends (s.onCommand c 0x42 (fun x w => [fieldOrReg x w 87 56 55 54 50]) (fun s w h _ _ v => s.openChecks w h (v.headD 0))
    (fun _ => none))

/-- PUB. -/
def execPub (c : CoreId) (s : State) : Out :=
  s.ends (s.onCommand c 0x43 (fun _ _ => []) (fun s w h _ _ _ => s.pubChecks w h) (fun _ => none))

/-- CSTEP: its value is the sequence number. -/
def execCstep (c : CoreId) (s : State) : Out :=
  s.ends (s.onCommand c 0x50 (fun x w => [fieldOrReg x w 83 52 51 50 46]) (fun s w h _ _ _ => s.cstepChecks w h)
    (fun _ => none))

/-- CSUB. -/
def execCsub (c : CoreId) (s : State) : Out :=
  s.ends (s.onCommand c 0x51 (fun _ _ => []) (fun s w h d _ _ => s.csubChecks w h d) (fun _ => none))

/-- COPY. -/
def execCopy (c : CoreId) (s : State) : Out :=
  s.ends (s.onCommand c 0x60 (fun _ _ => []) (fun s w h d _ _ => s.copyChecks w h d) (fun _ => none))

/-- FSEND: its three values are taken on entry to the queue (R245). -/
def execFsend (c : CoreId) (s : State) : Out :=
  s.ends (s.onCommand c 0x61 (fun _ _ => []) (fun s w h d _ _ => s.fsendChecks w h d) (fun _ => none))

/-- QUEUE_STALL_RELEASE: a stalled principal core issues once the queue has a free entry (R142). -/
def execQueueStallRelease (c : CoreId) (s : State) : Out :=
  let x := s.core c
  s.ends (match x.stalled with
    | none => s
    | some k =>
      if 64 ≤ (s.queueOf c k.unit).length || x.run ≠ .running then s
      else ((s.setCore c { x with stalled := none }).accept k).advance c k.word (s.nextPc c) none)

end Sys2Proof.Machine
end

