-- ==== Sys2Proof/Machine/Product.lean ====
section
/-!
DEFINITION. Sys2Proof/Machine/Product.lean: the stash's tiles as bytes (R116 to R118), and one pass of a product instruction
(R48, R49, R60 to R71, R85 to R91, R97, R102, R103, R109, R110, R155, R156).
-/
namespace Sys2Proof.Machine

/-! ### Stash tiles -/

/-- The fields of a stash tile header (Table 5.1). -/
structure TileHeader where
  check : Nat
  batch : Nat
  stored : Nat
  rows : Nat
  cols : Nat
  fmt : Nat
  packed : Bool
  method : Bool
  deriving DecidableEq, Repr

/-- Read a header from its 16 bytes. -/
def TileHeader.decode (h : Nat) : TileHeader :=
  ⟨bits h 127 96, bits h 95 64, bits h 63 32, bits h 31 23, bits h 22 14, bits h 13 10, bit h 9, bit h 8⟩

/-- The 16 bytes of a header. -/
def TileHeader.encode (h : TileHeader) : Bytes :=
  leBytes 16 (h.check * 2 ^ 96 + h.batch * 2 ^ 64 + h.stored * 2 ^ 32 + h.rows * 2 ^ 23 + h.cols * 2 ^ 14 +
    h.fmt * 2 ^ 10 + b2n h.packed * 2 ^ 9 + b2n h.method * 2 ^ 8)

/-- The header of a tile that nothing has written. -/
def TileHeader.blank : TileHeader := ⟨0, noBatch, 0, 0, 0, 0, false, false⟩

/-- Bytes that a row of columns occupies. -/
def rowBytes (cols fmt : Nat) : Nat := ceilDiv (cols * fmtBits fmt) 8

/-- A unit of zero-run coding is zero. -/
def zeroUnit (u : Bytes) : Bool := u.all (· == 0)

/-- Consecutive units of one kind, in order, at most 32,767 to a record. -/
def unitRuns : List Bytes → List (Bool × List Bytes)
  | [] => []
  | u :: us =>
    match unitRuns us with
    | [] => [(zeroUnit u, [u])]
    | (z, r) :: t => if z == zeroUnit u then (z, u :: r) :: t else (zeroUnit u, [u]) :: (z, r) :: t

/-- Records of one run: counts of 32,767 but for the last. -/
def runRecords (z : Bool) : Nat → List Bytes → Bytes
  | 0, _ => []
  | k + 1, us =>
    let n := min 32767 us.length
    if n = 0 then []
    else leBytes 2 (n + b2n z * 0x8000) ++ (if z then [] else (us.take n).flatMap (fun u => u)) ++ runRecords z k (us.drop n)

/-- The first k units of 32 bytes. -/
def unitsOf : Nat → Bytes → List Bytes
  | 0, _ => []
  | k + 1, bs => bs.take 32 :: unitsOf k (bs.drop 32)

/-- Zero-run coding of a dense payload (R117). -/
def zeroRunCode (dense : Bytes) : Bytes :=
  (unitRuns (unitsOf (dense.length / 32) dense)).flatMap (fun r => runRecords r.1 (r.2.length / 32767 + 1) r.2)

/-- Undo zero-run coding: records until n bytes are out. -/
def zeroRunExpand : Nat → Nat → Bytes → Bytes
  | 0, _, _ => []
  | k + 1, n, bs =>
    if n = 0 || bs.length < 2 then []
    else
      let w := leAt bs 0 2
      let c := 32 * (w % 0x8000)
      if bit w 15 then zeros (min c n) ++ zeroRunExpand k (n - c) (bs.drop 2)
      else (bs.drop 2).take (min c n) ++ zeroRunExpand k (n - c) (bs.drop (2 + c))

/-- Positions of a group of four that hold a nonzero code. -/
def groupNonzero (g : List Nat) : List Nat := (List.range 4).filter (fun i => g.getD i 0 ≠ 0)

/-- The two kept positions of a group, in ascending order: nonzero ones, then the lowest unused. -/
def keptPositions (g : List Nat) : List Nat :=
  let nz := groupNonzero g
  let more := ((List.range 4).filter (fun i => !nz.contains i)).take (2 - nz.length)
  (List.range 4).filter (fun i => nz.contains i || more.contains i)

/-- The groups of four of a row of codes. -/
def groupsOf4 : Nat → List Nat → List (List Nat)
  | 0, _ => []
  | k + 1, cs => cs.take 4 :: groupsOf4 k (cs.drop 4)

/-- 2:4 packing of rows of codes (R117): two values of each group, row-major, then one position code per group. -/
def pack24 (w : Nat) (rows : List (List Nat)) : Bytes :=
  let gs := rows.flatMap (fun r => groupsOf4 (ceilDiv r.length 4) r)
  let vals := gs.flatMap (fun g => (keptPositions g).map (fun i => g.getD i 0))
  let codes := gs.map (fun g => let p := keptPositions g; p.getD 0 0 + 4 * p.getD 1 0)
  packCodes w vals ++ packCodes 4 codes

/-- Undo 2:4 packing: the codes of `rows` rows of `cols` columns. -/
def unpack24 (w rows cols : Nat) (bs : Bytes) : List (List Nat) :=
  let per := ceilDiv cols 4
  let total := rows * per
  let base := ceilDiv (total * 2 * w) 8
  (List.range rows).map (fun r => ((List.range (4 * per)).map (fun c =>
    let g := r * per + c / 4
    let code := packedAt (bs.drop base) 4 g
    if code % 4 = c % 4 then packedAt bs w (2 * g)
    else if code / 4 = c % 4 then packedAt bs w (2 * g + 1)
    else 0)).take cols)

/-- Rows of codes as a dense payload at a pitch. -/
def denseRows (fmt pitch : Nat) (rows : List (List Nat)) : Bytes :=
  rows.flatMap (fun r => slice (packCodes (fmtBits fmt) r) 0 pitch)

/-- The element bytes of rows of codes, without padding (R116): what the tile check covers. -/
def elementBytes (fmt : Nat) (rows : List (List Nat)) : Bytes := rows.flatMap (packCodes (fmtBits fmt))

/-- Choose the stored form of a tile whose declared column count is `cols` (R117): packed flag, method, payload. -/
def compressTile (comp fmt pitch cols : Nat) (rows : List (List Nat)) : Bool × Bool × Bytes :=
  let w := fmtBits fmt
  let dense := denseRows fmt pitch rows
  let eligible := bit comp 1 && (w == 8 || w == 16) && cols % 4 == 0 &&
    rows.all (fun r => (groupsOf4 (ceilDiv r.length 4) r).all (fun g => decide ((groupNonzero g).length ≤ 2)))
  let p := pack24 w rows
  let z := zeroRunCode dense
  let best := if eligible && decide (p.length < dense.length) then (true, true, p) else (false, false, dense)
  if bit comp 0 && decide (z.length < best.2.2.length) then (true, false, z) else best

/-- The declared shape of tile i. -/
def State.tileShape (s : State) (i : Nat) : Nat × Nat × Nat := s.stash.tiles.getD i (0, 0, 0)

/-- Read a stash tile (R118): the dense bytes of its reservation, or the cause of the failure. -/
def State.readTile (s : State) (m i unit : Nat) : State × Except Nat Bytes :=
  let t := s.tileShape i
  let size := tileSize t
  let pitch := tilePitch t.2.1 t.2.2
  let r := s.readMem (s.tileHeader m i) 16 .unit unit
  let s := r.1
  let h := TileHeader.decode (leNat r.2.1)
  if r.2.2.isSome then (s, .error 1)
  else if h.batch ≠ m then (s, .error 4)
  else if h.fmt ≠ t.2.2 || h.rows = 0 || t.1 < h.rows || h.cols = 0 || t.2.1 < h.cols || size < h.stored then (s, .error 5)
  else
    let r := s.readMem (s.tilePayload m i) h.stored .unit unit
    let s := r.1
    let w := fmtBits h.fmt
    let rows : List (List Nat) :=
      if h.packed && h.method then unpack24 w h.rows h.cols r.2.1
      else
        let dense := if h.packed then zeroRunExpand (size + 1) (h.rows * pitch) r.2.1 else r.2.1
        (List.range h.rows).map (fun i => (List.range h.cols).map (fun j => packedAt (slice dense (i * pitch) pitch) w j))
    if r.2.2.isSome then (s, .error 1)
    else if crc32c (elementBytes h.fmt rows) ≠ h.check then (s, .error 2)
    else (s, .ok (slice (denseRows h.fmt pitch rows) 0 size))

/-- Write a stash tile (R116, R117): payload, then header; the counts of Table 5.3 and of the slot. -/
def State.writeTile (s : State) (m i comp fmt unit : Nat) (rows : List (List Nat)) : State :=
  let t := s.tileShape i
  let pitch := tilePitch t.2.1 t.2.2
  let best := compressTile comp fmt pitch t.2.1 rows
  let h : TileHeader := ⟨crc32c (elementBytes fmt rows), m, best.2.2.length, rows.length, (rows.headD []).length, fmt,
    best.1, best.2.1⟩
  let s := s.writeMem (s.tilePayload m i) best.2.2 unit
  let s := s.writeMem (s.tileHeader m i) h.encode unit
  let k := s.slotOf m
  let x := s.slot k
  let s := s.setSlot k { x with tiles := min (x.tiles + 1) 0xFFFF }
  let s := s.count (if !best.1 then 0x5035 else if best.2.1 then 0x5037 else 0x5036) 0 1
  s.count 0x5038 0 (rows.length * pitch - best.2.2.length)

/-! ### Operands of a pass -/

/-- Note a fault of a product: the earliest iteration, then the lowest cause (R157). -/
def Cmd.fault (c : Cmd) (n cause : Nat) : Cmd :=
  match c.faultAt with
  | none => { c with faultAt := some (n, cause) }
  | some (m, k) => if n < m || (n = m && cause < k) then { c with faultAt := some (n, cause) } else c

/-- The least cause of several. -/
def leastCause : List (Option Nat) → Option Nat
  | [] => none
  | some a :: t => (match leastCause t with
    | some b => some (min a b)
    | none => some a)
  | none :: t => leastCause t

/-- Iterations of one pass: the stream level. -/
def streamTrips (d : Nat) : Nat := dTrip d 0

/-- Passes of a product (R155). -/
def passesOf (d : Nat) : Nat := dCount d / max 1 (dTrip d 0)

/-- Base of the buffer that a weight-set operand reads (R126). -/
def State.setBase (s : State) (c : Cmd) : Nat :=
  let x := s.wset (pfSet c.word)
  x.base (s.pinned c.microBatch (pfSet c.word))

/-- The stationary tile of a pass: its rows of codes, and whether a word was uncorrectable. -/
def State.readStationary (s : State) (c : Cmd) (p k : Nat) : State × List (List Nat) × Bool :=
  let w := c.word
  let d := c.primary
  let a := dAddr d d 1 (p * dTrip d 0) + (if pfSetOn w then (s.setBase c : Int) else 0)
  let sh := storedShape w k (pfOut w)
  let b := fmtBits (pfTf w)
  let n := ceilDiv (sh.2 * b) 8
  let r := (List.range sh.1).foldl (fun (acc : State × List (List Nat) × Bool) i =>
    let r := acc.1.readMem (a.toNat + i * 64 * dPitch d 1) n .unit c.unit
    (r.1, (List.range sh.2).map (fun j => packedAt r.2.1 b j) :: acc.2.1, acc.2.2 || r.2.2.isSome)) (s, [], false)
  (r.1, r.2.1.reverse, r.2.2)

/-- Address of an auxiliary generator at a pass. -/
def auxAddr (c : Cmd) (g n : Nat) : Nat := (dAddr c.primary c.auxiliary g n).toNat

/-- Rows of auxiliary bytes at the pitch of a generator: n rows of m bytes. -/
def State.readAux (s : State) (c : Cmd) (g iter n m : Nat) : State × List Bytes × Bool :=
  let r := (List.range n).foldl (fun (acc : State × List Bytes × Bool) i =>
    let r := acc.1.readMem (auxAddr c g iter + i * 64 * dPitch c.auxiliary g) m .unit c.unit
    (r.1, r.2.1 :: acc.2.1, acc.2.2 || r.2.2.isSome)) (s, [], false)
  (r.1, r.2.1.reverse, r.2.2)

/-- A 4-bit position code names two positions in ascending order (R102). -/
def codeOk (c : Nat) : Bool := decide (c % 4 < c / 4)

/-- Auxiliary data of a pass. -/
structure AuxData where
  scales : List Bytes
  zeros : List Bytes
  codes : List Bytes
  bad : Bool
  deriving DecidableEq, Repr

/-- Read the auxiliary data of a pass (Table 6.8). -/
def State.readAuxData (s : State) (c : Cmd) (p k : Nat) : State × AuxData :=
  let w := c.word
  let n := pfOut w
  let it := p * dTrip c.primary 0
  let grp := if pfArrange w then 128 else 32
  let tb := 16 * (fmtBits (pfTarget w) / 8)
  let r0 := if fmtMX (pfTf w) then s.readAux c 0 it n (ceilDiv k 32)
    else if pfTf w = 13 then s.readAux c 0 it n (2 * ceilDiv k grp)
    else if pfTf w = 12 then
      (let t := if pfArrange w then ceilDiv n 128 else 1
       let r := s.readMem (auxAddr c 0 it) (t * tb) .unit c.unit
       (r.1, (List.range t).map (fun g => slice r.2.1 (g * tb) tb), r.2.2.isSome))
    else (s, [], false)
  let r2 := if pfTf w = 13 then r0.1.readAux c 2 it n (ceilDiv (ceilDiv k grp) 2) else (r0.1, [], false)
  let r3 := if pfSparse w then
      r2.1.readAux c 3 it (storedShape w k n).2 (ceilDiv (ceilDiv (if pfNorth w then n else k) 4) 2)
    else (r2.1, [], false)
  (r3.1, ⟨r0.2.1, r2.2.1, r3.2.1, r0.2.2 || r2.2.2 || r3.2.2⟩)

/-- Every metadata code of a pass is in order (R102). -/
def metaOk (w k : Nat) (x : AuxData) : Bool :=
  !pfSparse w || x.codes.all (fun row =>
    (List.range (ceilDiv (if pfNorth w then pfOut w else k) 4)).all (fun g => codeOk (packedAt row 4 g)))

/-- The stored code of the weight at reduction element e and output o; none where 2:4 sparsity pruned it. -/
def storedCode (w : Nat) (tile : List (List Nat)) (x : AuxData) (e o : Nat) : Option Nat :=
  let at' := fun i j => (tile.getD i []).getD j 0
  if !pfSparse w then some (if pfNorth w then at' o e else at' e o)
  else
    let dense := if pfNorth w then o else e
    let col := if pfNorth w then e else o
    let code := packedAt (x.codes.getD col []) 4 (dense / 4)
    if code % 4 = dense % 4 then some (at' (2 * (dense / 4)) col)
    else if code / 4 = dense % 4 then some (at' (2 * (dense / 4) + 1) col)
    else none

/-- The weight at (e, o) as an exact value, with the event that its expansion counts (R48, R49, R60). -/
def weightAt (w : Nat) (tile : List (List Nat)) (x : AuxData) (e o : Nat) : Val × Event :=
  match storedCode w tile x e o with
  | none => (.num false 0 0, .none)
  | some q =>
    let t := (fmtElt (pfTarget w)).getD .fp16
    if pfTf w = 12 then
      (let b := fmtBits (pfTarget w) / 8
       (t.decode (leAt (x.scales.getD (if pfArrange w then o / 128 else 0) []) (q * b) b), .none))
    else if pfTf w = 13 then
      (let g := e / (if pfArrange w then 128 else 32)
       let r := int4Expand q (packedAt (x.zeros.getD o []) 4 g) (leAt (x.scales.getD o []) (2 * g) 2) t
       (t.decode r.1, match r.2 with | .saturated => .saturated | .flushed => .flushed | _ => .none))
    else (t.decode q, .none)

/-- One streamed vector: its codes, and the cause of a failure. -/
def State.readVector (s : State) (c : Cmd) (n k : Nat) (tiles : FMap (Except Nat Bytes)) :
    State × FMap (Except Nat Bytes) × List Nat × Option Nat :=
  let w := c.word
  let d := c.primary
  let b := fmtBits (pfSf w)
  let step := 64 * dPitch d 0
  let a := dAddr d d 0 n
  if pfStash w then
    match tileAt s.stash.tiles 0 a (streamExtent w d k) with
    | none => (s, tiles, [], some 5)
    | some (i, o) =>
      let r : State × FMap (Except Nat Bytes) × Except Nat Bytes :=
        match tiles.find? (fun e => e.1 == i) with
        | some e => (s, tiles, e.2)
        | none =>
          let r := s.readTile c.microBatch i c.unit
          (r.1, (i, r.2) :: tiles, r.2)
      match r.2.2 with
      | .error e => (r.1, r.2.1, [], some e)
      | .ok bs =>
        let at' := fun j => if pfTurned w then leAt bs (o + j * step) (b / 8) else packedAt (bs.drop o) b j
        (r.1, r.2.1, (List.range k).map at', none)
  else if pfTurned w then
    let r := (List.range k).foldl (fun (acc : State × List Nat × Bool) j =>
      let r := acc.1.readMem (a.toNat + j * step) (b / 8) .unit c.unit
      (r.1, leNat r.2.1 :: acc.2.1, acc.2.2 || r.2.2.isSome)) (s, [], false)
    (r.1, tiles, r.2.1.reverse, if r.2.2 then some 1 else none)
  else
    let r := s.readMem a.toNat (ceilDiv (k * b) 8) .unit c.unit
    (r.1, tiles, (List.range k).map (fun j => packedAt r.2.1 b j), if r.2.2.isSome then some 1 else none)

/-- One group of products of an output element: its scaled sum and the invalid operations it counts (R59 to R65). -/
def groupOf (w : Nat) (xs ws : List Val) (sa sb : Option Nat) : Val × Nat :=
  let e := fun s => match s with
    | none => some 0
    | some c => scaleExp c
  match e sa, e sb with
  | some a, some b =>
    let ps := (xs.zip ws).map (fun p => mulVal p.1 p.2)
    let inv := (ps.filter (·.2)).length
    let t1 := (fmtElt (pfSf w)).getD .fp16
    let t2 := (fmtElt (pfTarget w)).getD .fp16
    let g := groupSum (windowOf t1 t2) (ps.map (·.1))
    (g.1.scale (a + b), inv + b2n g.2)
  | _, _ => (.nan, 0)

/-- Where output o of a vector goes: row and column (R92, R103). -/
def outputCell (w r o : Nat) : Nat × Nat :=
  if pfSparse w && pfNorth w then (r + 2048 * (o / 256), o % 256) else (r, o)

/-- Rows that a vector writes. -/
def outputRows (w r : Nat) : List Nat :=
  if pfSparse w && pfNorth w && 256 < pfOut w then [r, r + 2048] else [r]

/-- Poison the rows of a vector (R97). -/
def State.foul (s : State) (c : Cmd) (rows : List Nat) : State × Cmd :=
  rows.foldl (fun (acc : State × Cmd) r =>
    let s := if acc.1.rowPoison c.unit r then acc.1 else (acc.1.setRowPoison c.unit r true).idxBump 0x5012 c.unit 31 0 1
    (s, if acc.2.fouled.contains r then acc.2 else { acc.2 with fouled := r :: acc.2.fouled })) (s, c)

/-- A row is written by overwrite for the first time in this instruction: its poison goes, unless this instruction set
it (R97). -/
def State.reachRow (s : State) (c : Cmd) (r : Nat) : State × Cmd :=
  if c.reached.contains r then (s, c)
  else
    (if !pfAccumulate c.word && !c.fouled.contains r then s.setRowPoison c.unit r false else s,
      { c with reached := r :: c.reached })

/-- Add one output element's groups to its entry (R69, R70). -/
def addGroups (first : Bool) (a : Nat) : List (Val × Nat) → Nat × Counts → Nat × Counts
  | [], acc => acc
  | g :: gs, acc =>
    let o := addGroup (if first then none else some a) g.1
    addGroups false o.1 gs (o.1, (acc.2.add o.2).invalidBy g.2)

/-- One streamed vector goes through the array: every output element of its row. -/
def State.runVector (s : State) (c : Cmd) (r k : Nat) (xs : List Val) (sx : Nat → Option Nat)
    (wt : List (List Val)) (sw : Nat → Nat → Option Nat) : State × Cmd :=
  let w := c.word
  let fresh := !pfAccumulate w && !c.reached.contains r
  let groups := (List.range (ceilDiv k 32))
  let out := (List.range (pfOut w)).foldl (fun (acc : State × Counts) o =>
    let col := wt.getD o []
    let gs := groups.map (fun g => groupOf w ((xs.drop (32 * g)).take 32) ((col.drop (32 * g)).take 32) (sx g) (sw g o))
    let cell := outputCell w r o
    let a := acc.1.acc c.unit cell.1 cell.2
    let res := addGroups fresh a gs (a, acc.2)
    (acc.1.setAcc c.unit cell.1 cell.2 res.1, res.2)) (s, c.counts)
  (outputRows w r).foldl (fun acc r => State.reachRow acc.1 acc.2 r) (out.1, { c with counts := out.2 })

/-- One streamed vector with its scale words: codes, scales, and the lowest cause of a failure among them (R157). -/
def State.readStreamed (s : State) (c : Cmd) (n k : Nat) (tiles : FMap (Except Nat Bytes)) :
    State × FMap (Except Nat Bytes) × List Nat × Bytes × Option Nat :=
  let v := s.readVector c n k tiles
  let q := if fmtMX (pfSf c.word) then v.1.readMem (auxAddr c 1 n) (ceilDiv k 32) .unit c.unit else (v.1, [], none)
  (q.1, v.2.1, v.2.2.1, q.2.1, leastCause [v.2.2.2, if q.2.2.isSome then some 1 else none])

/-- Write +0 to the entries that a vector of row r writes (R92, R109, R110). -/
def State.zeroRow (s : State) (c : Cmd) (r : Nat) : State :=
  (List.range (pfOut c.word)).foldl (fun s o =>
    State.setAcc s c.unit (outputCell c.word r o).1 (outputCell c.word r o).2 accZero) s

/-- The rows of a vector are written (R97). -/
def State.reachRows (s : State) (c : Cmd) (r : Nat) : State × Cmd :=
  (outputRows c.word r).foldl (fun acc r => State.reachRow acc.1 acc.2 r) (s, c)

/-! ### Row gating (R109, R110) -/

/-- |x| < theta, both FP32 codes; false where either is a NaN. -/
def below (x theta : Nat) : Bool :=
  match Elt.fp32.decode x, Elt.fp32.decode theta with
  | .nan, _ => false
  | _, .nan => false
  | a, b => cmpVal a.abs b == .lt && !(a.isZero && b.isZero)

/-- The gate's decision for one row at the first reduction pass of a block. A score in an uncorrectable word poisons the row
and fails the product with cause 1, and the row is streamed (log entry 32). -/
def State.gateRow (s : State) (c : Cmd) (n : Nat) : State × Cmd :=
  let w := c.word
  let d := c.primary
  let r := (dAddr d d 2 n).toNat
  let q := s.readMem (dAddr d d 3 n).toNat 4 .unit c.unit
  let s := q.1
  if q.2.2.isSome then
    (let f := s.foul c (outputRows w r)
     (f.1, f.2.fault n 1))
  else if !below (leNat q.2.1) (c.values.headD 0) then (s, c)
  else
    let k := pfAudit w
    let audited := c.skips % 2 ^ k == 2 ^ k - 1
    let c := { c with skips := c.skips + 1, skipped := c.skipped + 1, audited := c.audited + b2n audited,
                      skipRows := c.skipRows ++ [(n % dTrip d 0, r, audited)] }
    if audited then (s, c) else (s.zeroRow c r).reachRows c r

/-- At the end of a block: audited rows are judged and written +0. -/
def State.closeAudits (s : State) (c : Cmd) : State × Cmd :=
  let theta := Elt.fp32.decode (c.values.headD 0)
  let r := c.skipRows.foldl (fun (acc : State × Nat) e =>
    if !e.2.2 then acc
    else
      let vs := (List.range (pfOut c.word)).map (fun o =>
        accValue (acc.1.acc c.unit (outputCell c.word e.2.1 o).1 (outputCell c.word e.2.1 o).2))
      let miss := vs.any (fun v => v.isNan || (!theta.isNan && cmpVal v.abs theta != .lt))
      (acc.1.zeroRow c e.2.1, acc.2 + b2n miss)) (s, c.mispredicted)
  (r.1, { c with mispredicted := r.2, skipRows := [] })

/-- One pass (R155): its stationary tile is loaded and every row of the stream level goes through the array, but for those that
the gate skips. A vector that fails, and every row of a tile that does, is poisoned, and nothing is added to it (R97, log
entry 32). A metadata code out of order adds nothing to any row of the pass (R102); its cause stands against those that the
first vector of the pass meets (R157). -/
def State.runPass (s : State) (c : Cmd) : State × Cmd :=
  let w := c.word
  let d := c.primary
  let p := c.next
  let m := dTrip d 0
  let k := passLength w d p
  let rho := reductionOrdinal w d p
  let n0 := p * m
  let st := s.readStationary c p k
  let ax := st.1.readAuxData c p k
  let s := ax.1
  let g := if pfGate w && rho = 0 then
      (List.range m).foldl (fun (acc : State × Cmd) i => acc.1.gateRow acc.2 (n0 + i)) (s, { c with skipRows := [] })
    else (s, c)
  let s := g.1
  let c := g.2
  let streamed := (List.range m).filter (fun i => !c.skipRows.any (fun e => e.1 == i && !e.2.2))
  let s := s.count 0x5010 c.unit streamed.length
  let r : State × Cmd :=
    if st.2.2 || ax.2.bad then
      (let f := s.foul c (streamed.flatMap (fun i => outputRows w (dAddr d d 2 (n0 + i)).toNat))
       (f.1, f.2.fault n0 1))
    else if !metaOk w k ax.2 then
      (let q := s.readStreamed c n0 k []
       if streamed.contains 0 then (q.1, c.fault n0 (min 3 (q.2.2.2.2.getD 3))) else (s, c.fault n0 3))
    else
      let ws := (List.range (pfOut w)).map (fun o => (List.range k).map (fun e => weightAt w st.2.1 ax.2 e o))
      let c := { c with counts := ws.foldl (fun n col => col.foldl (fun n x => n.add x.2) n) c.counts }
      let wt := ws.map (fun col => col.map (·.1))
      let sw := fun g o => if fmtMX (pfTf w) then some ((ax.2.scales.getD o []).getD g 0).toNat else none
      let t := (fmtElt (pfSf w)).getD .fp16
      let out := streamed.foldl (fun (acc : State × Cmd × FMap (Except Nat Bytes)) i =>
        let n := n0 + i
        let row := (dAddr d d 2 n).toNat
        let v := acc.1.readStreamed acc.2.1 n k acc.2.2
        match v.2.2.2.2 with
        | some x =>
          let f := v.1.foul acc.2.1 (outputRows w row)
          (f.1, f.2.fault n x, v.2.1)
        | none =>
          let sx := fun g => if fmtMX (pfSf w) then some (v.2.2.2.1.getD g 0).toNat else none
          let o := v.1.runVector acc.2.1 row k (v.2.2.1.map t.decode) sx wt sw
          (o.1, o.2, v.2.1)) (s, c, [])
      (out.1, out.2.1)
  let r := if pfGate w && rho + 1 = reductionPasses w d then r.1.closeAudits r.2 else r
  (r.1, { r.2 with next := p + 1 })

/-- Entries that hold NaN when a product completes (R56): over the rows and columns it wrote. -/
def State.nanEntries (s : State) (c : Cmd) : Nat :=
  let w := c.word
  let cols := fun r => if pfSparse w && pfNorth w && 256 < pfOut w then (if r < 2048 then min 256 (pfOut w) else pfOut w - 256) else pfOut w
  c.reached.foldl (fun n r => n + ((List.range (cols r)).filter (fun o => (accValue (s.acc c.unit r o)).isNan)).length) 0

end Sys2Proof.Machine
end

