-- ==== Sys2Proof/Machine/Items.lean ====
section
/-!
DEFINITION. Sys2Proof/Machine/Items.lean: what the other unit commands compute: the items of write-outs (R72, R98 to R100, R437),
vector operations and reductions (R73, R74, R160 to R163), copies and the items of sends (R167).
-/
namespace Sys2Proof.Machine

/-! ### Write-out items -/

/-- What a write-out made of one item. -/
structure ItemOut where
  rows : List (Option (List Nat))   -- codes by row; none: a poisoned row
  kept : List (List Bool)           -- the mask, by row
  bad : List Bool                   -- an uncorrectable mask word, by row
  counts : Counts
  deriving DecidableEq, Repr

/-- Some row failed: its mask met an uncorrectable word, or it was poisoned (R98). -/
def ItemOut.failed (o : ItemOut) : Bool := o.bad.any (· == true) || o.rows.any (·.isNone)

/-- Row i failed. -/
def ItemOut.rowFailed (o : ItemOut) (i : Nat) : Bool := o.bad.getD i false || (o.rows.getD i none).isNone

/-- First mask bit that stands for row i of an item, and how many (R437). -/
def maskSpan (src w i cols : Nat) : Nat × Nat :=
  match src with
  | 1 => (wfCol w, cols)
  | 2 => (i, 1)
  | _ => (i * cols, cols)

/-- The mask of an item, by row and column, and the rows whose bits lie in an uncorrectable word (R98, R99, R437). A column
mask is read only where the item's columns lie. -/
def State.readMask (s : State) (c : Cmd) (n0 rows cols : Nat) : State × List (List Bool) × List Bool :=
  let w := c.word
  let src := wfMask w
  let all := fun (f : Nat → Nat → Bool) => (List.range rows).map (fun i => (List.range cols).map (fun j => f i j))
  if src = 0 then (s, all (fun _ _ => true), [])
  else if src = 4 then
    let pairs : List (Nat × Nat) := [(0, 1), (0, 2), (0, 3), (1, 2), (1, 3), (2, 3)]
    (s, all (fun i j =>
      let p := pairs.getD (Config.patternOpen w c.primary (n0 + i) j % 6) (0, 1)
      p.1 == i % 4 || p.2 == i % 4), [])
  else
    let a := (dAddr c.primary c.primary 2 n0).toNat
    let from' := if src = 1 then wfCol w / 8 else 0
    let size := if src = 1 then (wfCol w + cols - 1) / 8 - from' + 1 else maskBytes src rows cols
    let r := s.readMem (a + from') size .unit c.unit
    let b := fun k => bit (leAt r.2.1 (k / 8 - from') 1) (k % 8)
    (r.1, all (fun i j => b ((maskSpan src w i cols).1 + (if src = 2 then 0 else j))),
      (List.range rows).map (fun i =>
        let m := maskSpan src w i cols
        s.spanBad (a + m.1 / 8) ((m.1 + m.2 - 1) / 8 - m.1 / 8 + 1)))

/-- Convert one item (R72): masked elements count nothing (R100). -/
def State.convertItem (s : State) (c : Cmd) (item : Nat) : State × ItemOut :=
  let w := c.word
  let d := c.primary
  let rows := dTrip d 0
  let cols := wfCols w
  let n0 := item * rows
  let m := s.readMask c n0 rows cols
  let t := (fmtElt (wfFmt w)).getD .fp32
  let out := (List.range rows).map (fun i =>
    let r := (dAddr d d 0 (n0 + i)).toNat
    if s.rowPoison c.unit r then none
    else some ((List.range cols).map (fun j => t.convert (accValue (s.acc c.unit r (wfCol w + j))))))
  let counts := (out.zip m.2.1).foldl (fun n p => match p.1 with
    | none => n
    | some es => (es.zip p.2).foldl (fun n e => if e.2 then n.add e.1.2 else n) n) Counts.zero
  (m.1, ⟨out.map (fun r => r.map (fun es => es.map (·.1))), m.2.1, m.2.2, counts⟩)

/-- Codes of a row after its mask: masked elements are what `old` holds. -/
def mergeRow (new old : List Nat) (kept : List Bool) : List Nat :=
  (List.range new.length).map (fun j => if kept.getD j true then new.getD j 0 else old.getD j 0)

/-- State of an item's stores: the bytes it carries and those found stored, row by row from the last, where they lie, and
whether a row failed. -/
structure StoreRun where
  carried : List Bytes
  stored : List Bytes
  spans : List (Nat × Nat)
  failed : Bool
  deriving DecidableEq, Repr

/-- Store one row of an item through the write port. -/
def State.storeRow (s : State) (a unit : Nat) (bs : Bytes) (x : StoreRun) : State × StoreRun :=
  let t := s.writeBack a bs unit
  (t.1, ⟨bs :: x.carried, t.2 :: x.stored, (a, bs.length) :: x.spans, x.failed⟩)

/-- A write-out item stored at memory: its check, and the cause of its failure (R98, R100, R322). A row fails alone where
it is poisoned, or where its mask bits or its old elements lie in an uncorrectable word. -/
def State.storeItem (s : State) (c : Cmd) (item : Nat) (o : ItemOut) : State × Nat × Option Nat :=
  let w := c.word
  let d := c.primary
  let n0 := item * dTrip d 0
  let b := fmtBits (wfFmt w)
  let cols := wfCols w
  let r := ((List.range o.rows.length).foldl (fun (acc : State × StoreRun) i =>
    let a := (dAddr d d 1 (n0 + i)).toNat
    if o.rowFailed i then (acc.1, { acc.2 with failed := true })
    else
      let new := (o.rows.getD i none).getD []
      if wfMask w = 0 then acc.1.storeRow a c.unit (packCodes b new) acc.2
      else
        let q := acc.1.readMem a (cols * b / 8) .unit c.unit
        if q.2.2.isSome then (q.1, { acc.2 with failed := true })
        else q.1.storeRow a c.unit
          (packCodes b (mergeRow new ((List.range cols).map (fun j => packedAt q.2.1 b j)) (o.kept.getD i []))) acc.2)
    (s, ⟨[], [], [], false⟩))
  let carried := r.2.carried.reverse.flatMap (fun b => b)
  let t := r.1.checkStored r.2.spans (r.2.stored.reverse.flatMap (fun b => b)) carried
  (t.1, crc32c carried, if r.2.failed then some 1 else if t.2 then none else some 2)

/-- A write-out item stored as a stash tile: rows that fail, and masked elements, keep the tile's previous contents. -/
def State.stashItem (s : State) (c : Cmd) (item : Nat) (o : ItemOut) : State × Nat × Bool :=
  let w := c.word
  let i := wfTile w + item
  let fmt := wfFmt w
  let t := s.tileShape i
  let pitch := tilePitch t.2.1 t.2.2
  let poisoned := o.failed
  let q : State × Bytes :=
    if wfMask w = 0 && !poisoned then (s, [])
    else
      let r := s.readTile c.microBatch i c.unit
      match r.2 with
      | .ok bs => (r.1, bs)
      | .error _ =>
        let p := r.1.readMem (r.1.tilePayload c.microBatch i) (tileSize t) .unit c.unit
        (p.1, p.2.1)
  let old := fun k => (List.range (wfCols w)).map (fun j => packedAt (q.2.drop (k * pitch)) (fmtBits fmt) j)
  let rows := (List.range o.rows.length).map (fun k =>
    if o.rowFailed k then old k else mergeRow ((o.rows.getD k none).getD []) (old k) (o.kept.getD k []))
  (q.1.writeTile c.microBatch i (wfComp w) fmt c.unit rows, crc32c (elementBytes fmt rows), poisoned)

/-- The payload of a Collator or frame destination: masked elements are +0. -/
def itemPayload (w : Nat) (o : ItemOut) : Bytes :=
  ((o.rows.zip o.kept).flatMap (fun p => packCodes (fmtBits (wfFmt w))
    (mergeRow (p.1.getD []) [] p.2)))

/-- An item failed: it is noted with its cause and counters, and its digest is made. -/
def State.itemFailed (s : State) (c : Cmd) (item cause : Nat) (k : Counts) : State × Cmd :=
  (s.digest c item true cause 0,
    { c with failed := c.failed ++ [(item, cause, k)], counts := c.counts.plus k })

/-- An item completed OK. -/
def State.itemOk (s : State) (c : Cmd) (item check : Nat) (k : Counts) : State × Cmd :=
  (s.digest c item false 0 check, { c with counts := c.counts.plus k })

/-! ### Vector unit operands -/

/-- Where element code i of a packed or plain operand lies: address and bit offset. Elements narrower than a byte lie
packed along level 0 (log entry 16). -/
def elementAt (d g fmt n : Nat) : Int × Nat :=
  if fmtBits fmt < 8 then
    let i := dIndex d n 0
    let o := if fmtBits fmt = 6 then 6 * i else 4 * i
    (dAddr d (dFlat d g) g n + (o / 8 : Nat), o % 8)
  else (dAddr d d g n, 0)

/-- Bytes that hold one element. -/
def elementBytesAt (fmt off : Nat) : Nat := (off + fmtBits fmt + 7) / 8

/-- Read one element code; whether a word was uncorrectable. -/
def State.readElement (s : State) (d g fmt n base unit : Nat) : State × Nat × Bool :=
  let e := elementAt d g fmt n
  let r := s.readMem (e.1 + base).toNat (elementBytesAt fmt e.2) .unit unit
  (r.1, leNat r.2.1 / 2 ^ e.2 % 2 ^ fmtBits fmt, r.2.2.isSome)

/-- One byte of a scale array: the block of 32 elements along level 0. -/
def State.readScale (s : State) (d a g n unit : Nat) : State × Nat × Bool :=
  let r := s.readMem (dAddr d (dFlat a g) g n + (dIndex d n 0 / 32 : Nat)).toNat 1 .unit unit
  (r.1, leNat r.2.1, r.2.2.isSome)

/-- A source of a VOP at iteration n as an exact value: its code under its block scale, and the cause of a failure. -/
def State.vopSource (s : State) (c : Cmd) (i n : Nat) : State × Val × Option Nat :=
  let w := c.word
  let d := c.primary
  let fmt := vfSrc w i
  let t := (fmtElt fmt).getD .fp32
  if i = 1 && vfImmOn w then (s, Elt.fp32.decode (vfImm w), none)
  else if !vopUses w i then (s, .num false 0 0, none)
  else
    let r : State × Nat × Option Nat :=
      if i = 0 && vfStash w then
        let e := elementAt d 0 fmt n
        match tileAt s.stash.tiles 0 e.1 (elementBytesAt fmt e.2) with
        | none => (s, 0, some 5)
        | some (k, o) =>
          let q := s.readTile c.microBatch k c.unit
          match q.2 with
          | .error e => (q.1, 0, some e)
          | .ok bs => (q.1, leAt bs o (elementBytesAt fmt e.2) / 2 ^ e.2 % 2 ^ fmtBits fmt, none)
      else
        let q := s.readElement d i fmt n 0 c.unit
        (q.1, q.2.1, if q.2.2 then some 1 else none)
    let v := t.decode r.2.1
    if fmtMX fmt then
      let q := r.1.readScale d c.auxiliary i n c.unit
      (q.1, v.underScale q.2.1, match r.2.2 with
        | some e => some e
        | none => if q.2.2 then some 1 else none)
    else (r.1, v, r.2.2)

/-- Base that G3 of a VOP counts from: an open buffer, or nothing. -/
def State.vopBase (s : State) (c : Cmd) : Nat :=
  let x := s.wset (vfSet c.word)
  if vfKind c.word = 2 then x.base x.target else 0

/-- Write one element code: whole bytes, or the bits of a packed element among its neighbours. -/
def State.writeElement (s : State) (d g fmt n base code unit : Nat) : State :=
  let e := elementAt d g fmt n
  let a := (e.1 + base).toNat
  if fmtBits fmt < 8 then
    let k := elementBytesAt fmt e.2
    let r := s.readMem a k .unit unit
    r.1.writeMem a (leBytes k (setBits (leNat r.2.1) (e.2 + fmtBits fmt - 1) e.2 code)) unit
  else s.writeMem a (leBytes (fmtBytes fmt) code) unit

/-- State of a VOP as it runs: the results in order, counters, first cause. -/
structure VecRun where
  codes : List Nat
  bytes : Bytes
  counts : Counts
  cause : Option Nat
  deriving DecidableEq, Repr

/-- One elementwise result before its conversion: the value, whether it was invalid, and whether it saturated or flushed on
the way, in the function or in a source (R56, R161). -/
structure VopOut where
  value : Val
  invalid : Bool
  early : Event
  deriving DecidableEq, Repr

/-- The counters of an element: an invalid operation, and its conversion's event over what came before it. -/
def VopOut.count (o : VopOut) (k : Counts) (final : Event) : Counts :=
  (if o.invalid then k.add .invalid else k).element o.early final

/-- One elementwise result, and the cause of a failure of its sources (R161). -/
def State.vopElement (s : State) (c : Cmd) (n : Nat) : State × VopOut × Option Nat :=
  let a := s.vopSource c 0 n
  let b := a.1.vopSource c 1 n
  let e := b.1.vopSource c 2 n
  let f := vfFun c.word
  let x := widen a.2.1
  let y := widen b.2.1
  let z := widen e.2.1
  let plain := f == 0x00 || f == 0x14
  let o := if plain then (x.1, false, false) else vopRun f x.1 y.1 z.1
  (e.1, ⟨o.1, o.2.1, firstEvent [if o.2.2 then .flushed else .none, x.2, y.2, z.2]⟩, leastCause [a.2.2, b.2.2, e.2.2])

/-- Where a failed element's result would go, nothing is written; the others are (R17, R81). -/
def State.vopIterate (s : State) (c : Cmd) : State × VecRun :=
  let w := c.word
  let d := c.primary
  let fmt := vfDst w
  let t := (fmtElt fmt).getD .fp32
  let base := s.vopBase c
  (List.range (dCount d)).foldl (fun (acc : State × VecRun) n =>
    let r := acc.1.vopElement c n
    let x := acc.2
    match r.2.2 with
    | some e => (r.1, { x with counts := r.2.1.count x.counts .none, codes := x.codes ++ [0], cause := leastCause [x.cause, some e] })
    | none =>
      let o := t.convert r.2.1.value
      let s := if vfKind w = 1 then r.1 else r.1.writeElement d 3 fmt n base o.1 c.unit
      (s, ⟨x.codes ++ [o.1], x.bytes ++ leBytes (max 1 (fmtBytes fmt)) o.1, r.2.1.count x.counts o.2, x.cause⟩))
    (s, ⟨[], [], Counts.zero, none⟩)

/-- A VOP with an MX destination: blocks of 32 along level 0 (R53, R54). Only QMX is held to whole blocks (R161): another
function's last block may be shorter, and counts its own elements (log entry 16). -/
def State.vopBlocks (s : State) (c : Cmd) : State × VecRun :=
  let w := c.word
  let d := c.primary
  let fmt := vfDst w
  let t := (fmtElt fmt).getD .fp32
  let base := s.vopBase c
  let m := dTrip d 0
  let per := ceilDiv m 32
  (List.range (dCount d / max 1 m * per)).foldl (fun (acc : State × VecRun) b =>
    let n0 := b / per * m + b % per * 32
    let len := min 32 (m - b % per * 32)
    let r := (List.range len).foldl (fun (q : State × List VopOut × Option Nat) i =>
      let e := q.1.vopElement c (n0 + i)
      (e.1, q.2.1 ++ [e.2.1], leastCause [q.2.2, e.2.2])) (acc.1, [], none)
    let x := acc.2
    match r.2.2 with
    | some e =>
      (r.1, { x with
        counts := r.2.1.foldl (fun k v => v.count k .none) x.counts,
        codes := x.codes ++ List.replicate len 0, cause := leastCause [x.cause, some e] })
    | none =>
      let o := mxQuantize t (r.2.1.map (·.value))
      let s := r.1.writeMem (dAddr d (dFlat c.auxiliary 3) 3 n0 + (b % per : Nat)).toNat [BitVec.ofNat 8 o.1] c.unit
      let s := if vfKind w = 1 then s
        else (List.range len).foldl (fun s i => State.writeElement s d 3 fmt (n0 + i) base (o.2.1.getD i 0) c.unit) s
      (s, ⟨x.codes ++ o.2.1, x.bytes ++ packCodes (fmtBits fmt) o.2.1 ++ [BitVec.ofNat 8 o.1],
        (r.2.1.zip o.2.2).foldl (fun k v => v.1.count k v.2) x.counts, x.cause⟩)) (s, ⟨[], [], Counts.zero, none⟩)

/-- A whole VOP (R160 to R162). -/
def State.runVop (s : State) (c : Cmd) : State × VecRun :=
  let w := c.word
  let d := c.primary
  let r := if fmtMX (vfDst w) then s.vopBlocks c else s.vopIterate c
  if vfKind w = 1 && dCount d ≠ 0 && r.2.cause.isNone then
    let rows := (List.range (dTrip d 1)).map (fun i => (r.2.codes.drop (i * dTrip d 0)).take (dTrip d 0))
    (r.1.writeTile c.microBatch (vfTile w) (vfComp w) (vfDst w) c.unit rows,
      { r.2 with bytes := elementBytes (vfDst w) rows })
  else r

/-! ### Reductions (R74, R163) -/

/-- The kept combinations of a VRED: the iterations at which every reduced level stands at 0. -/
def keptFirsts (w d : Nat) : List Nat :=
  (List.range (dCount d)).filter (fun n => (List.range (dLevels d)).all (fun l => !rfReduced w l || dIndex d n l == 0))

/-- The iterations of one result: same kept indices. -/
def reducedOf (w d n0 : Nat) : List Nat :=
  (List.range (dCount d)).filter (fun n => (List.range (dLevels d)).all (fun l => rfReduced w l || dIndex d n l == dIndex d n0 l))

/-- One result of a VRED before its conversion; of the squares and sources that flushed or saturated on the way it counts one
(R56). -/
def reduceVals (f : Nat) (xs : List (Val × Event)) : VopOut :=
  let early := firstEvent (xs.map (·.2))
  let vs := xs.map (·.1)
  match f with
  | 0x01 => ⟨selectValue (vs.foldl (selectAdd true) Elem.fresh), false, early⟩
  | 0x02 => ⟨selectValue (vs.foldl (selectAdd false) Elem.fresh), false, early⟩
  | 0x03 => ⟨selectValue ((vs.map Val.abs).foldl (selectAdd true) Elem.fresh), false, early⟩
  | _ =>
    let ys := if f = 0x04 then vs.map (fun x => vopRun 0x03 x x x) else vs.map (fun x => (x, false, false))
    let r := collateValue ((ys.map (·.1)).foldl collateAdd Elem.fresh)
    ⟨r.1, r.2, if ys.any (·.2.2) then .flushed else early⟩

/-- The sources of one result of a VRED, widened, and whether a word was uncorrectable. The scale of an MX block is a free
value, one for each 32 consecutive iterations (log entry 16). -/
def State.vredSources (s : State) (c : Cmd) (n0 : Nat) : State × List (Val × Event) × Bool :=
  let w := c.word
  let d := c.primary
  let src := rfSrc w
  let t := (fmtElt src).getD .fp32
  (reducedOf w d n0).foldl (fun (q : State × List (Val × Event) × Bool) n =>
    let e := q.1.readElement d 0 src n 0 c.unit
    let v := t.decode e.2.1
    (e.1, q.2.1 ++ [widen (if fmtMX src then v.underScale (Config.scaleOpen w d (n / 32) % 256) else v)], q.2.2 || e.2.2))
    (s, [], false)

/-- One block of results: those of an MX format are quantized together and each written under the block's scale, which no
operand of Table 6.12 stores (R53, R54, log entry 16); a block with a failed result writes none. -/
def State.vredBlock (s : State) (c : Cmd) (x : VecRun) (ns : List Nat) : State × VecRun :=
  let w := c.word
  let d := c.primary
  let fmt := rfDst w
  let o := (fmtElt fmt).getD .fp32
  let r := ns.foldl (fun (acc : State × List VopOut × Bool) n0 =>
    let q := acc.1.vredSources c n0
    (q.1, acc.2.1 ++ [reduceVals (vfFun w) q.2.1], acc.2.2 || q.2.2)) (s, [], false)
  if r.2.2 then (r.1, { x with cause := leastCause [x.cause, some 1] })
  else
    let vs := r.2.1
    let cs : List Nat × List Event := if fmtMX fmt then (mxQuantize o (vs.map (·.value))).2
      else (vs.map (fun v => (o.convert v.value).1), vs.map (fun v => (o.convert v.value).2))
    let t := (ns.zip cs.1).foldl (fun s e => State.writeElement s d 3 fmt e.1 0 e.2 c.unit) r.1
    (t, ⟨x.codes ++ cs.1,
      x.bytes ++ (if fmtMX fmt then packCodes (fmtBits fmt) cs.1 else cs.1.flatMap (leBytes (max 1 (fmtBytes fmt)))),
      (vs.zip cs.2).foldl (fun k v => v.1.count k v.2) x.counts, x.cause⟩)

/-- A list in runs of n, by so many steps of fuel. -/
def runsOf (n : Nat) : Nat → List Nat → List (List Nat)
  | 0, _ => []
  | k + 1, xs => if xs.isEmpty then [] else xs.take n :: runsOf n k (xs.drop n)

/-- A whole VRED (R163): results one by one, or in blocks of 32 consecutive results for an MX format. -/
def State.runVred (s : State) (c : Cmd) : State × VecRun :=
  let firsts := keptFirsts c.word c.primary
  (runsOf (if fmtMX (rfDst c.word) then 32 else 1) firsts.length firsts).foldl
    (fun (acc : State × VecRun) ns => acc.1.vredBlock c acc.2 ns) (s, ⟨[], [], Counts.zero, none⟩)

/-! ### Copies and sends (R167) -/

/-- Read one item of a COPY or FSEND: its bytes, and whether a word was uncorrectable. -/
def State.readUnits (s : State) (c : Cmd) (item : Nat) : State × Bytes × Bool :=
  let d := c.primary
  (List.range (dTrip d 0)).foldl (fun (acc : State × Bytes × Bool) i =>
    let r := acc.1.readMem (dAddr d d 0 (item * dTrip d 0 + i)).toNat 64 .unit c.unit
    (r.1, acc.2.1 ++ r.2.1, acc.2.2 || r.2.2.isSome)) (s, [], false)

/-- One 64-byte unit of a COPY: stored as it was read, and each word whose source is uncorrectable as poison (R318). -/
def State.copyUnit (s : State) (src dst unit : Nat) (x : StoreRun) : State × StoreRun :=
  let r := s.readMem src 64 .unit unit
  let t := r.1.storeRow dst unit r.2.1 x
  ((List.range 4).foldl (fun u j =>
    if s.spanBad (src + 16 * j) 16 then State.poisonMem u (dst + 16 * j) 16 else u) t.1,
    { t.2 with failed := t.2.failed || r.2.2.isSome })

/-- One item of a COPY: read and written unit by unit; a word that is uncorrectable is stored as poison and fails the item
(R167, R318, R322). -/
def State.copyItem (s : State) (c : Cmd) (item : Nat) : State × Cmd :=
  let d := c.primary
  let r := (List.range (dTrip d 0)).foldl (fun (acc : State × StoreRun) i =>
    let n := item * dTrip d 0 + i
    State.copyUnit acc.1 (dAddr d d 0 n).toNat (dAddr d d 1 n).toNat c.unit acc.2) (s, ⟨[], [], [], false⟩)
  let carried := r.2.carried.reverse.flatMap (fun b => b)
  if r.2.failed then r.1.itemFailed c item 1 Counts.zero
  else
    let t := r.1.checkStored r.2.spans (r.2.stored.reverse.flatMap (fun b => b)) carried
    if t.2 then t.1.itemOk c item (crc32c carried) Counts.zero else t.1.itemFailed c item 2 Counts.zero

/-- A whole COPY. -/
def State.runCopy (s : State) (c : Cmd) : State × Cmd :=
  (List.range (itemCount c.primary)).foldl (fun acc i => State.copyItem acc.1 acc.2 i) (s, c)

end Sys2Proof.Machine
end

