-- ==== Sys2Proof/Machine/Route.lean ====
section
/-!
DEFINITION. Sys2Proof/Machine/Route.lean: forwarding by folio address (R208, R209, R267, R268) and local delivery of compute
frames.
-/
namespace Sys2Proof.Machine

/-- Route slots. -/
def routeSlots : Nat := 16384

/-- Value of route slot n (Table 11.2). -/
def State.routeSlot (s : State) (n : Nat) : Nat := s.idx (0x4400 + n / 256) (n % 256)

/-- Path count of a slot. -/
def slotPaths (v : Nat) : Nat := bits v 34 32

/-- Port of path k. -/
def slotPort (v k : Nat) : Nat := bits v (8 * k + 7) (8 * k)

/-- The listed route slots: only these differ from the empty slot. -/
def State.listedSlots (s : State) : List (Nat × Nat) :=
  (s.index.filter (fun e => decide (256 * 0x4400 ≤ e.1) && decide (e.1 < 256 * 0x4440))).map
    (fun e => (e.1 - 256 * 0x4400, e.2))

/-- The slot that holds an address with a nonzero path count (R267). -/
def State.slotFor (s : State) (address : Nat) : Option Nat :=
  (s.listedSlots.find? (fun e => slotPaths e.2 ≠ 0 && bits e.2 63 48 == address)).map (·.2)

/-- Usable ports of a slot, in path order: their links are up (R268). -/
def State.usable (s : State) (v : Nat) : List Nat :=
  ((List.range (slotPaths v)).map (slotPort v)).filter (fun p => (s.port p).up)

/-- The path that a frame takes (R268). -/
def State.choosePath (s : State) (f : Frame) (ports : List Nat) : Option Nat :=
  match ports with
  | [] => none
  | p :: ps =>
    if f.vc = 7 then some p
    else if s.strict then ports[((f.source ^^^ f.destination ^^^ (f.group % 65536)) % ports.length)]?
    else some (ps.foldl (fun b q =>
      if ((s.port q).queue f.vc).depth < ((s.port b).queue f.vc).depth then q else b) p)

/-- The port toward an address, or none where it is unroutable. -/
def State.routeTo (s : State) (f : Frame) : Option Nat :=
  match s.slotFor f.destination with
  | none => none
  | some v => s.choosePath f (s.usable v)

/-- The folio holds a role in a proof pair. -/
def State.paired (s : State) : Bool := s.idx 0x8010 0 ≠ 0

/-- The proof port (0x8012.00). -/
def State.proofPort (s : State) : Nat := s.idx 0x8012 0

/-- Deliver a compute frame on the folio (R208, R209): to the slice of the context that holds its group, else it is
discarded and counted. -/
def State.deliverCompute (s : State) (f : Frame) : State :=
  match s.groupCtx f.group with
  | some x => { s with switch := { s.switch with fragments := s.switch.fragments ++ [((s.ctx x).slice, f)] } }
  | none => (s.freeFrame f).count 0x6007 0 1

/-- A locally delivered frame that is copied to the partner (R377, R399). -/
def State.copiesToPartner (s : State) (f : Frame) : Bool :=
  s.paired && f.inPort != s.proofPort &&
    (s.idx 0x8010 0 == 1 || (s.proof.phase == 6 && f.destination == s.proof.place))

/-- Send a compute frame that the folio built: it is delivered here, with a copy for the partner of a pair, queued on a path, or
unroutable (R267, R377); whether it goes on. -/
def State.sendFrame (s : State) (f : Frame) : State × Bool :=
  if f.destination = s.address then
    (if s.copiesToPartner f then ((s.deliverCompute f).enqueue s.proofPort { f with sender := none, emitter := none }).1
      else s.deliverCompute f, true)
  else match s.routeTo f with
    | none => ((s.freeFrame f).count 0x4007 0 1, false)
    | some p => s.enqueue p f

end Sys2Proof.Machine
end

