-- ==== Sys2Proof/Machine/Collator.lean ====
section
/-!
DEFINITION. Sys2Proof/Machine/Collator.lean: contributions, programs, emission and the closing of steps (R212 to R240, R244, R249
to R260).
-/
namespace Sys2Proof.Machine

/-! ### Keys and programs -/

/-- One element of a working value: its code, its index under SPMERGE, and its tags (R228). -/
structure Work where
  code : Nat
  index : Nat
  source : Nat
  position : Nat
  deriving DecidableEq, Repr

/-- Order of keys under Table 9.5; NaN stays last. -/
def rankCmp (desc : Bool) (a b : Val) : Ordering :=
  match a, b with
  | .nan, .nan => .eq
  | .nan, _ => .gt
  | _, .nan => .lt
  | _, _ => if desc then cmpVal b a else cmpVal a b

/-- before() of R228. -/
def workBefore (t : Elt) (desc : Bool) (a b : Work) : Bool :=
  match rankCmp desc (t.decode a.code) (t.decode b.code) with
  | .lt => true
  | .gt => false
  | .eq => decide (a.source < b.source) || (a.source == b.source && decide (a.position < b.position))

/-- Insert an element into an ordered working value. -/
def insertWork (lt : Work → Work → Bool) (x : Work) : List Work → List Work
  | [] => [x]
  | y :: t => if lt x y then x :: y :: t else y :: insertWork lt x t

/-- Arrange a working value (R230). -/
def sortWork (lt : Work → Work → Bool) (xs : List Work) : List Work :=
  xs.foldl (fun acc x => insertWork lt x acc) []

/-- The head that comes first among streams: its place in the list. -/
def firstHead (lt : Work → Work → Bool) (streams : List (List Work)) : Option (Nat × Work) :=
  ((List.range streams.length).zip streams).foldl (fun (b : Option (Nat × Work)) p =>
    match p.2, b with
    | [], _ => b
    | h :: _, none => some (p.1, h)
    | h :: _, some (i, g) => if lt h g then some (p.1, h) else some (i, g)) none

/-- Merge streams by their heads (R229, R232): the entries in order, and the order breaks. -/
def mergeStreams (lt : Work → Work → Bool) (broken : Work → Work → Bool) :
    Nat → List (List Work) → List (Option Work) → List Work × Nat
  | 0, _, _ => ([], 0)
  | k + 1, streams, prev =>
    match firstHead lt streams with
    | none => ([], 0)
    | some (i, e) =>
      let br := match prev.getD i none with
        | some p => broken e p
        | none => false
      let r := mergeStreams lt broken k (streams.set i ((streams.getD i []).drop 1)) (prev.set i (some e))
      (e :: r.1, r.2 + b2n br)

/-- Runs of equal indices of merged entries, summed exactly (R232): the results, entries omitted, counters. -/
def sumRuns (t o : Elt) (own : Nat) : List Work → Option (Nat × Elem × Bool) → Nat → List Work × Nat × Counts
  | [], run, ord =>
    match run with
    | none => ([], 0, Counts.zero)
    | some (i, c, failed) =>
      if failed then ([], 1, Counts.zero)
      else
        let v := collateValue c
        let q := o.convert v.1
        ([⟨q.1, i, own, ord⟩], 0, (Counts.zero.invalidBy (b2n v.2)).add q.2)
  | e :: es, run, ord =>
    match run with
    | none => sumRuns t o own es (some (e.index, collateAdd Elem.fresh (t.decode e.code), false)) ord
    | some (i, c, failed) =>
      if e.index = i then
        (if c.count = 65536 then sumRuns t o own es (some (i, c, true)) ord
        else sumRuns t o own es (some (i, collateAdd c (t.decode e.code), failed)) ord)
      else
        let v := collateValue c
        let q := o.convert v.1
        let r := sumRuns t o own es (some (e.index, collateAdd Elem.fresh (t.decode e.code), false)) (if failed then ord else ord + 1)
        if failed then (r.1, r.2.1 + 1, r.2.2)
        else (⟨q.1, i, own, ord⟩ :: r.1, r.2.1, (r.2.2.invalidBy (b2n v.2)).add q.2)

/-- A code of a format with every NaN pattern as the canonical NaN (R40, R41). -/
def canonicalCode (t : Elt) (code : Nat) : Nat := if (t.decode code).isNan then t.nanCode else code

/-- Every value of format i is one of format o (R50): FP32 holds all of them, FP16 and BF16 hold the FP8 formats. -/
def exactInto (i o : Nat) : Bool := o == i || o == 0 || ((o == 1 || o == 2) && (i == 3 || i == 4))

/-- Convert a working value between formats (R222): exactly and without a count under R50, else under R51. A NaN becomes the
canonical one either way (R41). -/
def convertWork (i o : Nat) (xs : List Work) : List Work × Counts :=
  if i = o then (xs.map (fun x => { x with code := canonicalCode ((fmtElt i).getD .fp32) x.code }), Counts.zero)
  else
    let t := (fmtElt i).getD .fp32
    let u := (fmtElt o).getD .fp32
    xs.foldr (fun x acc =>
      let q := u.convert (t.decode x.code)
      ({ x with code := q.1 } :: acc.1, if exactInto i o then acc.2 else acc.2.add q.2)) ([], Counts.zero)

/-- The predicates of Table 9.6. -/
def predicate (cmp : Nat) (x k : Val) : Bool :=
  let ord := if x.isZero && k.isZero then Ordering.eq else cmpVal x k
  let num := !x.isNan && !k.isNan
  match cmp with
  | 0 => num && ord == .eq
  | 1 => !(num && ord == .eq)
  | 2 => num && ord == .lt
  | 3 => num && ord != .gt
  | 4 => num && ord == .gt
  | 5 => num && ord != .lt
  | 6 => x.isNan
  | _ => !x.isNan

/-- A constant instruction (R221). -/
def constWrite (i : Nat) (consts : FMap Nat) : FMap Nat :=
  let r := pFlags i
  let v := fget 0 consts r
  if pOp i = 0x0B then fset 0 consts r (v / 65536 * 65536 + pParam i)
  else if pOp i = 0x0C then fset 0 consts r (v % 65536 + pParam i * 65536)
  else consts

/-- One EMIT's value: destination entry, element bytes, elements, part. -/
structure EmitOut where
  entry : Nat
  bytes : Bytes
  elements : Nat
  part : Nat
  deriving DecidableEq, Repr

/-- Bytes of a working value in a format, entries with their indices. -/
def workBytes (fmt xb : Nat) (xs : List Work) : Bytes :=
  xs.flatMap (fun w => leBytes xb w.index ++ leBytes (fmtBytes fmt) w.code)

/-- What running a program has so far. -/
structure ProgRun where
  work : List Work
  fmt : Nat
  consts : FMap Nat
  counts : Counts
  emits : List EmitOut
  deriving DecidableEq, Repr

/-- Run the instructions after the collecting operation in program order, to END. -/
def Ctx.runProgram (x : Ctx) : List Nat → ProgRun → ProgRun
  | [], r => r
  | i :: rest, r =>
    let t := (fmtElt r.fmt).getD .fp32
    match pOp i with
    | 0x00 => r
    | 0x07 =>
      let q := convertWork r.fmt (pOut i) (sortWork (workBefore t (bit (pFlags i) 0)) r.work)
      x.runProgram rest { r with work := q.1, fmt := pOut i, counts := r.counts.plus q.2 }
    | 0x09 =>
      let q := convertWork r.fmt (pOut i) ((sortWork (workBefore t (!bit (pFlags i) 0)) r.work).take (pParam i))
      x.runProgram rest { r with work := q.1, fmt := pOut i, counts := r.counts.plus q.2 }
    | 0x08 =>
      let k := t.decode (fget 0 r.consts (pParam i % 4) % 2 ^ (8 * fmtBytes r.fmt))
      let q := convertWork r.fmt (pOut i) (r.work.filter (fun w => predicate (pParam i / 4096) (t.decode w.code) k))
      x.runProgram rest { r with work := q.1, fmt := pOut i, counts := r.counts.plus q.2 }
    | 0x0D =>
      let n := r.emits.length
      let part := x.elements / max 1 x.emits
      let sel := if pOp x.collect = 5 then (r.work.drop (n * part)).take part else r.work
      let xb := if x.sparse then indexBytes x.collect else 0
      x.runProgram rest { r with emits := r.emits ++
        [⟨pParam i, workBytes r.fmt xb sel, sel.length, if pOp x.collect = 5 then n else 0⟩] }
    | _ => x.runProgram rest { r with consts := constWrite i r.consts }

/-- Element codes of one source's contribution. -/
def streamCodes (b : Nat) (st : Stream) (n : Nat) : List Nat :=
  (List.range n).map (fun j => (List.range b).foldl (fun v k => v + (fget 0 st.bytes (j * b + k) - 1) * 256 ^ k) 0)

/-- Entries of a stream as elements with their tags. -/
def Ctx.streamWork (x : Ctx) (st : Stream) (n : Nat) : List Work :=
  let xb := if x.sparse then indexBytes x.collect else 0
  let vb := fmtBytes (pIn x.collect)
  let codes := streamCodes (xb + vb) st n
  (List.range n).map (fun j =>
    let c := codes.getD j 0
    ⟨c / 2 ^ (8 * xb), c % 2 ^ (8 * xb), st.source, j⟩)

/-- Order streams by ascending source. -/
def insertStream (s : Stream) : List Stream → List Stream
  | [] => [s]
  | t :: ts => if s.source ≤ t.source then s :: t :: ts else t :: insertStream s ts

/-- A contribution of E elements is complete. -/
def Ctx.denseDone (x : Ctx) (st : Stream) : Bool :=
  (List.range (x.elements * x.entryBytes)).all (fun k => fget 0 st.bytes k ≠ 0)

/-- A stream has ended (R214). -/
def Ctx.streamDone (x : Ctx) (st : Stream) : Bool :=
  match st.total with
  | none => false
  | some n => (List.range (n * x.entryBytes)).all (fun k => fget 0 st.bytes k ≠ 0)

/-- Element j of a source's contribution has been received. -/
def Ctx.has (x : Ctx) (st : Stream) (j : Nat) : Bool :=
  (List.range x.entryBytes).all (fun k => fget 0 st.bytes (j * x.entryBytes + k) ≠ 0)

/-- Contributions that element j of a GATHER or SCATTER item has received (R214). -/
def Ctx.received (x : Ctx) (it : Item) (j : Nat) : Nat := (it.streams.filter (fun s => x.has s j)).length

/-- The working value of a GATHER or SCATTER: element j of the contribution at rank r, by ascending source, is working element
r × E + j (R226). -/
def Ctx.placed (x : Ctx) (it : Item) : List Work :=
  let ranked := it.streams.foldl (fun l s => insertStream s l) []
  (List.range x.contributors).flatMap (fun r => (List.range x.elements).map (fun j =>
    match (ranked.filter (fun s => x.has s j))[r]? with
    | some s => (x.streamWork s x.elements).getD j ⟨0, 0, 0, 0⟩
    | none => ⟨0, 0, 0, 0⟩))

/-- Order streams by the cycle of their completion, and by ascending source within one cycle. -/
def insertEarly (s : Stream) : List Stream → List Stream
  | [] => [s]
  | t :: ts => if s.order < t.order || (s.order == t.order && decide (s.source ≤ t.source)) then s :: t :: ts
    else t :: insertEarly s ts

/-- The k contributions of an early-k GATHER: the first to complete, the lower sources among those of one cycle; by ascending
source (R226). -/
def Ctx.earliest (x : Ctx) (it : Item) : List Stream :=
  let done := (it.streams.filter x.denseDone).foldl (fun l s => insertEarly s l) []
  (done.take (pParam x.collect)).foldl (fun l s => insertStream s l) []

/-- The collecting operation's result of a finished item: working value, counters, order breaks, entries omitted. -/
def Ctx.collectResult (x : Ctx) (own : Nat) (it : Item) : List Work × Counts × Nat × Nat :=
  let i := pIn x.collect
  let o := pOut x.collect
  let t := (fmtElt i).getD .fp32
  let u := (fmtElt o).getD .fp32
  let ended := (it.streams.filter x.streamDone).foldl (fun l s => insertStream s l) []
  let total := ended.foldl (fun n s => n + s.total.getD 0) 0
  match pOp x.collect with
  | 0x01 =>
    let r := (List.range x.elements).foldr (fun j (acc : List Work × Counts) =>
      let v := collateValue (fget Elem.fresh it.elems j)
      let q := u.convert v.1
      (⟨q.1, 0, own, j⟩ :: acc.1, (acc.2.invalidBy (b2n v.2)).add q.2)) ([], Counts.zero)
    (r.1, r.2, 0, 0)
  | 0x06 =>
    let desc := bit (pFlags x.collect) 0
    let m := mergeStreams (workBefore t desc)
      (fun e p => rankCmp desc (t.decode e.code) (t.decode p.code) == .lt) total
      (ended.map (fun s => x.streamWork s (s.total.getD 0))) (ended.map (fun _ => none))
    let q := convertWork i o m.1
    (q.1, q.2, m.2, 0)
  | 0x0A =>
    let lt := fun (a b : Work) => decide (a.index < b.index) || (a.index == b.index &&
      (decide (a.source < b.source) || (a.source == b.source && decide (a.position < b.position))))
    let m := mergeStreams lt (fun e p => decide (e.index < p.index)) total
      (ended.map (fun s => x.streamWork s (s.total.getD 0))) (ended.map (fun _ => none))
    let r := sumRuns t u own m.1 none 0
    (r.1, r.2.2, m.2, r.2.1)
  | 0x04 | 0x05 =>
    let w := if x.earlyK then (x.earliest it).flatMap (fun s => x.streamWork s x.elements) else x.placed it
    let q := if i = o then (w, Counts.zero) else convertWork i o w
    (q.1, q.2, 0, 0)
  | _ =>
    let r := (List.range x.elements).foldr (fun j (acc : List Work × Counts) =>
      let q := u.convert (selectValue (fget Elem.fresh it.elems j))
      (⟨q.1, 0, own, j⟩ :: acc.1, acc.2.add q.2)) ([], Counts.zero)
    (r.1, r.2, 0, 0)

/-! ### Contexts at work -/

/-- An item of the open step. -/
def Ctx.item (x : Ctx) (p : Nat) : Item := fget Item.fresh x.items p

def Ctx.setItem (x : Ctx) (p : Nat) (it : Item) : Ctx := { x with items := fset Item.fresh x.items p it }

/-- Count a late fragment of a context, and of its item where it has one (R215). -/
def State.lateFragment (s : State) (n : Nat) (p : Option Nat) : State :=
  let s := s.idxBump (0x6120 + n / 256) (n % 256) 63 32 1
  match p with
  | some p =>
    let x := s.ctx n
    let it := x.item p
    s.setCtx n (x.setItem p { it with late := satAdd 32 it.late 1 })
  | none => s

/-- Items open: opened and not yet emitted (Table 9.11). -/
def Ctx.openItems (x : Ctx) : Nat := (x.items.filter (fun e => e.2.opened && !e.2.emitted)).length

/-- Leaves that one open item needs (Table 9.8). -/
def Ctx.itemLeaves (x : Ctx) : Nat :=
  let e := x.elements
  let c := x.contributors
  let b := fmtBytes (pIn x.collect)
  let base := match pOp x.collect with
    | 0x01 | 0x02 | 0x03 => ceilDiv e 4
    | 0x0A => ceilDiv (c * e * (indexBytes x.collect + b)) 256
    | _ => ceilDiv ((if x.earlyK then pParam x.collect else c) * e * b) 256
  let shaped := x.program.any (fun i => isShaping (pOp i))
  let longest := (List.range (x.program.length + 1)).foldl (fun n k => max n (x.lengthAfter (x.program.take k) 0)) 0
  base + (if shaped then ceilDiv (longest * 8) 256 else 0)

/-- The 64 bytes of an element state (R75, R225, R239): 40 of the integer, then the flags below the count, then the selected
code (the layout is a DESIGN CHOICE, log entry 46). -/
def Elem.bytes (e : Elem) : Bytes :=
  leBytes 40 (ofSigned 320 e.sum) ++
    leBytes 4 (b2n e.nan + 2 * b2n e.pinf + 4 * b2n e.ninf + 8 * b2n e.allNegZero + 16 * b2n e.someNumber + 256 * e.count) ++
    leBytes 4 e.selected ++ zeros 16

/-- The element state that 64 bytes hold. -/
def elemOf (b : Bytes) (o : Nat) : Elem :=
  let f := leAt b (o + 40) 4
  ⟨toSigned 320 (leAt b o 40), bit f 0, bit f 1, bit f 2, bit f 3, f / 256, leAt b (o + 44) 4, bit f 4⟩

/-- The collecting operation keeps element states rather than stored data. -/
def Ctx.keepsStates (x : Ctx) : Bool := pOp x.collect == 1 || pOp x.collect == 2 || pOp x.collect == 3

/-- Four element states of an item, from 4i on: the contents of its leaf i. -/
def Item.stateLeaf (it : Item) (i : Nat) : Bytes :=
  (List.range 4).flatMap (fun j => (fget Elem.fresh it.elems (4 * i + j)).bytes)

/-- Write leaf i of an item. -/
def State.writeItemLeaf (s : State) (it : Item) (i off : Nat) (bs : Bytes) : State :=
  match it.leaves[i]? with
  | some h => s.writeLeaf (s.handle h) off bs
  | none => s

/-- An item's leaves as it opens: fresh element states, or zeros for stored data (log entry 46). -/
def State.clearItemLeaves (s : State) (x : Ctx) (it : Item) : State :=
  (List.range it.leaves.length).foldl (fun s i =>
    State.writeItemLeaf s it i 0 (if x.keepsStates then Item.fresh.stateLeaf i else zeros 256)) s

/-- Open an item: on-die leaves of the window's reserve, or a spill to the external list (R239, R240); none where the
external list cannot give them. -/
def State.openItem (s : State) (n p : Nat) : Option State :=
  let x := s.ctx n
  let it := x.item p
  if it.opened then some s
  else if x.openItems < x.win then
    let k := x.itemLeaves
    let it := { it with opened := true, leaves := x.reserve.take k }
    some ((s.setCtx n { x.setItem p it with reserve := x.reserve.drop k }).clearItemLeaves x it)
  else
    match State.allocMany (fun s => State.alloc s true) x.itemLeaves s [] with
    | (_, none) => none
    | (s, some hs) =>
      let it := { it with opened := true, spilled := true, leaves := hs }
      some (((s.setCtx n (x.setItem p it)).count 0x6005 x.slice 1).clearItemLeaves x it)

/-- Read the leaves of an item that hold elements lo to lo + n - 1 of its states through the code: the item with the states they
hold, and whether a word was uncorrectable (R239). -/
def State.loadStates (s : State) (unit : Nat) (it : Item) (lo n : Nat) : State × Item × Bool :=
  (List.range (if n = 0 then 0 else (lo + n - 1) / 4 - lo / 4 + 1)).foldl (fun (acc : State × Item × Bool) k =>
    let i := lo / 4 + k
    match it.leaves[i]? with
    | none => acc
    | some h =>
      let r := acc.1.readLeaf (acc.1.handle h) 256 .unit unit
      (r.1, { acc.2.1 with
          elems := (List.range 4).foldl (fun m j => fset Elem.fresh m (4 * i + j) (elemOf r.2.1 (64 * j))) acc.2.1.elems },
        acc.2.2 || r.2.2)) (s, it, false)

/-- Write those leaves with the item's states. -/
def State.storeStates (s : State) (it : Item) (lo n : Nat) : State :=
  (List.range (if n = 0 then 0 else (lo + n - 1) / 4 - lo / 4 + 1)).foldl (fun s k =>
    State.writeItemLeaf s it (lo / 4 + k) 0 (it.stateLeaf (lo / 4 + k))) s

/-- Bytes of stored data that one source may fill: its place in the leaves follows the order of the sources' first fragments. -/
def Ctx.sourceBytes (x : Ctx) : Nat := x.elements * x.entryBytes

/-- Write stored data at a byte of an item's leaves. -/
def State.storeData (s : State) (it : Item) (pos : Nat) (bs : Bytes) : State :=
  (List.range (if bs.isEmpty then 0 else (pos + bs.length - 1) / 256 - pos / 256 + 1)).foldl (fun s k =>
    let i := pos / 256 + k
    let a := max pos (256 * i)
    State.writeItemLeaf s it i (a - 256 * i) ((bs.drop (a - pos)).take (256 * i + 256 - a))) s

/-- Read all leaves of an item through the code: their bytes, leaf by leaf, and whether a word was uncorrectable. -/
def State.readItemLeaves (s : State) (unit : Nat) (it : Item) : State × List Bytes × Bool :=
  let r := it.leaves.foldl (fun (acc : State × List Bytes × Bool) h =>
    let r := acc.1.readLeaf (acc.1.handle h) 256 .unit unit
    (r.1, r.2.1 :: acc.2.1, acc.2.2 || r.2.2)) (s, [], false)
  (r.1, r.2.1.reverse, r.2.2)

/-- An item with the stored data that its leaves hold. -/
def Item.reload (x : Ctx) (it : Item) (ls : List Bytes) : Item :=
  { it with streams := ((List.range it.streams.length).zip it.streams).map (fun q =>
      { q.2 with bytes := q.2.bytes.map (fun e =>
          let a := q.1 * x.sourceBytes + e.1
          match ls[a / 256]? with
          | some b => (e.1, (b.getD (a % 256) 0).toNat + 1)
          | none => e) }) }

/-- An item as its leaves hold it when it finishes, and whether a word was uncorrectable (R239). -/
def State.loadItem (s : State) (x : Ctx) (it : Item) : State × Item × Bool :=
  let r := s.readItemLeaves (0x80 + x.slice) it
  if x.keepsStates then
    (let q := r.1.loadStates (0x80 + x.slice) it 0 x.elements
     (q.1, q.2.1, r.2.2 || q.2.2))
  else (r.1, it.reload x r.2.1, r.2.2)

/-- An item's leaves go back: to the window's reserve, or to the external list. -/
def State.closeItem (s : State) (n p : Nat) : State :=
  let x := s.ctx n
  let it := x.item p
  if it.spilled then (s.freeLeaves it.leaves).setCtx n (x.setItem p { it with leaves := [] })
  else s.setCtx n { x.setItem p { it with leaves := [] } with reserve := x.reserve ++ it.leaves }

/-- The 64 bytes of an item head (Table 9.7). -/
def State.itemHead (s : State) (x : Ctx) (p : Nat) (it : Item) (status cause elements part check : Nat) : Bytes :=
  leBytes 8 (status * 2 ^ 56 + cause * 2 ^ 48 + elements) ++
    leBytes 8 (x.sequence * 2 ^ 32 + p * 2 ^ 16 + part) ++
    leBytes 8 (if status = 0xFF then 0 else s.clock.stitch) ++ leBytes 8 (check * 2 ^ 32 + it.omitted) ++
    leBytes 8 (it.counts.saturated * 2 ^ 32 + it.counts.flushed) ++
    leBytes 8 (it.counts.nan * 2 ^ 32 + it.counts.invalid) ++
    leBytes 8 (it.late * 2 ^ 32 + it.breaks) ++ leBytes 8 0

/-- Slice unit number. -/
def sliceUnit (q : Nat) : Nat := 0x80 + q

/-- Write an item head. -/
def State.writeHead (s : State) (x : Ctx) (d p : Nat) (head : Bytes) : State :=
  s.writeMem (bits d 47 0 + p * x.slotSize) head (sliceUnit x.slice)

/-- An emission of an item is done; a failed EMIT is kept if it is the first in program order (R236). -/
def State.emitDone (s : State) (n p k cause : Nat) : State :=
  let x := s.ctx n
  let it := x.item p
  let fault := if cause = 0 then it.fault
    else match it.fault with
      | some (j, c) => if k < j then some (k, cause) else some (j, c)
      | none => some (k, cause)
  s.setCtx n (x.setItem p { it with outstanding := it.outstanding - 1, fault := fault })

/-- One more emission of an item is under way. -/
def State.emitMore (s : State) (n p : Nat) : State :=
  let x := s.ctx n
  let it := x.item p
  s.setCtx n (x.setItem p { it with outstanding := it.outstanding + 1 })

/-- The command whose step a context runs is the shadow's (R379). -/
def State.silentStep (s : State) (x : Ctx) : Bool :=
  match x.stepCmd with
  | some (c, n) => (match s.cmd c n with
    | some k => s.silentCmd k
    | none => s.idx 0x8010 0 == 2)
  | none => s.idx 0x8010 0 == 2

/-- Send one emitted fragment. -/
def State.emitFrame (s : State) (n p k : Nat) (h : FolioHeader) (payload : Bytes) : State :=
  if s.silentStep (s.ctx n) then s
  else
    let f := if h.failed then s.failedFragment h h.cause else s.fragment h payload
    let r := (s.emitMore n p).sendFrame { f with emitter := some (n, p, k) }
    if r.2 then (if h.destination = s.address then r.1.emitDone n p k 0 else r.1) else r.1.emitDone n p k 0x08

/-- One EMIT of an item (R234 to R236). -/
def State.emitOne (s : State) (n p k cause : Nat) (e : EmitOut) : State :=
  let x := s.ctx n
  let it := x.item p
  let d := x.dest e.entry
  let failed := cause ≠ 0
  match bits d 63 60 with
  | 1 =>
    let base := bits d 47 0 + p * x.slotSize
    if failed && cause ≠ 6 then s.writeHead x d p (s.itemHead x p it 1 cause 0 e.part 0)
    else
      let w := s.writeBack (base + 64) e.bytes (sliceUnit x.slice)
      let t := w.1.checkStored [(base + 64, e.bytes.length)] w.2 e.bytes
      if t.2 then t.1.writeHead x d p (t.1.itemHead x p it (if failed then 1 else 0) cause e.elements e.part (crc32c e.bytes))
      else ((t.1.emitMore n p).writeHead x d p (t.1.itemHead x p it 1 2 0 e.part 0)).emitDone n p k 2
  | 2 =>
    let h : FolioHeader := { FolioHeader.blank with
      vc := bits d 50 48, destination := bits d 47 32, group := bits d 31 0, source := s.place,
      sequence := x.sequence, position := p }
    if failed then s.emitFrame n p k { h with failed := true, cause := cause, last := true } []
    else
      let xb := x.emitBytes
      let per := 8192 / max 1 xb
      let parts := max 1 (ceilDiv e.elements per)
      (List.range parts).foldl (fun s i =>
        let m := min per (e.elements - i * per)
        State.emitFrame s n p k { h with offset := i * per % 65536, count := m, last := decide (i + 1 = parts) }
          ((e.bytes.drop (i * per * xb)).take (m * xb))) s
  | _ =>
    let g := bits d 11 0
    let y := s.ctx g
    let s := s.emitMore n p
    s.setCtx g { y with localWait := y.localWait ++ [⟨n, p, k, cause, if failed then [] else e.bytes⟩] }

/-- The EMITs of a program, for an item that has no value. -/
def Ctx.emptyEmits (x : Ctx) : List EmitOut :=
  let es := x.program.filter (fun i => pOp i == 0x0D)
  (List.range es.length).map (fun k => ⟨pParam (es.getD k 0), [], 0, if pOp x.collect = 5 then k else 0⟩)

/-- Run every EMIT of an item in program order. -/
def State.emitAll (s : State) (n p cause : Nat) (es : List EmitOut) : State :=
  (List.range es.length).foldl (fun s k =>
    State.emitOne s n p k cause (es.getD k ⟨0, [], 0, 0⟩)) s

/-- Mark an item finished, with its outcome so far. -/
def State.markItem (s : State) (n p cause : Nat) (k : Counts) (breaks omitted check : Nat) : State :=
  let x := s.ctx n
  let it := x.item p
  s.setCtx n (x.setItem p { it with
    finished := true, cause := cause, counts := k, breaks := breaks, omitted := omitted, check := check })

/-- An item finishes FAILED and is emitted as a failure (R235). -/
def State.failItem (s : State) (n p cause : Nat) : State :=
  let x := s.ctx n
  if (x.item p).finished then s
  else (s.markItem n p cause Counts.zero 0 0 0).emitAll n p cause x.emptyEmits

/-- An item that has all its contributions finishes: its program runs and it is emitted (R214, R221, R233). -/
def State.finishItem (s : State) (n p : Nat) : State :=
  let x := s.ctx n
  let it := x.item p
  let rd := s.loadItem x it
  if rd.2.2 then rd.1.failItem n p 1
  else
    let c := x.collectResult s.place rd.2.1
    let after := (x.program.dropWhile (fun i => !isCollecting (pOp i))).drop 1
    let r := x.runProgram after ⟨c.1, pOut x.collect, x.consts, c.2.1, []⟩
    let cause := if c.2.2.2 = 0 then 0 else 6
    let s := rd.1.setCtx n { x.setItem p { it with doneAt := some s.now } with consts := r.consts }
    let s := s.idxBump (0x6120 + n / 256) (n % 256) 31 0 c.2.2.1
    let s := s.markItem n p cause r.counts c.2.2.1 c.2.2.2 (crc32c (r.emits.flatMap (fun e => e.bytes)))
    s.emitAll n p cause r.emits

/-- Drop a context's lead fragments as late (R251). -/
def State.dropLead (s : State) (n : Nat) : State :=
  let x := s.ctx n
  let s := x.lead.foldl (fun s l => (State.freeLeaves s l.leaves).lateFragment n none) s
  s.setCtx n { s.ctx n with lead := [] }

/-- End one item of a step that is being closed: what its last contribution or a fault brought it in this cycle goes first
(R219). -/
def State.endItem (s : State) (n p cause : Nat) : State :=
  let it := (s.ctx n).item p
  if it.finished then s
  else if it.ripe then s.finishItem n p
  else match it.struck with
    | some (c, false) => s.failItem n p c
    | _ => s.failItem n p cause

/-- Fail every item of the open step that has not finished. -/
def State.failRest (s : State) (n cause : Nat) : State :=
  (List.range (s.ctx n).count).foldl (fun s p => State.endItem s n p cause) s

/-- A sequence mismatch fences a context (R218, R252). -/
def State.fence (s : State) (n : Nat) : State :=
  let s := s.dropLead n
  let x := s.ctx n
  let s := s.setCtx n { x with state := ctxFenced }
  if x.stepCmd.isSome then s.failRest n 7 else s

/-! ### Barriers (R256, R259, R260) -/

/-- Ones in a member's window over the last w steps. -/
def Member.ones (m : Member) (w : Nat) : Nat := ((m.window.take w).filter (fun b => b)).length

/-- Mark a member whose window holds enough ones (R260). -/
def State.markLaggard (s : State) (n : Nat) (a : Nat) : State :=
  let x := s.ctx n
  let w := s.idx 0x600C 0
  let t := s.idx 0x600D 0
  match x.members.find? (fun m => m.address == a) with
  | none => s
  | some m =>
    if w = 0 || t = 0 || m.marked || m.ones w < t then s
    else
      let s := s.setCtx n { x with members := x.members.map (fun k => if k.address == a then { k with marked := true } else k) }
      if s.marks.length < 256 then
        { s with marks := s.marks ++ [a * 2 ^ 112 + n * 2 ^ 100 + m.ones w * 2 ^ 88 + w * 2 ^ 80 + s.clock.stitch % 2 ^ 64] }
      else s.idxBump 0x600E 0 15 0 1

/-- Every roster member's window records the step: a 1 for one address, or for none. -/
def State.windows (s : State) (n : Nat) (one : Option Nat) (f : Member → Member) : State :=
  let x := s.ctx n
  let s := s.setCtx n { x with members := x.members.map (fun m =>
    let hit := one == some m.address
    let m := { m with window := (hit :: m.window).take 64 }
    if hit then f m else m) }
  x.members.foldl (fun s m => State.markLaggard s n m.address) s

/-- A member's finish in this step. -/
def Ctx.finishOf (x : Ctx) (a : Nat) : Option Nat :=
  match fget 0 x.finishes a with
  | 0 => none
  | k + 1 => some k

/-- The roster member with the latest finish, and on equal finishes the lower address. -/
def Ctx.latest (x : Ctx) : Option (Nat × Nat) :=
  x.members.foldl (fun (b : Option (Nat × Nat)) m =>
    match x.finishOf m.address, b with
    | none, _ => b
    | some t, none => some (m.address, t)
    | some t, some (a, u) => if u < t then some (m.address, t) else some (a, u)) none

/-- The barrier of a step in which every roster member delivered (R259). -/
def State.barrier (s : State) (n : Nat) : State :=
  let x := s.ctx n
  if !x.sealed || x.members.any (fun m => (x.finishOf m.address).isNone) then s
  else match x.latest with
    | none => s
    | some (a, t) =>
      let gate := x.members.foldl (fun g m => min g ((x.finishOf m.address).getD t)) t
      let late := t - gate
      let counted := decide (s.idx 0x600B 0 ≤ late)
      let s := s.idxSet (0x6150 + n / 256) (n % 256) (a * 2 ^ 48 + b2n counted * 2 ^ 47 + min late (2 ^ 32 - 1))
      s.windows n (if counted then some a else none) (fun m =>
        { m with stepsLast := satAdd 32 m.stepsLast 1, maxLateness := max m.maxLateness (min late (2 ^ 32 - 1)) })

/-- Name a failed member at a deadline (R256). -/
def State.nameFailed (s : State) (n : Nat) : State :=
  let x := s.ctx n
  let a := if !x.sealed then 0
    else match x.members.find? (fun m => (x.finishOf m.address).isNone) with
      | some m => m.address
      | none => (match x.latest with
        | some (a, _) => a
        | none => 0)
  let s := s.idxSet (0x6150 + n / 256) (n % 256) (a * 2 ^ 48 + 2 ^ 47 + (2 ^ 32 - 1))
  if x.sealed then s.windows n (some a) (fun m => { m with stepsMissed := satAdd 32 m.stepsMissed 1 }) else s

/-! ### Closing a step (R249) -/

/-- The cause an item of a CSTEP completes with: its own, else that of its first failed EMIT. -/
def Item.outcome (it : Item) : Nat :=
  if it.cause ≠ 0 then it.cause
  else match it.fault with
    | some (_, c) => c
    | none => 0

/-- The roster is sealed by the first step that closes with every item OK (R244). -/
def Ctx.seal (x : Ctx) (clean : Bool) : Ctx :=
  if !clean || x.sealed || x.overflow then x
  else if 128 < x.finishes.length then { x with overflow := true }
  else { x with sealed := true, members := x.finishes.map (fun e => ⟨e.1, false, [], 0, 0, 0⟩) }

/-- Complete the CSTEP of a step: an item record for each FAILED item, a digest of every one (R184, R380). -/
def State.finishStep (s : State) (core serial : Nat) (outs : List (Nat × Nat × Counts × Nat)) : State :=
  match s.cmd core serial with
  | none => s
  | some c =>
    let r := outs.foldl (fun (acc : State × Cmd) o =>
      if o.2.1 ≠ 0 then acc.1.itemFailed acc.2 o.1 o.2.1 o.2.2.1 else acc.1.itemOk acc.2 o.1 o.2.2.2 o.2.2.1) (s, c)
    r.1.finishCmd r.2 0 0

/-- A step that a release ends: its context goes back to idle, and nothing of R249 is recorded. -/
def State.endStep (s : State) (n : Nat) : State :=
  let x := s.ctx n
  s.setCtx n { x with state := ctxIdle, cursor := 0, items := [], count := 0, finishes := [], stepCmd := none }

/-- What a closing step records: the roster, the barrier, the sequence, the outcome and the member-failed flag (R244, R249, R257,
R259); `clean`: every item finished OK. A step that closes by a fence is unclean. -/
def State.recordStep (s : State) (n : Nat) (named clean late : Bool) : State :=
  let x := s.ctx n
  let s := s.setCtx n (x.seal (clean && !x.earlyK))
  let s := if named then s else s.barrier n
  let y := s.ctx n
  let s := s.setCtx n { y with
    state := if y.state = ctxFenced then ctxFenced else ctxIdle, expected := (x.sequence + 1) % 2 ^ 32,
    unclean := !clean || x.earlyK || y.state == ctxFenced, memberFailed := y.memberFailed || late, cursor := 0, items := [], count := 0,
    finishes := [], stepCmd := none }
  if late then s.dropLead n else s

/-- Close a step; `named`: it closes at its deadline and has named a member. A release closes no step in the sense of R249. -/
def State.closeStep (s : State) (n : Nat) (named : Bool) : State :=
  let x := s.ctx n
  match x.stepCmd with
  | none => s
  | some (core, serial) =>
    let outs := (List.range x.count).map (fun p =>
      let it := x.item p
      (p, it.outcome, it.counts, it.check))
    let t := if s.binding.releasing && x.state ≠ ctxFenced then s.endStep n
      else s.recordStep n named (outs.all (fun o => o.2.1 == 0)) (outs.any (fun o => o.2.1 == 9))
    t.finishStep core serial outs

/-- Items whose emissions are complete are emitted and give their leaves back; a step whose last item is emitted
closes (R217). -/
def State.settleCtx (s : State) (n : Nat) (named : Bool) : State :=
  let x := s.ctx n
  if x.stepCmd.isNone then s
  else
    let s := (List.range x.count).foldl (fun s p =>
      let it := (State.ctx s n).item p
      if it.finished && it.outstanding = 0 && !it.emitted then
        (let s := State.closeItem s n p
         let y := State.ctx s n
         State.setCtx s n (y.setItem p { y.item p with emitted := true }))
      else s) s
    if (List.range x.count).all (fun p => ((s.ctx n).item p).emitted) then s.closeStep n named else s

/-! ### Absorbing contributions -/

/-- One fragment or local contribution. -/
structure Contribution where
  position : Nat
  offset : Nat
  count : Nat
  last : Bool
  failed : Bool
  cause : Nat
  source : Nat
  sound : Bool               -- its check and lengths hold
  bad : Bool                 -- an uncorrectable word of its leaves
  payload : Bytes
  landed : Nat               -- stitch × 1,600 + FABRIC cycle (R259)
  deriving DecidableEq, Repr

/-- Bytes of a source's stream with a fragment's bytes added. -/
def addBytes (m : FMap Nat) (off : Nat) (bs : Bytes) : FMap Nat :=
  ((List.range bs.length).zip bs).foldl (fun m p => fset 0 m (off + p.1) (p.2.toNat + 1)) m

/-- The stream of a source in an item. -/
def Item.streamOf (it : Item) (src : Nat) : Stream :=
  (it.streams.find? (fun s => s.source == src)).getD ⟨src, [], none, 0⟩

/-- Replace a source's stream. -/
def Item.putStream (it : Item) (st : Stream) : Item :=
  if it.streams.any (fun s => s.source == st.source) then
    { it with streams := it.streams.map (fun s => if s.source == st.source then st else s) }
  else { it with streams := it.streams ++ [st] }

/-- A source contributes twice, or overlaps itself (Table 9.2). -/
def Ctx.duplicate (x : Ctx) (it : Item) (c : Contribution) : Bool :=
  let st := it.streamOf c.source
  let b := x.entryBytes
  let overlap := (List.range (c.count * b)).any (fun k => fget 0 st.bytes (c.offset * b + k) ≠ 0)
  match pOp x.collect with
  | 0x01 | 0x02 | 0x03 =>
    (List.range c.count).any (fun j => decide (x.contributors ≤ (fget Elem.fresh it.elems (c.offset + j)).count))
  | 0x04 | 0x05 =>
    overlap || x.denseDone st ||
      (!x.earlyK && (List.range c.count).any (fun j => decide (x.contributors ≤ x.received it (c.offset + j))))
  | _ => overlap || (match st.total with
    | some n => c.last || decide (n < c.offset + c.count)
    | none => false)

/-- Absorb a sound fragment into an item, in the FABRIC cycle `at'`. -/
def Ctx.absorbInto (x : Ctx) (it : Item) (c : Contribution) (at' : Nat) : Item :=
  let t := (fmtElt (pIn x.collect)).getD .fp32
  let b := x.entryBytes
  let code := fun j => leAt c.payload (j * b) b
  match pOp x.collect with
  | 0x01 => { it with elems := (List.range c.count).foldl (fun m j =>
      fmod Elem.fresh m (c.offset + j) (fun e => collateAdd e (t.decode (code j)))) it.elems }
  | 0x02 => { it with elems := (List.range c.count).foldl (fun m j =>
      fmod Elem.fresh m (c.offset + j) (fun e => selectAdd true e (t.decode (code j)))) it.elems }
  | 0x03 => { it with elems := (List.range c.count).foldl (fun m j =>
      fmod Elem.fresh m (c.offset + j) (fun e => selectAdd false e (t.decode (code j)))) it.elems }
  | 0x04 | 0x05 =>
    let st := it.streamOf c.source
    let st := { st with bytes := addBytes st.bytes (c.offset * b) c.payload }
    it.putStream { st with order := if x.denseDone st then at' + 1 else 0 }
  | _ =>
    let st := it.streamOf c.source
    it.putStream { st with
      bytes := addBytes st.bytes (c.offset * b) c.payload,
      total := if c.last then some (c.offset + c.count) else st.total }

/-- The item has all its contributions (R214, R226). -/
def Ctx.itemDone (x : Ctx) (it : Item) : Bool :=
  match pOp x.collect with
  | 0x01 | 0x02 | 0x03 =>
    (List.range x.elements).all (fun j => decide (x.contributors ≤ (fget Elem.fresh it.elems j).count))
  | 0x04 | 0x05 =>
    if x.earlyK then decide (pParam x.collect ≤ (it.streams.filter x.denseDone).length)
    else (List.range x.elements).all (fun j => decide (x.contributors ≤ x.received it j))
  | _ => decide (x.contributors ≤ (it.streams.filter x.streamDone).length)

/-- The cause that a failed flag gives (Table 9.2). -/
def carriedCause (c : Nat) : Nat := if 1 ≤ c ∧ c ≤ 0x0C then c else 0x02

/-- What is wrong with a contribution (Table 9.2): its cause, and whether it fences the context (R252); `states`: the element
states it would add to are uncorrectable. -/
def Ctx.faultOf (x : Ctx) (it : Item) (c : Contribution) (states : Bool) : Option (Nat × Bool) :=
  if c.failed then some (carriedCause c.cause, false)
  else if c.bad then some (1, false)
  else if !c.sound || decide (x.elements < c.offset + c.count) || c.payload.length ≠ c.count * x.entryBytes then some (2, false)
  else if states then some (1, false)
  else if x.duplicate it c then some (7, true)
  else none

/-- A fault strikes an item. It takes effect when the cycle has passed, unless the item's last contribution falls in the same
cycle (R215). -/
def State.strike (s : State) (n p : Nat) (f : Nat × Bool) : State :=
  let x := s.ctx n
  let it := x.item p
  s.setCtx n (x.setItem p { it with struck := match it.struck with
    | some g => some g
    | none => some f })

/-- A sound contribution is absorbed: into the item, its leaves, its member's finish and the count of bytes. An item that has all
of them finishes; an early-k one at the end of the cycle (R226). -/
def State.take (s : State) (n : Nat) (c : Contribution) : State :=
  let x := s.ctx n
  let it := x.absorbInto (x.item c.position) c s.now
  let k := (List.range it.streams.length).find? (fun i => (it.streams.getD i ⟨0, [], none, 0⟩).source == c.source)
  let fin := fget 0 x.finishes c.source
  let done := x.itemDone it
  let it := { it with ripe := it.ripe || (done && x.earlyK) }
  let s := s.setCtx n { x.setItem c.position it with finishes := fset 0 x.finishes c.source (max fin (c.landed + 1)) }
  let s := if x.keepsStates then s.storeStates it c.offset c.count
    else s.storeData it (k.getD 0 * x.sourceBytes + c.offset * x.entryBytes) c.payload
  let s := s.count 0x6004 x.slice c.payload.length
  if done && !x.earlyK then s.finishItem n c.position else s

/-- Absorb a contribution to the open step (R213 to R215, R252): none where a leaf is wanting (R240); else the cause
that the item record of a local contribution carries. -/
def State.absorb (s : State) (n : Nat) (c : Contribution) : Option (State × Nat) :=
  let x := s.ctx n
  let outside := x.sealed && !x.members.any (fun m => m.address == c.source)
  let it := x.item c.position
  if x.count ≤ c.position || outside then some (s.fence n, 7)
  else if it.finished then
    (if it.cause = 0 && !x.earlyK then
      (if it.doneAt = some s.now then some (s, 7) else some ((s.lateFragment n (some c.position)).fence n, 7))
    else some (s.lateFragment n (some c.position), 0))
  else
    let q := if x.keepsStates then s.loadStates (0x80 + x.slice) it c.offset c.count else (s, it, false)
    match x.faultOf q.2.1 c q.2.2 with
    | some f => some (q.1.strike n c.position f, if f.2 then 7 else 0)
    | none =>
      match (q.1.setCtx n (x.setItem c.position q.2.1)).openItem n c.position with
      | none => none
      | some s => some (s.take n c, 0)

/-- A cycle's landing time as R259 counts it. -/
def State.landingNow (s : State) : Nat := s.clock.stitch * 1600 + s.clock.cycle

/-- A local contribution (R212, R213, R218, R257): none where it waits, else its cause. -/
def State.contribute (s : State) (n position : Nat) (cause : Nat) (bytes : Bytes) : Option (State × Nat) :=
  let x := s.ctx n
  if !x.declared || x.state = ctxFenced || (s.binding.releasing && x.state ≠ ctxOpen) then some (s, 0x0A)
  else if x.memberFailed then some (s.lateFragment n none, 0)
  else if x.state ≠ ctxOpen then none
  else s.absorb n
    ⟨position, 0, bytes.length / max 1 x.entryBytes, true, cause ≠ 0, cause, s.place, true, false, bytes, s.landingNow⟩

/-- The contribution of a write-out or a CSUB, which crosses from CORE to FABRIC: outside the clock limits it may be lost, or come
twice (R361). -/
def State.contributeAcross (s : State) (n position : Nat) (cause : Nat) (bytes : Bytes) : Option (State × Nat) :=
  let k := s.crosses
  if k.1 = 1 then some (k.2, 0)
  else if k.1 = 2 then
    (match k.2.contribute n position cause bytes with
      | none => none
      | some (t, e) => some (((t.contribute n position cause bytes).getD (t, e)).1, e))
  else k.2.contribute n position cause bytes

/-! ### The end of a cycle -/

/-- What the cycle that has passed brought an item: an early-k item with its contributions finishes, and a fault takes
effect (R215, R226, R252). -/
def State.landItem (s : State) (n p : Nat) : State :=
  let it := (s.ctx n).item p
  if it.finished then s
  else if it.ripe then s.finishItem n p
  else match it.struck with
    | some (_, true) => s.fence n
    | some (c, false) => s.failItem n p c
    | none => s

/-- The same for every item of a context's open step. -/
def State.landCtx (s : State) (n : Nat) : State :=
  if (s.ctx n).stepCmd.isNone then s else (List.range (s.ctx n).count).foldl (fun s p => State.landItem s n p) s

/-- A context takes emissions to it, or refuses or discards them. -/
def State.takesLocal (s : State) (x : Ctx) : Bool :=
  !x.declared || x.state == ctxFenced || x.memberFailed || s.binding.releasing || x.state == ctxOpen

/-- Offer one waiting emission to the context it names; one that finds no leaf to spill into stays. -/
def State.offerLocal (s : State) (g : Nat) (w : LocalEmit) : State :=
  let y := s.ctx g
  if !(s.takesLocal y && y.localWait.contains w) then s
  else match s.contribute g w.position w.cause w.bytes with
    | none => s
    | some (t, cause) =>
      (t.setCtx g { t.ctx g with localWait := (t.ctx g).localWait.erase w }).emitDone w.context w.position w.emit cause

/-- Put a waiting emission behind those of lower and equal emitting contexts. -/
def insertLocal (x : Nat × LocalEmit) : List (Nat × LocalEmit) → List (Nat × LocalEmit)
  | [] => [x]
  | y :: t => if x.2.context < y.2.context then x :: y :: t else y :: insertLocal x t

/-- Emissions that wait for contexts, in the order in which one cycle takes them: ascending emitting context (R215). -/
def State.localQueue (s : State) : List (Nat × LocalEmit) :=
  (s.ctxs.flatMap (fun e => e.2.localWait.map (fun w => (e.1, w)))).foldl (fun l x => insertLocal x l) []

/-- Every waiting emission is offered once; each context takes or holds its own. -/
def State.drainLocal (s : State) : State := s.localQueue.foldl (fun s e => State.offerLocal s e.1 e.2) s

/-- Items whose emissions are complete are emitted, and steps whose last item is emitted close, but for emissions to local
contexts, which are taken at the end of the cycle. -/
def State.settle (s : State) (named : Option Nat) : State :=
  s.ctxs.foldl (fun s e => State.settleCtx s e.1 (named == some e.1)) s

/-- The end of a FABRIC cycle for the Collator: what the cycle brought its items lands, then emissions to local contexts are
taken, behind the write-outs and CSUB items of the cycle (R215), and what is emitted settles. -/
def State.endCycle (s : State) : State :=
  let s := s.ctxs.foldl (fun s e => State.landCtx s e.1) s
  s.drainLocal.settle none

/-! ### Fragments that arrive (R250, R251) -/

/-- Lead leaves in use on the folio. -/
def State.leadLeaves (s : State) : Nat :=
  s.ctxs.foldl (fun n e => n + e.2.lead.foldl (fun m l => m + l.leaves.length) 0) 0

/-- A landed frame's bytes after the Ethernet header, read by a slice: its folio header, payload, and whether a word
was uncorrectable. -/
def State.readFragment (s : State) (q : Nat) (f : Frame) : State × FolioHeader × Bytes × Bool :=
  let r := s.readFrame .unit (sliceUnit q) f
  let b := r.2.1
  let o := (parseFrame b).body
  let h := FolioHeader.decode b o
  (r.1, h, (b.drop (o + 32)).take h.length, r.2.2)

/-- When a frame landed, as R259 counts it. -/
def landingOf (f : Frame) : Nat := f.landedAt.1 * 1600 + f.landedAt.2

/-- The contribution that a fragment makes. -/
def contributionOf (h : FolioHeader) (payload : Bytes) (bad : Bool) (landed : Nat) (sound : Bool) : Contribution :=
  ⟨h.position, h.offset, h.count, h.last, h.failed, h.cause, h.source, sound, bad, payload, landed⟩

/-- Classify and handle one fragment of slice q (Table 10.2): the state, and whether it stalled for lead leaves (true)
or for spill leaves (false). -/
def State.takeFragment (s : State) (q : Nat) (f : Frame) : State × Option Bool :=
  match s.groupCtx f.group with
  | none => ((s.freeFrame f).count 0x6007 0 1, none)
  | some n =>
    let x := s.ctx n
    let r := s.readFragment q f
    let h := r.2.1
    let payload := r.2.2.1
    let bad := r.2.2.2
    let sound := crc32c payload == h.check
    let d := subMod 32 h.sequence x.current
    let drop := fun (s : State) => ((State.lateFragment s n none).freeFrame f, (none : Option Bool))
    if x.state = ctxFenced || x.memberFailed || s.runFailed then drop r.1
    else if d = 0 && x.state = ctxOpen then
      (match r.1.absorb n (contributionOf h payload bad (landingOf f) sound) with
        | none => (s, some false)
        | some (s, _) => (s.freeFrame f, none))
    else if d < 2 ^ 31 then
      let k := max 1 (ceilDiv payload.length 256)
      if s.idx 0x6008 0 < s.leadLeaves + k then (s, some true)
      else match State.allocMany (fun s => State.alloc s true) k r.1 [] with
        | (_, none) => (s, some true)
        | (t, some hs) =>
          let t := t.fillLeaves hs payload
          let l : Lead := ⟨h.sequence, !sound, hs, { f with bytes := [], handles := [] }, h.encode⟩
          ((t.setCtx n { t.ctx n with lead := (t.ctx n).lead ++ [l] }).freeFrame f, none)
    else if d = 2 ^ 32 - 1 && !x.unclean then ((r.1.fence n).freeFrame f, none)
    else drop r.1

/-- Take one fragment and keep it back where it stalls. -/
def State.takeOrHold (s : State) (q : Nat) (f : Frame) : State :=
  match s.takeFragment q f with
  | (s, none) => s
  | (s, some l) => { s with switch := { s.switch with stalled := s.switch.stalled ++ [(q, l, f)] } }

/-- FRAGMENT_ARRIVE: a slice takes its oldest fragment (R208, R250). -/
def execFragmentArrive (q : QuireId) (s : State) : Out :=
  s.ends (match s.switch.fragments.find? (fun e => e.1 == q.val) with
    | none => s
    | some (_, f) =>
      ({ s with switch := { s.switch with fragments := s.switch.fragments.erase (q.val, f) } }.takeOrHold q f).settle none)

/-! ### Steps -/

/-- A held fragment as a contribution: read from its lead leaves. -/
def State.leadContribution (s : State) (q : Nat) (l : Lead) : State × Contribution :=
  let h := FolioHeader.decode l.body 0
  let r := s.readFrom .unit (sliceUnit q) l.leaves h.length [] false
  (r.1, contributionOf h r.2.1 r.2.2 (landingOf l.frame) (!l.badCheck))

/-- Absorb one held fragment of a context; one that finds no leaf to spill into stays held (R240). -/
def State.absorbOne (s : State) (n : Nat) (l : Lead) : State :=
  let drop := { s.ctx n with lead := (s.ctx n).lead.erase l }
  if (s.ctx n).state ≠ ctxOpen then ((s.setCtx n drop).freeLeaves l.leaves).lateFragment n none
  else
    let r := s.leadContribution (s.ctx n).slice l
    match r.1.absorb n r.2 with
    | some (t, _) => (t.setCtx n { t.ctx n with lead := (t.ctx n).lead.erase l }).freeLeaves l.leaves
    | none => r.1

/-- Absorb the held fragments of the open step, in order of landing (R251). -/
def State.absorbLead (s : State) (n : Nat) : State :=
  ((s.ctx n).lead.filter (fun l => l.sequence == (s.ctx n).sequence)).foldl (fun s l =>
    if (State.ctx s n).lead.contains l then State.absorbOne s n l else s) s

/-- Retry the stalled fragments of a slice, for lead leaves or for spill leaves; held fragments of open steps wait for spill
leaves too. -/
def State.retryStalled (s : State) (q : Nat) (lead : Bool) : State :=
  let mine := s.switch.stalled.filter (fun e => e.1 == q && e.2.1 == lead)
  let s := { s with switch := { s.switch with stalled := s.switch.stalled.filter (fun e => !(e.1 == q && e.2.1 == lead)) } }
  let s := if lead then s
    else s.ctxs.foldl (fun s e => if e.2.slice == q && e.2.state == ctxOpen then State.absorbLead s e.1 else s) s
  (mine.foldl (fun s e => State.takeOrHold s q e.2.2) s).settle none

/-- LEAD_RETRY: ahead fragments that found no lead leaves are retried (R251). -/
def execLeadRetry (q : QuireId) (s : State) : Out := s.ends (s.retryStalled q true)

/-- SPILL_RETRY: fragments that found no external leaves are retried (R240). -/
def execSpillRetry (q : QuireId) (s : State) : Out := s.ends (s.retryStalled q false)

/-- Start a step or complete a CSTEP that cannot start one (R217, R249, R252, R257). -/
def State.startStep (s : State) (n : Nat) (c : Cmd) : State :=
  let x := s.ctx n
  let items := cfItems c.word
  let seq := c.values.headD 0
  let allFail := fun (s : State) cause =>
    State.finishStep s c.core c.serial ((List.range items).map (fun p => (p, cause, Counts.zero, 0)))
  if x.state = ctxFenced then allFail s 0x0A
  else if items = 0 then s.finishCmd c 0 0
  else if seq ≠ x.expected then allFail (s.fence n) 7
  else
    let c := { c with phase := .running }
    let s := s.setCmd c
    let x := { x with
      state := ctxOpen, sequence := seq, count := items, items := [], started := s.clock.stitch, finishes := [],
      consts := (x.program.takeWhile (fun i => !isCollecting (pOp i))).foldl (fun m i => constWrite i m) [],
      stepCmd := some (c.core, c.serial) }
    let s := s.setCtx n x
    let s := x.memoryDests.foldl (fun s d => (List.range items).foldl (fun s p =>
      State.writeHead s x d p (State.itemHead s x p Item.fresh 0xFF 0 0 0 0)) s) s
    if x.memberFailed then (s.failRest n 9).settle none
    else (s.absorbLead n).settle none

/-- The next CSTEP of a context that is not open: the pending one, else one at the head of its core's queue (R217,
R253). -/
def State.nextStep (s : State) (n : Nat) : Option Cmd :=
  let x := s.ctx n
  match x.pendingCmd with
  | some (c, k) => s.cmd c k
  | none =>
    s.cores.cmds.find? (fun c => c.opcode == 0x50 && c.phase == .queued && cfCtx c.word == n && !s.heldCmd c &&
      !s.cores.cmds.any (fun d => d.core == c.core && d.unit == c.unit && d.phase == .queued && decide (d.serial < c.serial)))

/-- CSTEP_START: a CSTEP starts its step once its context is not open (R217, R253). -/
def execCstepStart (x : CtxId) (s : State) : Out :=
  s.ends (let y := s.ctx x
    if y.state = ctxOpen || (y.stepCmd.isSome && y.state ≠ ctxFenced) || !y.declared then s
    else match s.nextStep x with
      | none => s
      | some c => ({ s with cores := { s.cores with served := fset 31 s.cores.served c.unit c.core } }.setCtx x
          { y with pendingCmd := none }).startStep x c)

/-- Close an open step as R219 provides: every unfinished item fails. -/
def State.breakStep (s : State) (n cause : Nat) : State :=
  if (s.ctx n).stepCmd.isSome && (s.ctx n).state = ctxOpen then s.failRest n cause else s

/-- STEP_DEADLINE: a step still open at t0 + D closes at cycle 0 of that stitch (R255, R256). -/
def execStepDeadline (x : CtxId) (s : State) : Out :=
  let y := s.ctx x
  let d := s.idx (0x6140 + x.val / 256) (x.val % 256)
  let unfinished := (List.range y.count).any (fun p => !(y.item p).finished)
  s.ends (if d = 0 || y.state ≠ ctxOpen || y.stepCmd.isNone || s.clock.stitch < y.started + d || !unfinished then s
    else ((s.nameFailed x).failRest x 9).settle (some x.val))

end Sys2Proof.Machine
end

