-- ==== Sys2Proof/Machine/Units.lean ====
section
/-!
DEFINITION. Sys2Proof/Machine/Units.lean: the units at work: the start of commands (R94, R106, R120, R127, R426), passes, write-out
items, sends (R245 to R248), completion (R179, R184, R185), and the stash controller's grants (R119 to R131).
-/
namespace Sys2Proof.Machine

/-! ### Sends (R245 to R247, R379) -/

/-- An item of a send completes: it is noted, with its digest. -/
def State.sendDone (s : State) (core serial item cause check : Nat) : State :=
  match s.cmd core serial with
  | none => s
  | some c =>
    if c.phase ≠ .running || c.sentItems.contains item then s
    else
      let r := if cause = 0 then s.itemOk c item check Counts.zero else s.itemFailed c item cause Counts.zero
      r.1.setCmd { r.2 with sentItems := r.2.sentItems ++ [item] }

/-- The state of the sending context when a frame leaves (R247): fenced, or member-failed; and the run's failure
(R390). -/
def State.leavingCause (s : State) (ctx : Nat) : Nat :=
  if ctx ≥ 4096 then 0
  else if s.runFailed then 0x0B
  else if (s.ctx ctx).state = ctxFenced then 0x0A
  else if (s.ctx ctx).memberFailed then 0x09
  else 0

/-- Rewrite a send's frame as it leaves. -/
def State.leaving (s : State) (f : Frame) : Frame :=
  let cause := s.leavingCause f.sendingContext
  if cause = 0 then f
  else
    let h := FolioHeader.decode f.bytes 14
    let g := s.failedFragment h cause
    { f with bytes := g.bytes, length := g.length, rawLength := g.rawLength }

/-- The header of item n of a send. -/
def Cmd.sendHeader (c : Cmd) (s : State) (item count : Nat) : FolioHeader :=
  let w := c.word
  let fs := c.opcode == 0x61
  { FolioHeader.blank with
    vc := if fs then ffVc w else wfVc w, last := true,
    destination := if fs then ffFolio w else wfFolio w, source := s.place,
    group := c.values.getD 0 0, sequence := c.values.getD 1 0,
    position := (c.values.getD 2 0 + item) % 65536, tag := sendTag c.opcode w, count := count % 65536 }

/-- Build and send one item: its payload, or a failure with cause 0x01 (R98, R167, R379). Outside the clock limits its frame may be
lost on its way to FABRIC, or come twice (R361, log entry 40). -/
def State.sendItem (s : State) (c : Cmd) (item count : Nat) (payload : Bytes) (bad : Bool) (k : Counts) : State :=
  let h := c.sendHeader s item count
  let cut := payload.take 8192
  let check := crc32c cut
  let note := fun (s : State) cause =>
    match s.cmd c.core c.serial with
    | none => s
    | some c =>
      let r := if cause = 0 then s.itemOk c item check k else s.itemFailed c item cause k
      r.1.setCmd { r.2 with sentItems := r.2.sentItems ++ [item] }
  if s.silentCmd c then note s (if bad then 1 else 0)
  else
    let f := if bad then s.failedFragment h 1 else s.fragment h cut
    let f := { f with sendingContext := h.tag, check := check, sender := if bad then none else some (c.core, c.serial, item) }
    let here := f.destination = s.address
    let k' := s.crosses
    let r := k'.2.sendFrame (if here then s.leaving f else f)
    if k'.1 = 1 then k'.2
    else if k'.1 = 2 then (r.1.sendFrame { (if here then s.leaving f else f) with sender := none }).1
    else if bad then note r.1 1
    else if !r.2 then note r.1 8
    else if here then note r.1 0
    else
      match r.1.cmd c.core c.serial with
      | none => r.1
      | some c => r.1.setCmd { c with counts := c.counts.plus k }

/-! ### Starting a command -/

/-- The command at the head of a core's queue for a unit: the first that has not started. -/
def State.headOf (s : State) (core unit : Nat) : Option Cmd :=
  (s.queueOf core unit).find? (fun c => c.phase == .queued)

/-- Accumulator rows a command touches: those of G2 of a product, of G0 of a write-out. -/
def Cmd.rows (c : Cmd) : List Nat :=
  let d := c.primary
  if c.opcode = 0x20 then
    (if prodIdle c.word d then []
    else (List.range (dCount d)).flatMap (fun n => outputRows c.word (dAddr d d 2 n).toNat))
  else if c.opcode = 0x21 then
    (if woutIdle c.word d then [] else (List.range (dCount d)).map (fun n => (dAddr d d 0 n).toNat))
  else []

/-- Two commands' rows meet. -/
def rowsMeet (a b : Cmd) : Bool := a.rows.any (fun r => b.rows.contains r)

/-- Stash tiles that a command reads. -/
def State.tilesRead (s : State) (c : Cmd) : List Nat :=
  let d := c.primary
  let at' := fun n => (tileAt s.stash.tiles 0 (dAddr d d 0 n) 1).map (·.1)
  if (c.opcode == 0x20 && pfStash c.word) || (c.opcode == 0x30 && vfStash c.word) then
    (List.range (dCount d)).filterMap at'
  else []

/-- Stash tiles that a command writes. -/
def Cmd.tilesWritten (c : Cmd) : List Nat :=
  if c.opcode == 0x21 && wfDest c.word == 1 then
    (if woutIdle c.word c.primary then [] else (List.range (itemCount c.primary)).map (fun n => wfTile c.word + n))
  else if c.opcode == 0x30 && vfKind c.word == 1 then [vfTile c.word]
  else []

/-- A read of a tile waits for the earlier writes of it (R116). -/
def State.tileReady (s : State) (c : Cmd) : Bool :=
  let r := s.tilesRead c
  r.isEmpty || !s.cores.cmds.any (fun k => decide (k.order < c.order) && k.microBatch == c.microBatch &&
    k.phase != .done && k.tilesWritten.any (fun t => r.contains t))

/-- In strict mode a tie-group command waits for its turn (R106). -/
def State.tieReady (s : State) (c : Cmd) : Bool :=
  c.opcode != 0x20 || !s.strict || pfTie c.word == 0 || fget 0 s.cores.tieNext (pfTie c.word) == pfUse c.word

/-- What a command waits for at the head of its queue, apart from its unit: run-ahead (R178), its claim (R120), its open
(R127), its turn (R106), its tiles (R116). -/
def State.headReady (s : State) (c : Cmd) : Bool := !s.heldCmd c && s.admits c && s.tieReady c && s.tileReady c

/-- Commands that a unit is executing. -/
def State.runningOn (s : State) (unit : Nat) : List Cmd := s.cores.cmds.filter (fun c => c.unit == unit && c.phase == .running)

/-- A product that still streams. -/
def Cmd.streams (c : Cmd) : Bool :=
  c.opcode == 0x20 && !prodIdle c.word c.primary && decide (c.next < passesOf c.primary)

/-- The unit has room for a command (R91, R94, R167): an array streams one product and executes one write-out, with
disjoint rows; a vector unit or a copy engine executes one command. -/
def State.unitFree (s : State) (c : Cmd) : Bool :=
  let run := s.runningOn c.unit
  if c.opcode = 0x20 then !run.any Cmd.streams && !run.any (rowsMeet c)
  else if c.opcode = 0x21 then !run.any (fun k => k.opcode == 0x21) && !run.any (rowsMeet c)
  else if isSlice c.unit || isStash c.unit then true
  else run.isEmpty

/-- A context takes local contributions, or fails them at once (R213). -/
def Ctx.contributable (x : Ctx) : Bool := !x.declared || x.state == ctxFenced || x.memberFailed || x.state == ctxOpen

/-- Commands of the Collator: a CSUB, and a WOUT to a context, wait for a context that takes contributions; a CSTEP moves into
the pending place of an open context (R213, R253). -/
def State.sliceReady (s : State) (c : Cmd) : Bool :=
  if c.opcode = 0x51 then (s.ctx (cfCtx c.word)).contributable
  else if c.opcode = 0x50 then (s.ctx (cfCtx c.word)).state == ctxOpen && (s.ctx (cfCtx c.word)).pendingCmd.isNone
  else if c.opcode = 0x21 && wfDest c.word = 2 then (s.ctx (wfTile c.word)).contributable
  else true

/-- Cores in the order in which a unit serves its queues: the one after the core served last first. -/
def State.rotation (s : State) (unit : Nat) : List Nat :=
  let k := (fget 31 s.cores.served unit + 1) % 32
  (List.range 32).map (fun i => (k + i) % 32)

/-- A product and a write-out, either way round, whose rows meet: the one accepted first goes first (R94). -/
def Cmd.yieldsTo (c k : Cmd) : Bool := c.opcode != k.opcode && decide (k.order < c.order) && rowsMeet k c

/-- Heads of a unit's queues that may start, in the order of service; between a product and a write-out whose rows meet
the one accepted first goes first (R94), and a write-out that waits for its context holds back the later ones of its array
(R213). -/
def State.startable (s : State) (unit : Nat) : List Cmd :=
  let heads := (s.rotation unit).filterMap (fun c => s.headOf c unit)
  let stuck := heads.filter (fun c => c.opcode == 0x21 && s.headReady c && !s.sliceReady c)
  let ready := heads.filter (fun c => s.headReady c && s.sliceReady c && s.unitFree c &&
    !(c.opcode == 0x21 && stuck.any (fun k => decide (k.order < c.order))))
  ready.filter (fun c => !ready.any c.yieldsTo)

/-- Arrays of a quire that stream (R425). -/
def State.streaming (s : State) (quire : Nat) : Nat :=
  ((List.range 0x30).filter (fun u => quireOf u == quire && (s.runningOn u).any (fun c => c.opcode == 0x20))).length

/-- Notice has been given long enough (R426). -/
def State.noticed (s : State) : Bool := s.power.loadNotice && decide (s.power.noticeSince + 2500 ≤ s.now)

/-- A command begins: what it held for is over, and its unit has served its core. -/
def State.begin (s : State) (c : Cmd) : State :=
  let held := s.power.held.find? (fun h => h.1 == c.core && h.2.1 == c.serial)
  let s := match held with
    | some h => s.count 0x9011 0 (s.now - h.2.2)
    | none => s
  let s := { s with power := { s.power with held := s.power.held.filter (fun h => !(h.1 == c.core && h.2.1 == c.serial)) } }
  let s := { s with cores := { s.cores with served := fset 31 s.cores.served c.unit c.core } }
  let s := if c.opcode = 0x20 && pfTie c.word ≠ 0 && s.strict then
      (let uses := match s.binding.ties.find? (fun g => g.number == pfTie c.word) with
        | some g => g.uses
        | none => 0
       let next := if uses ≤ pfUse c.word + 1 then 0 else pfUse c.word + 1
       { s with cores := { s.cores with tieNext := fset 0 s.cores.tieNext (pfTie c.word) next } })
    else s
  s.setCmd { c with phase := .running, waited := false }

/-- Start a product: it may have to wait for notice (R426). -/
def State.startProduct (s : State) (c : Cmd) : State :=
  let q := quireOf c.unit
  let level := s.idx 0x9010 0
  let busy := (s.runningOn c.unit).any (fun k => k.opcode == 0x20)
  let n := s.streaming q + (if busy then 0 else 1)
  if level < n && !s.noticed then
    let s := if s.power.held.any (fun h => h.1 == c.core && h.2.1 == c.serial) then s
      else { s with power := { s.power with held := s.power.held ++ [(c.core, c.serial, s.now)] } }
    if s.power.loadNotice then s
    else { s with power := { s.power with loadNotice := true, noticeSince := s.now } }.count 0x9012 0 1
  else
    let s := s.begin c
    if level < n then { s with power := { s.power with overLevel := true } } else s

/-- Items of a CSUB from the next one on: each is absorbed, waits, or fails (R166, R213, R215). -/
def State.subItems (s : State) (c : Cmd) : Nat → State × Cmd
  | 0 => (s, c)
  | k + 1 =>
    let n := cfCtx c.word
    let x := s.ctx n
    let d := c.primary
    let b := x.entryBytes
    let first := c.next * dTrip d 0
    let r := (List.range (dTrip d 0)).foldl (fun (acc : State × Bytes × Bool) i =>
      let r := acc.1.readMem (dAddr d d 0 (first + i)).toNat b .unit c.unit
      (r.1, acc.2.1 ++ r.2.1, acc.2.2 || r.2.2.isSome)) (s, [], false)
    if r.2.2 then
      let f := r.1.itemFailed c c.next 1 Counts.zero
      State.subItems f.1 { f.2 with next := c.next + 1 } k
    else
      match r.1.contributeAcross n (bits c.word 79 64 + c.next) 0 r.2.1 with
      | none => (s, { c with waited := true })
      | some (s, cause) =>
        let f := if cause = 0 then (s, c) else s.itemFailed c c.next cause Counts.zero
        State.subItems f.1 { f.2 with next := c.next + 1, waited := false } k

/-- Carry a running CSUB as far as it goes. -/
def State.runSub (s : State) (c : Cmd) : State :=
  let r := s.subItems c (itemCount c.primary - c.next)
  (r.1.setCmd r.2).settle none

/-- What happens as a command starts. -/
def State.startCmd (s : State) (c : Cmd) : State :=
  match c.opcode with
  | 0x20 => s.startProduct c
  | 0x50 =>
    let n := cfCtx c.word
    let s := { s with cores := { s.cores with served := fset 31 s.cores.served c.unit c.core } }
    (s.setCmd { c with phase := .pendingPlace }).setCtx n { s.ctx n with pendingCmd := some (c.core, c.serial) }
  | 0x51 => (s.begin c).runSub { c with phase := .running, waited := false }
  | 0x61 =>
    let s := s.begin c
    (List.range (itemCount c.primary)).foldl (fun s i =>
      let r := State.readUnits s c i
      let per := max 1 (State.ctx s (ffTag c.word)).entryBytes
      State.sendItem r.1 c i (r.2.1.length / per) r.2.1 r.2.2 Counts.zero) s
  | 0x40 | 0x41 | 0x42 | 0x43 => (s.begin c).recordStash { c with phase := .running }
  | _ => s.begin c

/-- COMMAND_START: a unit starts the next command that may start (R94). -/
def execCommandStart (u : BitVec 8) (s : State) : Out :=
  s.ends (if s.power.clocksStopped then s
    else match s.startable u.toNat with
      | [] => s
      | c :: _ => s.startCmd c)

/-- NOTICE_EXPIRY: held product starts proceed, in ascending unit number (R426). -/
def execNoticeExpiry (s : State) : Out :=
  s.ends (if !s.noticed || s.power.clocksStopped then s
    else (List.range 0x30).foldl (fun s u =>
      match (State.startable s u).find? (fun c => s.power.held.any (fun h => h.1 == c.core && h.2.1 == c.serial)) with
      | some c => State.startProduct s c
      | none => s) s)

/-- PASS_SWAP: the next pass of the product that streams on an array (R85). -/
def execPassSwap (u : BitVec 8) (s : State) : Out :=
  s.ends (if s.power.clocksStopped then s
    else match (s.runningOn u.toNat).find? Cmd.streams with
      | none => s
      | some c => let r := s.runPass c; r.1.setCmd r.2)

/-! ### Write-out items -/

/-- One item of a write-out goes to its destination (R98, R100, R116, R159). -/
def State.writeOut (s : State) (c : Cmd) : State :=
  let w := c.word
  let item := c.next
  let o := s.convertItem c item
  let poisoned := o.2.failed
  let k := o.2.counts
  let more := fun (r : State × Cmd) => r.1.setCmd { r.2 with next := item + 1, waited := false }
  match wfDest w with
  | 0 =>
    let r := o.1.storeItem c item o.2
    more (match r.2.2 with
      | some cause => r.1.itemFailed c item cause k
      | none => r.1.itemOk c item r.2.1 k)
  | 1 =>
    let r := o.1.stashItem c item o.2
    more (if r.2.2 then r.1.itemFailed c item 1 k else r.1.itemOk c item r.2.1 k)
  | 2 =>
    let payload := if poisoned then [] else itemPayload w o.2
    match o.1.contributeAcross (wfTile w) item (if poisoned then 1 else 0) payload with
    | none => s.setCmd { c with waited := true }
    | some (s, cause) =>
      (more (if poisoned then s.itemFailed c item 1 k
        else if cause ≠ 0 then s.itemFailed c item cause k
        else s.itemOk c item (crc32c payload) k)).settle none
  | _ =>
    let payload := itemPayload w o.2
    let s := o.1.setCmd { c with next := item + 1 }
    (s.sendItem { c with next := item + 1 } item (dTrip c.primary 0 * wfCols w) payload poisoned k).settle none

/-- WOUT_ITEM: the write-out that an array executes converts and delivers its next item. -/
def execWoutItem (u : BitVec 8) (s : State) : Out :=
  s.ends (if s.power.clocksStopped then s
    else match (s.runningOn u.toNat).find? (fun c => c.opcode == 0x21) with
      | none => s
      | some c =>
        if woutIdle c.word c.primary || itemCount c.primary ≤ c.next then s else s.writeOut c)

/-! ### Completion -/

/-- A failed store into an open buffer taints its set's next version (R130). -/
def State.noteStore (s : State) (c : Cmd) (failed : Bool) : State :=
  if failed && c.opcode = 0x30 && vfKind c.word = 2 then
    let x := s.wset (vfSet c.word)
    s.setWset (vfSet c.word) { x with storeFailed := true }
  else s

/-- A vector command completes as one item, item 0 (R380). -/
def State.finishVector (c : Cmd) (r : State × VecRun) : State :=
  let s := (r.1.noteStore c r.2.cause.isSome).digest c 0 r.2.cause.isSome (r.2.cause.getD 0) (crc32c r.2.bytes)
  s.finishCmd { c with counts := r.2.counts } (if r.2.cause.isSome then 1 else 0) (r.2.cause.getD 0)

/-- What completing a running command does; it stays as it is while work is left. -/
def State.completeCmd (s : State) (c : Cmd) : State :=
  let d := c.primary
  match c.opcode with
  | 0x20 =>
    if prodIdle c.word d then s.finishCmd c 0 0
    else if c.next < passesOf d then s
    else
      let k := { c.counts with nan := satAdd 32 c.counts.nan (s.nanEntries c) }
      match c.faultAt with
      | some (_, cause) => s.finishCmd { c with counts := k } 1 cause
      | none => s.finishCmd { c with counts := k } 0 0
  | 0x21 =>
    let items := if woutIdle c.word d then 0 else itemCount d
    if c.next < items || (wfDest c.word = 3 && c.sentItems.length < items) then s else s.finishCmd c 0 0
  | 0x30 => State.finishVector c (s.runVop c)
  | 0x31 => State.finishVector c (s.runVred c)
  | 0x60 =>
    let r := s.runCopy c
    r.1.finishCmd r.2 0 0
  | 0x61 => if c.sentItems.length < itemCount d then s else s.finishCmd c 0 0
  | 0x51 =>
    let s := s.runSub c
    match s.cmd c.core c.serial with
    | none => s
    | some c => if c.next < itemCount d then s else s.finishCmd c 0 0
  | _ => s

/-- COMMAND_COMPLETE: a unit finishes a command (R179, R184). -/
def execCommandComplete (c : CoreId) (serial : BitVec 32) (s : State) : Out :=
  s.ends (if s.power.clocksStopped then s
    else match s.cores.cmds.find? (fun k => k.core == c.val && k.serial % 2 ^ 32 == serial.toNat && k.phase == .running) with
      | none => s
      | some k => s.completeCmd k)

/-- COMPLETION_RECORD_WRITE: waiting records are written while their ring has room (R185). -/
def execCompletionRecordWrite (c : CoreId) (s : State) : Out :=
  s.ends (s.writeRecords c (s.core c).records.length)

/-! ### The stash controller (R119 to R131) -/

/-- The claim of a micro-batch can be granted: its slot is free and every updated set stands at its version, with no publish
that could take effect in the same cycle (R119, R131). -/
def State.grantable (s : State) (v : Nat) (k : Slot) : Bool :=
  k.state == 0 && s.stash.sets.all (fun e => !e.2.updated || (e.2.version == v && !s.publishReady e.1))

/-- CLAIM_GRANT: the slot becomes held, and the current buffers are pinned (R119). -/
def execClaimGrant (microBatch : BitVec 32) (s : State) : Out :=
  let m := microBatch.toNat
  let n := s.slotOf m
  let k := s.slot n
  s.ends (if s.stash.slotCount = 0 then s
    else match k.claim with
      | some (b, v, rel) =>
        if b ≠ m || !s.grantable v k then s
        else
          let pins := s.stash.sets.filterMap (fun e => if e.2.updated then some (e.1, e.2.current) else none)
          let s := pins.foldl (fun s p =>
            let x := State.wset s p.1
            State.setWset s p.1 (x.setPins p.2 (x.pinsOf p.2 + 1))) s
          s.setSlot n ⟨m, if rel.isSome then 2 else 1, none, 0, pins, rel.getD 0⟩
      | none => s)

/-- Some iteration of a nest touches one of the areas through a generator that counts from `base`. -/
def reachesArea (p d g extent base : Nat) (areas : List (Nat × Nat)) : Bool :=
  (List.range (dCount p)).any (fun n =>
    let a := dAddr p d g n + (base : Int)
    areas.any (fun x => spanMeets (a, a + (extent : Int)) x.1 x.2))

/-- The same through an element generator, whose elements may be packed. -/
def elementsReach (d g fmt base : Nat) (areas : List (Nat × Nat)) : Bool :=
  (List.range (dCount d)).any (fun n =>
    let e := elementAt d g fmt n
    let a := e.1 + (base : Int)
    areas.any (fun x => spanMeets (a, a + (elementBytesAt fmt e.2 : Int)) x.1 x.2))

/-- A command reads or writes a stash tile of its micro-batch. -/
def Cmd.namesStash (c : Cmd) : Bool :=
  (c.opcode == 0x20 && pfStash c.word) || (c.opcode == 0x21 && wfDest c.word == 1) ||
    (c.opcode == 0x30 && (vfKind c.word == 1 || vfStash c.word))

/-- A product reads one of the areas by address. -/
def State.prodReaches (s : State) (c : Cmd) (areas : List (Nat × Nat)) : Bool :=
  let w := c.word
  let d := c.primary
  let k := passReach w d
  !prodIdle w d && ((!pfStash w && reachesArea d d 0 (streamExtent w d k) 0 areas) ||
    (if pfSetOn w then s.granted c.microBatch && reachesArea d d 1 (tileExtent w d k (pfOut w)) (s.setBase c) areas
      else reachesArea d d 1 (tileExtent w d k (pfOut w)) 0 areas) ||
    (pfGate w && reachesArea d d 3 4 0 areas) ||
    (List.range 4).any (fun g => ((auxNeeds w).getD g ⟨false, false⟩).required &&
      reachesArea d c.auxiliary g (auxExtent w k (pfOut w) g (dPitch c.auxiliary g)) 0 areas))

/-- A vector command reads or writes one of the areas by address. -/
def State.vopReaches (s : State) (c : Cmd) (areas : List (Nat × Nat)) : Bool :=
  let w := c.word
  let d := c.primary
  (List.range 3).any (fun i => vopUses w i && !(i == 0 && vfStash w) && elementsReach d i (vfSrc w i) 0 areas) ||
    (vfKind w != 1 && elementsReach d 3 (vfDst w) (s.vopBase c) areas) ||
    (List.range 4).any (fun g => ((vopAuxNeeds w).getD g ⟨false, false⟩).required &&
      reachesArea d (dFlat c.auxiliary g) g (ceilDiv (dTrip d 0) 32) 0 areas)

/-- A command reads or writes one of the areas by address, outside the stash tiles it names. -/
def State.reaches (s : State) (c : Cmd) (areas : List (Nat × Nat)) : Bool :=
  let w := c.word
  let d := c.primary
  match c.opcode with
  | 0x20 => s.prodReaches c areas
  | 0x21 => !woutIdle w d && ((wfDest w == 0 && reachesArea d d 1 (wfCols w * fmtBytes (wfFmt w)) 0 areas) ||
      (maskRead (wfMask w) && reachesArea d d 2 (maskBytes (wfMask w) (dTrip d 0) (wfCols w)) 0 areas))
  | 0x30 => s.vopReaches c areas
  | 0x31 => elementsReach d 0 (rfSrc w) 0 areas || elementsReach d 3 (rfDst w) 0 areas
  | 0x50 =>
    let x := s.ctx (cfCtx w)
    x.memoryDests.any (fun e =>
      let a := bits e 47 0
      areas.any (fun y => spanMeets ((a : Int), ((a + cfItems w * x.slotSize : Nat) : Int)) y.1 y.2))
  | 0x51 => reachesArea d d 0 (s.ctx (cfCtx w)).entryBytes 0 areas
  | 0x60 => reachesArea d d 0 64 0 areas || reachesArea d d 1 64 0 areas
  | 0x61 => reachesArea d d 0 64 0 areas
  | _ => false

/-- The slot of a granted micro-batch and the buffers that its grant pinned. -/
def State.heldAreas (s : State) (m : Nat) : List (Nat × Nat) :=
  (s.slotBase m, s.stash.slotSize) ::
    (s.slot (s.slotOf m)).pins.map (fun p => ((s.wset p.1).base p.2, (s.wset p.1).size))

/-- A release still waits for a command accepted before it that reads or writes the micro-batch's slot or pinned buffers
(R121). -/
def State.releaseHeld (s : State) (m order : Nat) : Bool :=
  s.cores.cmds.any (fun c => decide (c.order < order) && c.phase != .done &&
    ((c.microBatch == m && c.namesStash) || s.reaches c (s.heldAreas m)))

/-- RELEASE_EFFECT: once the earlier commands on the micro-batch's slot and buffers are complete, the slot is free and its pins
go (R121). -/
def execReleaseEffect (microBatch : BitVec 32) (s : State) : Out :=
  let m := microBatch.toNat
  let n := s.slotOf m
  let k := s.slot n
  s.ends (if s.stash.slotCount = 0 || k.state ≠ 2 || k.owner ≠ m then s
    else if s.releaseHeld m k.release then s
    else
      let s := k.pins.foldl (fun s p =>
        let x := State.wset s p.1
        State.setWset s p.1 (x.setPins p.2 (x.pinsOf p.2 - 1))) s
      s.setSlot n { k with state := 0, pins := [], release := 0 })

/-- OPEN_GRANT: an open is granted once its target buffer's pins are gone (R128). -/
def execOpenGrant (set : BitVec 8) (s : State) : Out :=
  let x := s.wset set.toNat
  s.ends (if x.openState ≠ 1 || x.pinsOf x.target ≠ 0 then s
    else s.setWset set.toNat { x with openState := 2, storeFailed := false })

/-- PUBLISH_EFFECT: the open buffer becomes current at the next version (R130). -/
def execPublishEffect (set : BitVec 8) (s : State) : Out :=
  let n := set.toNat
  let x := s.wset n
  s.ends (match x.publish with
    | none => s
    | some _ =>
      if !s.publishReady n then s
      else
        let s := s.setWset n { x with
          current := x.target, version := min (x.version + 1) (2 ^ 32 - 1), openState := 0, publish := none,
          tainted := x.storeFailed, storeFailed := false }
        if x.storeFailed then (s.colophonFlag 21).colophonAdd 0x58 1 else s)

end Sys2Proof.Machine
end

