-- ==== Sys2Proof/Machine/Fail.lean ====
section
/-!
DEFINITION. Sys2Proof/Machine/Fail.lean: what ends work early: the reset and the restart of a context (R219, R258), and the failure of
a run with its broadcast (R389 to R392).
-/
namespace Sys2Proof.Machine

/-- Every open step closes as R219 provides, with one cause for its unfinished items. -/
def State.breakAll (s : State) (cause : Nat) : State :=
  (s.ctxs.foldl (fun s e => State.breakStep s e.1 cause) s).settle none

/-- Reset a bound context (R219). -/
def State.resetCtx (s : State) (n : Nat) : State :=
  let x := s.ctx n
  if x.state = ctxFenced then s.setCtx n { x with state := ctxIdle }
  else if x.state = ctxOpen then (s.breakStep n 0x0A).settle none
  else s

/-- Restart an idle context at an expected sequence (R258). -/
def State.restartCtx (s : State) (n v : Nat) : State :=
  let s := s.dropLead n
  let x := s.ctx n
  s.setCtx n { x with
    expected := v % 2 ^ 32, unclean := true, memberFailed := false, cursor := 0,
    members := x.members.map (fun m => { m with marked := false, window := [] }) }

/-- The run fails on this folio (R390, Table 18.2); once only. A folio without a binding keeps its colophon phase
(log entry 24). -/
def State.failRun (s : State) (origin port : Nat) : State :=
  if s.runFailed then s
  else
    let s := s.idxSet 0x8033 0 (2 ^ 63 + origin * 2 ^ 61 + (if origin = 2 then port else 0) * 2 ^ 48 + s.clock.stitch % 2 ^ 48)
    let s := if s.binding.loaded then { s with binding := { s.binding with phase := 6 } } else s
    let s := s.stopCores.breakAll 0x0B
    if 1 ≤ s.proof.phase && s.proof.phase ≤ 4 then { s with proof := { s.proof with phase := 7 } } else s

/-- Send the write of R391 out of these ports. -/
def State.broadcastRunFail (s : State) (ports : List Nat) : State :=
  let r := s.indexRequest opWrite 0xFFFF [requestRecord 0x8031 0 4 (beBytes 4 (s.idx 0x8030 0))]
  ports.foldl (fun s p => (State.enqueue s p r.2.2).1) r.1

/-- The device fails its run itself, where it has a run number and the run has not failed (R392, R430). -/
def State.failOwnRun (s : State) (origin port : Nat) (ports : List Nat) : State :=
  if s.idx 0x8030 0 = 0 || s.runFailed then s
  else (s.failRun origin port).broadcastRunFail ports

end Sys2Proof.Machine
end

