-- ==== Sys2Proof/Machine/Flags.lean ====
section
/-!
DEFINITION. Sys2Proof/Machine/Flags.lean: status words: what the Index entries read that are views of the state (Tables 4.5, 5.4, 5.5,
7.2, 7.4, 7.7, 9.11, 10.3, 10.7, 11.7, 14.8, 16.4 to 16.6, 17.6, 18.5, 19.6, 20.5), and every other entry from the Index store.
-/
namespace Sys2Proof.Machine

/-! ### Clocks, steps and sensors -/

/-- The fallback controller serves the Index (R349, R412): from the aligned boundary until loss of the reference. -/
def State.served (s : State) : Bool := s.clock.phase == .aligned && !s.clock.coasting

/-- Firmware is running (Table 19.6). -/
def State.firmwareRunning (s : State) : Bool := s.boot.state == 2

/-- The step requests of Table 20.3 that are pending now: binding, thermal, firmware absent, coasting; held from the
aligned boundary. -/
def State.stepRequests (s : State) : List Nat :=
  if s.clock.phase ≠ .aligned then [0]
  else [s.clock.bindingReq, s.clock.thermalReq, if s.firmwareRunning then 0 else 2,
    if s.clock.coasting || s.power.tripped then 2 else 0]

/-- The lowest frequency among them (R359). -/
def State.stepRequested (s : State) : Nat := s.stepRequests.foldl max 0

/-- 0x2002.00 (Table 16.5). -/
def State.clockState (s : State) : Nat :=
  b2n s.served * 2 ^ 31 + b2n s.clock.coasting * 2 ^ 30 + b2n s.clock.drained * 2 ^ 29 + s.clock.lossCause * 2 ^ 26 +
    s.stepRequested * 2 ^ 24

/-- 0x2005.00 (Table 16.6). -/
def State.startRecord (s : State) : Bytes :=
  let c := s.clock
  ((List.range 4).flatMap (fun i => leBytes 4 (min (c.phaseCycles.getD i 0) 0xFFFFFFFF))) ++ leBytes 4 (min c.releaseCycles 0xFFFFFFFF) ++
    leBytes 4 c.releaseAttempts ++ leBytes 8 c.releaseStitch

/-- 0x9020.00 (Table 20.5). -/
def State.stepWord (s : State) : Nat :=
  if s.clock.phase ≠ .aligned then 0
  else s.clock.bindingReq * 2 ^ 14 + s.clock.thermalReq * 2 ^ 12 + (if s.firmwareRunning then 3 else 2) * 2 ^ 10 +
    (if s.clock.coasting || s.power.tripped then 2 else 3) * 2 ^ 8

/-! ### Ports -/

/-- Lanes of a port's link (Table 14.1); a borrowed sub-link has those of its lender's mode. -/
def State.laneCount (s : State) (p : Nat) : Nat :=
  match s.mode p with
  | 1 => 4
  | 2 => 2
  | 3 => 1
  | 4 => 4
  | 5 => if p % 2 = 1 && s.mode (p - 1) = 2 then 2 else 1
  | _ => 0

/-- The lanes of a port's link. -/
def State.linkLanes (s : State) (p : Nat) : List Lane := (s.port p).lanes.take (s.laneCount p)

/-- A link mode that is native (Table 14.1). -/
def State.native (s : State) (p : Nat) : Bool := s.mode p == 1 || s.mode p == 2 || s.mode p == 3 || s.mode p == 5

/-- Every lane of the link holds codeword lock. -/
def State.codewordLock (s : State) (p : Nat) : Bool := decide (0 < s.laneCount p) && (s.linkLanes p).all (·.codeword)

/-- Every lane of the link holds marker lock (R436). -/
def State.markerLock (s : State) (p : Nat) : Bool := decide (0 < s.laneCount p) && (s.linkLanes p).all (·.marker)

/-- 0x3002.SS (Table 14.8). -/
def State.linkState (s : State) (p : Nat) : Nat :=
  let x := s.port p
  b2n x.up * 128 + b2n (s.codewordLock p) * 64 + b2n (s.markerLock p) * 32 + b2n x.creditSeen * 16 +
    b2n (s.markerLock p && (s.linkLanes p).all (·.lastValid)) * 8

/-- Ports whose attachment entries are meaningful: feeders and lent feeders of a manager (Table 1.2). -/
def State.feeds (s : State) (p : Nat) : Bool := s.idx 0x1010 0 ≠ 0 && s.idx 0x3100 p ≠ 0

/-! ### Stash, cores and contexts -/

/-- 0x5033.SS (Table 5.4). -/
def Slot.word (k : Slot) : Nat :=
  k.owner * 2 ^ 32 + k.state * 2 ^ 30 + b2n k.claim.isSome * 2 ^ 29 + min k.tiles 65535

/-- 0x5040.SS (Table 5.5). -/
def WeightSet.word (x : WeightSet) : Nat :=
  x.version * 2 ^ 32 + x.pins0 % 256 * 2 ^ 24 + x.pins1 % 256 * 2 ^ 16 + b2n (x.openState == 2) * 2 ^ 15 +
    b2n (x.openState == 1) * 2 ^ 14 + x.current * 2 ^ 13 + b2n x.tainted * 2 ^ 12 + x.kind * 2 ^ 10

/-- 0x5060.SS (Table 7.4): the record of a halt or stop, with the core's present run state. -/
def Core.haltBytes (x : Core) : Bytes :=
  (List.range 8).flatMap (fun i =>
    let w := x.halt.getD i 0
    leBytes 8 (if i = 0 then setBits w 55 48 x.run.code else w))

/-- 0x5070.SS (Table 7.7). -/
def State.regionWord (s : State) (k : Nat) : Nat :=
  let q := k / 64
  let refs := ((List.range 8).filter (fun i => (s.core (8 * q + i)).refs.contains (k % 64))).length
  let loading := fget (0, 0, 0) s.cores.regionLoading k ≠ (0, 0, 0)
  refs * 256 + (if loading then 3 else fget 0 s.cores.regionKind k)

/-- 0x6100+h.SS (Table 9.11). -/
def State.contextWord (s : State) (n : Nat) : Nat :=
  let x := s.ctx n
  if !x.declared then 0
  else x.state * 2 ^ 60 + x.slice * 2 ^ 58 +
    min ((x.items.filter (fun e => !e.2.emitted && e.2.opened)).length) 65535 * 2 ^ 32 + x.sequence

/-- 0x6170+h.SS (Table 10.7). -/
def Ctx.collectiveWord (x : Ctx) : Nat :=
  x.expected * 2 ^ 32 + b2n x.memberFailed * 2 ^ 31 + b2n x.sealed * 2 ^ 30 + b2n x.overflow * 2 ^ 29 +
    b2n x.unclean * 2 ^ 28 + b2n x.pendingCmd.isSome * 2 ^ 27 + min x.lead.length (2 ^ 24 - 1)

/-- One roster record (Table 10.3). -/
def Member.encode (m : Member) (w : Nat) : Bytes :=
  leBytes 16 (m.address * 2 ^ 112 + b2n m.marked * 2 ^ 111 + m.ones w * 2 ^ 96 + m.stepsLast * 2 ^ 64 +
    m.maxLateness * 2 ^ 32 + m.stepsMissed)

/-- 0x6160+h.SS: 128 records, unused ones zero. -/
def State.rosterBytes (s : State) (n : Nat) : Bytes :=
  slice ((s.ctx n).members.flatMap (fun m => m.encode (s.idx 0x600C 0))) 0 2048

/-- On-die leaves that the bound contexts reserve (R239). -/
def State.collatorLeaves (s : State) : Nat :=
  s.ctxs.foldl (fun n e => n + if e.2.declared then e.2.win * e.2.itemLeaves else 0) 0

/-! ### Proofing and boot -/

/-- Spans of the state regions (R393). -/
def State.stateSpans (s : State) : List (Nat × Nat) :=
  (s.stash.sets.flatMap (fun e => (e.2.buffer0, e.2.size) :: (if e.2.kind = 3 then [(e.2.buffer1, e.2.size)] else []))) ++
    ((s.binding.regions.filter (fun r => decide (1 ≤ r.kind) && decide (r.kind ≤ 3))).map (fun r => (r.address, r.size)))

/-- Insert a span by address. -/
def insertSpan (x : Nat × Nat) : List (Nat × Nat) → List (Nat × Nat)
  | [] => [x]
  | y :: t => if x.1 ≤ y.1 then x :: y :: t else y :: insertSpan x t

/-- Background blocks of up to 4 KiB, in ascending address order (R395): address and length. -/
def State.stateBlocks (s : State) : List (Nat × Nat) :=
  ((s.stateSpans.filter (fun e => e.2 ≠ 0)).foldl (fun l e => insertSpan e l) []).flatMap (fun e =>
    (List.range (ceilDiv e.2 4096)).map (fun i => (e.1 + 4096 * i, min 4096 (e.2 - 4096 * i))))

/-- The number of background blocks. -/
def State.blockCount (s : State) : Nat :=
  s.stateSpans.foldl (fun n e => n + ceilDiv e.2 4096) 0

/-- Digest frames flow both ways (Table 17.6). -/
def State.flowing (s : State) : Bool := s.proof.sentFrame && s.proof.gotFrame && !s.proof.lost

/-- 0x8015.00 (Table 17.6). -/
def State.proofState (s : State) : Nat :=
  b2n s.flowing * 2 ^ 31 + b2n s.proof.lost * 2 ^ 30 + b2n s.proof.mismatch * 2 ^ 29 + s.pendingRecords

/-- 0x8044.00 (Table 18.5). -/
def State.proofPhase (s : State) : Nat :=
  s.proof.phase * 2 ^ 56 + min s.proof.clean 255 * 2 ^ 48 + min s.proof.postponed 65535 * 2 ^ 32 +
    min s.proof.copyCursor (2 ^ 32 - 1)

/-- The words of a divergence record at reset (Table 17.5). -/
def divergenceReset : List Nat := [0, 0, 0xFFFFFFFF, 0, 0xFF00FF00 * 2 ^ 32, 0, 0, 0]

/-- 0x8020.SS. -/
def State.divergenceBytes (s : State) (k : Nat) : Bytes := (s.proof.records.getD k divergenceReset).flatMap (leBytes 8)

/-- A half of the firmware store. -/
def State.firmwareHalf (s : State) (h : Nat) : Bytes := s.mem.firmware.getD h []

/-- The staging half (R406). -/
def State.stagingHalf (s : State) : Nat := if s.boot.everRan then 1 - s.boot.runningHalf else 0

/-- 0xA012.00 (Table 19.6). -/
def State.firmwareState (s : State) : Nat :=
  let b := s.boot
  b.state * 2 ^ 56 + b.refusal * 2 ^ 48 + b.haltReason * 2 ^ 40 + b.runningHalf * 2 ^ 39 +
    (if s.firmwareRunning then leAt (s.firmwareHalf b.runningHalf) 0x0C 4 else 0)

/-! ### Reading an entry -/

/-- What the entries 0x1000 to 0x4FFF read where they are views of the state. -/
def State.viewLow (s : State) (i sub : Nat) : Option Nat :=
  match i with
  | 0x1001 => some s.dev.identity
  | 0x1004 => some (b2n s.dev.gradeB)
  | 0x1005 => some 1
  | 0x1020 | 0x1021 | 0x1022 => if s.feeds sub then none else some 0
  | 0x2001 => some s.clock.stitch
  | 0x2002 => some s.clockState
  | 0x2003 => some s.clock.step
  | 0x3002 => some (s.linkState sub)
  | 0x3003 => some (s.port sub).partner
  | 0x3014 | 0x3015 | 0x3016 | 0x3017 => some ((s.port sub).available (i - 0x3010))
  | 0x4011 => some s.switch.macs.length
  | 0x4040 => some s.switch.poolStatus
  | 0x4041 => some (s.freeCount false)
  | 0x4042 => some s.switch.externalSize
  | 0x4043 => some (s.freeCount true)
  | 0x4044 => some s.outstanding
  | 0x4045 => some 0x4000
  | _ =>
    if 0x4120 ≤ i && i ≤ 0x4127 then
      (let q := (s.port sub).queue (i - 0x4120)
       some (q.onDie * 2 ^ 32 + q.external))
    else if 0x4080 ≤ i && i ≤ 0x4083 && (sub = 3 || sub = 4) then
      some (if s.idx i 1 = 0 then 0 else s.peek64 (s.idx i 0 + 8 * (sub - 3)))
    else none

/-- What the entries 0x5000 to 0x6FFF read where they are views of the state. -/
def State.viewMid (s : State) (i sub : Nat) : Option Nat :=
  match i with
  | 0x5001 => some s.rectoMask
  | 0x5002 => some s.versoMask
  | 0x5030 => some s.stash.slotCount
  | 0x5031 => some s.stash.slotSize
  | 0x5032 => some s.stash.base
  | 0x5033 => some (s.slot sub).word
  | 0x5040 => some (s.wset sub).word
  | 0x5050 => some (fget 0 s.cores.syncs sub)
  | 0x5061 => some (s.core sub).run.code
  | 0x5063 => some (s.core sub).ringBase
  | 0x5064 => some (s.core sub).ringSize
  | 0x5065 => some (s.core sub).producer
  | 0x5066 => some (if (s.core sub).ringSize = 0 then 0 else s.peek64 ((s.core sub).ringBase + 8))
  | 0x5070 => some (s.regionWord sub)
  | 0x5072 => some (fget 0xFFFF s.cores.regionOverlay sub)
  | 0x5091 => some s.colophonStatus
  | 0x6001 => some (s.ctxs.filter (fun e => e.2.declared)).length
  | 0x6003 => some s.collatorLeaves
  | 0x6009 => some s.leadLeaves
  | _ =>
    if 0x6100 ≤ i && i ≤ 0x610F then some (s.contextWord (256 * (i - 0x6100) + sub))
    else if 0x6170 ≤ i && i ≤ 0x617F then some (s.ctx (256 * (i - 0x6170) + sub)).collectiveWord
    else if 0x6140 ≤ i && i ≤ 0x615F && !(s.ctx (256 * (i % 16) + sub)).declared then some (resetOf (ikey i sub))
    else none

/-- What the entries from 0x7000 read where they are views of the state. -/
def State.viewHigh (s : State) (i : Nat) : Option Nat :=
  match i with
  | 0x8015 => some s.proofState
  | 0x8044 => some s.proofPhase
  | 0x8045 => some s.blockCount
  | 0x9020 => some s.stepWord
  | 0x9022 => some 0x0000320034803E80
  | 0xA002 => some (b2n s.boot.locked)
  | 0xA012 => some s.firmwareState
  | 0xA015 => some (s.firmwareHalf s.stagingHalf).length
  | 0xA041 => some s.dev.minSecurityVersion
  | 0xA052 => some s.boot.reportState
  | 0xF001 => some s.dev.idcode
  | _ => none

/-- The value of a numeric entry. -/
def State.entryValue (s : State) (i sub : Nat) : Nat :=
  ((if i < 0x5000 then s.viewLow i sub else if i < 0x7000 then s.viewMid i sub else s.viewHigh i)).getD (s.idx i sub)

/-- ASCII bytes. -/
def ascii (t : String) : Bytes := t.toList.map (fun c => BitVec.ofNat 8 c.toNat)

/-- The bytes of a DOMAIN or VISIBLE_STRING entry that is read at offset 0; 0x7011.00 is not among them. -/
def State.entryBytes (s : State) (i sub : Nat) : Bytes :=
  match i with
  | 0x1000 => ascii "KNF-TF204"
  | 0x1003 => s.dev.certificate
  | 0x2005 => s.startRecord
  | 0x5060 => (s.core sub).haltBytes
  | 0x5062 => (List.range 32).flatMap (fun r => leBytes 8 ((s.core sub).reg r))
  | 0x5084 => slice (s.domain 0x5084 0) 0 48
  | 0x5090 => (List.range s.colophonSize).map (fun o => s.colophonByte o)
  | 0x6300 => leBytes 16 (s.marks.getD sub 0)
  | 0x7040 => leBytes 16 (s.mem.errorLog.getD sub 0)
  | 0x8020 => s.divergenceBytes sub
  | 0xA013 => slice (s.domain 0xA013 0) 0 48
  | 0xA014 => slice (s.domain 0xA014 0) 0 48
  | 0xA020 => slice (s.domain 0xA020 sub) 0 48
  | 0xA021 => slice (s.dev.fusedOperatorKeys.getD sub []) 0 48
  | 0xA030 => s.dev.rootKey
  | 0xA031 => s.dev.identityKey
  | 0xA040 => slice (s.dev.fusedFirmwareKeys.getD sub []) 0 48
  | 0xA051 => slice s.boot.report 0 352
  | _ =>
    if 0x6160 ≤ i && i ≤ 0x616F then s.rosterBytes (256 * (i - 0x6160) + sub)
    else if 0x4148 ≤ i && i ≤ 0x4157 then slice (s.domain i sub) 0 64
    else s.domain i sub

/-- A read that the entry's own rule refuses: a register snapshot of a running core (Table 7.7), a report still being
signed (R417). -/
def State.readRefused (s : State) (i sub : Nat) : Bool :=
  (i == 0x5062 && (s.core sub).run == .running) || (i == 0xA051 && s.boot.reportState == 1)

/-- A DOMAIN value as it travels, numeric values big-endian (R345). -/
def State.wireValue (s : State) (i sub : Nat) : Bytes :=
  match entryOf i sub with
  | none => []
  | some e => if e.type.isBytes then s.entryBytes i sub else beBytes e.type.size (s.entryValue i sub)

end Sys2Proof.Machine
end

