-- ==== Sys2Proof/Machine/Image.lean ====
section
/-!
DEFINITION. Sys2Proof/Machine/Image.lean: a binding image (R200 to R202): its header, its sections, the records of its
declaration, what of them is reserved, and the order of events it declares.
-/
namespace Sys2Proof.Machine

/-- A record of the resource declaration: its type, its image offset and its length. -/
structure ImageRecord where
  kind : Nat
  off : Nat
  len : Nat
  deriving DecidableEq, Repr

/-- An image: its bytes, its sections as image offset and length, its records in order. -/
structure Image where
  bytes : Bytes
  sections : List (Nat × Nat)
  records : List ImageRecord
  deriving DecidableEq, Repr

/-- What the Binder reports: a refusal code and a detail word. -/
abbrev Refused := Option (Nat × Nat)

/-- Refuse when a condition holds. -/
def refuseIf (b : Bool) (code detail : Nat) : Refused := if b then some (code, detail) else none

/-- The first refusal of a list. -/
def firstRefusal (xs : List Refused) : Refused := xs.findSome? (fun x => x)

/-- Bytes of the header and of the signature block. -/
def headerBytes : Nat := 64
def blockBytes : Nat := 208

/-- Section number none. -/
def noSection : Nat := 0xFFFFFFFF

/-- A field of the header (Table 8.1). -/
def Image.head (m : Image) (off n : Nat) : Nat := leAt m.bytes off n

/-- Image length. -/
def Image.length (m : Image) : Nat := m.head 0x10 8

/-- Offset of the signature block. -/
def Image.block (m : Image) : Nat := m.length - blockBytes

/-- A field of a record, by its offset behind the record header. -/
def Image.field (m : Image) (r : ImageRecord) (off n : Nat) : Nat := leAt m.bytes (r.off + 8 + off) n

/-- The records of a type. -/
def Image.ofKind (m : Image) (k : Nat) : List ImageRecord := m.records.filter (fun r => r.kind == k)

/-! ### Layout (R200, R202): check 2 -/

/-- Length of a record of a type at an image offset (Table 8.2); none for a type not in the table. -/
def recordLength (b : Bytes) (o kind : Nat) : Option Nat :=
  match kind with
  | 0x01 => some 32
  | 0x02 => some 40
  | 0x03 => some 16
  | 0x04 => some 16
  | 0x05 => some 16
  | 0x06 => let n := leAt b (o + 24) 2; some (32 + 4 * n + 4 * (n % 2))
  | 0x07 => some 48
  | 0x08 => some 32
  | 0x09 => some 16
  | 0x0A => some (24 + 8 * leAt b (o + 20) 4)
  | 0x0B => some (16 + 16 * leAt b (o + 8) 4)
  | 0x0C => some (16 + 16 * leAt b (o + 8) 4)
  | _ => none

/-- What a record may not repeat: a type the table allows once, a core, a tie group. -/
def recordKey (b : Bytes) (o kind : Nat) : Option (Nat × Nat) :=
  match kind with
  | 0x01 | 0x06 | 0x0B | 0x0C => some (kind, 0)
  | 0x02 | 0x09 => some (kind, leAt b (o + 8) 1)
  | _ => none

/-- A scratch region with a section, which Table 8.2 gives it none of. -/
def scratchFilled (b : Bytes) (o kind : Nat) : Bool := kind == 0x08 && leAt b (o + 8) 1 == 4 && leAt b (o + 12) 4 != noSection

/-- Walk the declaration: its records, and the offset of the first one that breaks a rule. -/
def walkRecords (b : Bytes) (stop : Nat) : Nat → Nat → List (Nat × Nat) → List ImageRecord → List ImageRecord × Option Nat
  | 0, o, _, acc => (acc.reverse, some o)
  | k + 1, o, seen, acc =>
    if o = stop then (acc.reverse, none)
    else
      let kind := leAt b o 4
      let n := leAt b (o + 4) 4
      let key := recordKey b o kind
      if stop < o + 8 || stop < o + n || recordLength b o kind ≠ some n || key.any seen.contains || scratchFilled b o kind then (acc.reverse, some o)
      else walkRecords b stop k (o + n) (key.toList ++ seen) (⟨kind, o, n⟩ :: acc)

/-- Section table entries, as image offset and length. -/
def sectionTable (b : Bytes) : List (Nat × Nat) :=
  (List.range (leAt b 0x38 4)).map (fun k => (leAt b (leAt b 0x30 8 + 16 * k) 8, leAt b (leAt b 0x30 8 + 16 * k + 8) 8))

/-- The first section that leaves the image or meets what stands before it. -/
def sectionFault (block : Nat) : Nat → List (Nat × Nat) → List (Nat × Nat) → Option Nat
  | _, [], _ => none
  | k, x :: t, taken =>
    if block < x.1 + x.2 || taken.any (fun y => meets x.1 x.2 y.1 y.2) then some k
    else sectionFault block (k + 1) t (x :: taken)

/-- The image of the staged bytes, or the offset of the first layout fault: header, declaration, table, sections, block,
records. -/
def parseImage (b : Bytes) : Except Nat Image :=
  let length := leAt b 0x10 8
  let block := length - blockBytes
  let d := leAt b 0x20 8
  let n := leAt b 0x28 8
  let t := leAt b 0x30 8
  let count := leAt b 0x38 4
  if b.length < headerBytes || b.take 8 != ascii "TFBIND01" then .error 0x00
  else if leAt b 0x08 4 ≠ 1 then .error 0x08
  else if b.length < length || length < headerBytes + blockBytes then .error 0x10
  else if d < headerBytes || block < d + n then .error 0x20
  else if t % 16 ≠ 0 || t < headerBytes || 65535 < count || block < t + 16 * count || meets t (16 * count) d n then .error 0x30
  else match sectionFault block 0 (sectionTable b) [(0, headerBytes), (d, n), (t, 16 * count)] with
    | some k => .error (t + 16 * k)
    | none =>
      match (List.range 15).find? (fun k => leAt b (block + 97 + k) 1 ≠ 0) with
      | some k => .error (block + 97 + k)
      | none =>
        match walkRecords b (d + n) (n / 8 + 1) d [] [] with
        | (_, some o) => .error o
        | (rs, none) =>
          if rs.any (fun r => r.kind == 1) then .ok ⟨b.take length, sectionTable b, rs⟩ else .error d

/-! ### Reserved fields (Table 8.3, check 5) -/

/-- Reserved fields of a record, as image offset and size; within a stash shape and an order event the reserved bits are
part of a field. -/
def Image.reservedSpans (m : Image) (r : ImageRecord) : List (Nat × Nat) :=
  let p := r.off + 8
  match r.kind with
  | 0x01 => [(p + 2, 2), (p + 17, 7)]
  | 0x02 => [(p + 1, 3), (p + 28, 4)]
  | 0x03 => [(p + 3, 1)]
  | 0x04 => [(p + 3, 1)]
  | 0x06 =>
    let n := m.field r 16 2
    [(p + 9, 3), (p + 18, 6)] ++ (if n % 2 = 1 then [(p + 24 + 4 * n, 4)] else [])
  | 0x07 => [(p + 2, 6), (p + 36, 4)]
  | 0x08 => [(p + 2, 2)]
  | 0x09 => [(p + 3, 1)]
  | 0x0A => [(p + 3, 1)]
  | 0x0B => [(p + 4, 4)]
  | 0x0C => (p + 4, 4) :: (List.range (m.field r 0 4)).map (fun k => (p + 8 + 16 * k + 1, 7))
  | _ => []

/-- Offsets at which a record has a reserved bit set inside a field. -/
def Image.reservedBits (m : Image) (r : ImageRecord) : List Nat :=
  let p := r.off + 8
  match r.kind with
  | 0x06 => ((List.range (m.field r 16 2)).filter (fun k => m.field r (24 + 4 * k) 4 % 2 ^ 12 ≠ 0)).map (fun k => p + 24 + 4 * k)
  | 0x0B => ((List.range (m.field r 0 4)).filter (fun k => m.field r (8 + 16 * k) 8 % 2 ^ 39 ≠ 0)).map (fun k => p + 8 + 16 * k)
  | _ => []

/-- The least of some offsets. -/
def leastOf (xs : List Nat) : Option Nat :=
  match xs with
  | [] => none
  | x :: t => some (t.foldl min x)

/-- The lowest offset of a record's reserved fields that is not zero. -/
def Image.reservedIn (m : Image) (r : ImageRecord) : Option Nat :=
  leastOf (((m.reservedSpans r).filter (fun e => leAt m.bytes e.1 e.2 ≠ 0)).map (·.1) ++ m.reservedBits r)

/-- The first reserved field that is not zero: header, then records in order. -/
def Image.reserved (m : Image) : Option Nat :=
  if m.head 0x0C 4 / 4 ≠ 0 then some 0x0C
  else if m.head 0x3C 4 ≠ 0 then some 0x3C
  else m.records.findSome? m.reservedIn

/-! ### What the records declare -/

/-- Bytes of a section. -/
def Image.sectionLength (m : Image) (k : Nat) : Nat := (m.sections.getD k (0, 0)).2

/-- The section exists. -/
def Image.hasSection (m : Image) (k : Nat) : Bool := decide (k < m.sections.length)

/-- Training flag, strict flag. -/
def Image.training (m : Image) : Bool := bit (m.head 0x0C 4) 1
def Image.needsStrict (m : Image) : Bool := bit (m.head 0x0C 4) 0

/-- The stash record. -/
def Image.stashRecord (m : Image) : Option ImageRecord := (m.ofKind 6).head?

/-- Slot count S; 0 where no stash is declared (R114). -/
def Image.slots (m : Image) : Nat :=
  match m.stashRecord with
  | some r => m.field r 8 1
  | none => 0

/-- Tile shapes: rows, columns, format. -/
def Image.tileShapes (m : Image) : List (Nat × Nat × Nat) :=
  match m.stashRecord with
  | some r => (List.range (m.field r 16 2)).map (fun k =>
      let w := m.field r (24 + 4 * k) 4
      (bits w 31 24 + 1, bits w 23 16 + 1, bits w 15 12))
  | none => []

/-- A set of a kind that is updated. -/
def Image.updatedSet (m : Image) (r : ImageRecord) : Bool := m.field r 1 1 == 2 || m.field r 1 1 == 3

/-- The context that a record declares; its program is the whole section where the section holds whole words. -/
def Image.context (m : Image) (r : ImageRecord) : Ctx :=
  let k := m.field r 8 4
  let sec := m.sections.getD k (0, 0)
  let dests := (List.range (m.field r 12 4)).map (fun i => m.field r (16 + 8 * i) 8)
  { Ctx.reset with
    declared := true, slice := m.field r 2 1, group := m.field r 4 4, shape := dests.headD 0, dests := dests.drop 1,
    program := if m.hasSection k && sec.2 % 4 = 0 then (List.range (sec.2 / 4)).map (fun i => leAt m.bytes (sec.1 + 4 * i) 4) else [] }

/-- Contexts in declaration order: number, destination count, context. -/
def Image.contexts (m : Image) : List (Nat × Nat × Ctx) :=
  (m.ofKind 0x0A).map (fun r => (m.field r 0 2, m.field r 12 4, m.context r))

/-- Sections that hold instructions: those of fixed regions and of overlays. -/
def Image.isCode (m : Image) (k : Nat) : Bool :=
  (m.ofKind 4).any (fun r => m.field r 2 1 == 1 && m.field r 4 4 == k) || (m.ofKind 5).any (fun r => m.field r 4 4 == k)

/-- Every 16-byte word of every code section, with its image offset. -/
def Image.code (m : Image) : List (Nat × Nat) :=
  ((List.range m.sections.length).filter m.isCode).flatMap (fun k =>
    let sec := m.sections.getD k (0, 0)
    (List.range (sec.2 / 16)).map (fun i => (sec.1 + 16 * i, leAt m.bytes (sec.1 + 16 * i) 16)))

/-- The unit that a command names in its word. -/
def writtenUnit (w : Nat) : Option Nat := if decide (wOp w < 0x20) || !opcodes.contains (wOp w) || bit w 111 then none else some (bits w 119 112)

/-- An event of the synchronization order. -/
structure OrderEvent where
  kind : Nat
  ref : Nat                  -- weight set or tie group
  use : Nat
  core : Nat
  batch : Nat
  version : Nat
  deriving DecidableEq, Repr

/-- The synchronization order; empty where no record declares one (R204). -/
def Image.order (m : Image) : List OrderEvent :=
  match (m.ofKind 0x0B).head? with
  | none => []
  | some r => (List.range (m.field r 0 4)).map (fun k =>
      let a := m.field r (8 + 16 * k) 8
      let b := m.field r (16 + 16 * k) 8
      ⟨bits a 63 60, bits a 59 52, bits a 51 44, bits a 43 39, bits b 63 32, bits b 31 0⟩)

/-- Tile thresholds (record 0x0C). -/
def Image.tiles (m : Image) : List (Nat × Nat) :=
  match (m.ofKind 0x0C).head? with
  | none => []
  | some r => (List.range (m.field r 0 4)).map (fun k => (m.field r (8 + 16 * k) 1, m.field r (16 + 16 * k) 8))

/-- The binding contains a backward pass (R204). -/
def Image.backward (m : Image) : Bool :=
  m.training || m.slots ≠ 0 || (m.ofKind 7).any m.updatedSet || !(m.ofKind 9).isEmpty ||
    m.code.any (fun e => wOp e.2 == 0x20 && (match writtenUnit e.2 with
      | some u => decide (0x10 ≤ u) && decide (u < 0x30)
      | none => false))

end Sys2Proof.Machine
end

