-- ==== Sys2Proof/Machine/BinderChecks.lean ====
section
/-!
DEFINITION. Sys2Proof/Machine/BinderChecks.lean: the load-time checks 3 to 21 of Table 8.3, in their order.
-/
namespace Sys2Proof.Machine

/-! ### Checks 3 and 4: key and signature (R201) -/

/-- Registered operator key hashes: every 0xA020.SS and 0xA021.SS, locked or not (R354); all zero matches none. -/
def State.operatorKeys (s : State) : List Bytes :=
  ((List.range 4).flatMap (fun k => [s.entryBytes 0xA020 k, s.entryBytes 0xA021 k])).filter (fun k => k.any (· != 0))

/-- Check 3. -/
def State.checkKey (s : State) (m : Image) : Refused :=
  refuseIf (!s.operatorKeys.contains (sha384 (slice m.bytes m.block 97))) 0x02 0

/-- Check 4. -/
def checkSignature (m : Image) : Refused :=
  refuseIf (!ecdsaVerify (slice m.bytes m.block 97) (sha384 (m.bytes.take m.block)) (slice m.bytes (m.block + 112) 96)) 0x01 0

/-- Check 5. -/
def checkReserved (m : Image) : Refused := m.reserved.map (fun o => (0x04, o))

/-! ### Check 6: units -/

/-- Absent units among those of a mask whose bit 0 is unit `base`. -/
def State.absentIn (s : State) (base mask n : Nat) : Option Nat :=
  ((List.range n).find? (fun b => bit mask b && !s.present (base + b))).map (· + base)

/-- Check 6: masks, cores, accumulator rows, tie groups, then written units. -/
def State.checkUnits (s : State) (m : Image) : Refused :=
  let masks := match (m.ofKind 1).head? with
    | none => none
    | some r => [s.absentIn 0x00 (m.field r 0 2) 16, s.absentIn 0x10 (m.field r 4 4) 32, s.absentIn 0x40 (m.field r 8 8) 64,
        s.absentIn 0x80 (m.field r 16 1) 8].findSome? (fun x => x)
  let cores := ((m.ofKind 2).map (fun r => m.field r 0 1)).find? (fun c => decide (31 < c))
  let rows := ((m.ofKind 3).map (fun r => m.field r 0 1)).find? (fun u => !(isArray u && s.present u))
  let ties := ((m.ofKind 9).map (fun r => m.field r 2 1)).find? (fun v => decide (31 < v) || !s.present (0x10 + v))
  let words := m.code.findSome? (fun e => (writtenUnit e.2).filter (fun u => isArray u && !s.present u))
  ([masks, cores, rows, ties.map (· + 0x10), words].findSome? (fun x => x)).map (fun u => (0x06, u))

/-! ### Check 7: regions of memory (R114, R125, R185, Table 13.3) -/

/-- The regions a declaration places, in declaration order: address, size, alignment, in SRAM only. -/
def Image.placed (m : Image) : List (Nat × Nat × Nat × Bool) :=
  m.records.flatMap (fun r =>
    match r.kind with
    | 0x02 => if m.field r 24 4 = 0 then [] else [(m.field r 16 8, 64 + 64 * m.field r 24 4, 64, true)]
    | 0x06 => if m.field r 8 1 = 0 then [] else [(m.field r 0 8, m.field r 8 1 * m.field r 12 4, 2048, true)]
    | 0x07 =>
      (m.field r 16 8, m.field r 8 8, 2048, true) ::
        (if m.field r 1 1 = 3 then [(m.field r 24 8, m.field r 8 8, 2048, true)] else [])
    | 0x08 => [(m.field r 8 8, m.field r 16 8, 64, false)]
    | _ => [])

/-- The first region that meets one before it. -/
def overlapping : List (Nat × Nat × Nat × Bool) → List (Nat × Nat) → Option Nat
  | [], _ => none
  | x :: t, seen => if seen.any (fun y => meets x.1 x.2.1 y.1 y.2) then some x.1 else overlapping t ((x.1, x.2.1) :: seen)

/-- Check 7. -/
def State.checkMemory (s : State) (m : Image) : Refused :=
  let bad := (m.ofKind 8).find? (fun r =>
    let k := m.field r 0 1
    let sec := m.field r 4 4
    k == 0 || decide (4 < k) || (sec != noSection && (!m.hasSection sec || decide (m.field r 16 8 < m.sectionLength sec))))
  let placed := m.placed.find? (fun x =>
    x.1 % x.2.2.1 != 0 || !(inSram x.1 x.2.1 || (!x.2.2.2 && s.inGeneral x.1 x.2.1)))
  let size := roundUp (128 + ceilDiv m.tiles.length 8) 64
  firstRefusal [bad.map (fun r => (0x05, m.field r 8 8)), placed.map (fun x => (0x05, x.1)),
    (overlapping m.placed []).map (fun a => (0x05, a)), refuseIf (decide (0x4000000 < size)) 0x05 (colophonBase + 0x4000000)]

/-! ### Check 8: instruction memory (R189, R192) -/

/-- Detail word of a region. -/
def regionDetail (q r : Nat) : Nat := 256 * q + r

/-- Bytes of a region. -/
def regionBytes : Nat := 131072

/-- Kinds declared so far by detail word, and the first bad region record. -/
def Image.regionFault (m : Image) : List ImageRecord → List (Nat × Nat) → Option Nat
  | [], _ => none
  | r :: t, seen =>
    let q := m.field r 0 1
    let k := m.field r 1 1
    let kind := m.field r 2 1
    let sec := m.field r 4 4
    let d := regionDetail q k
    let bad := decide (3 < q) || decide (63 < k) || seen.any (fun e => e.1 == d) || !(kind == 1 || kind == 2) ||
      (if kind = 1 then !m.hasSection sec || decide (regionBytes < m.sectionLength sec) || m.sectionLength sec % 16 != 0
        else sec != noSection)
    if bad then some d else Image.regionFault m t ((d, kind) :: seen)

/-- Kind of a declared region, 0 where none is declared. -/
def Image.regionKindOf (m : Image) (q k : Nat) : Nat :=
  match (m.ofKind 4).find? (fun r => m.field r 0 1 == q && m.field r 1 1 == k) with
  | some r => m.field r 2 1
  | none => 0

/-- The first region of a core that is not declared in its quire, or the region of an entry outside its regions. -/
def Image.fetchFault (m : Image) (r : ImageRecord) : Option Nat :=
  let q := m.field r 0 1 / 8
  let mask := m.field r 8 8
  let entry := m.field r 4 4
  match (List.range 64).find? (fun k => bit mask k && m.regionKindOf q k == 0) with
  | some k => some (regionDetail q k)
  | none => if 2 ^ 19 ≤ entry || !bit mask (entry / 8192) then some (regionDetail q (entry / 8192 % 256)) else none

/-- Check 8; the overlay store lies where the image has the section in the staging region, at 16 bytes (Table 13.3, log
entry 45). -/
def checkInstructions (m : Image) : Refused :=
  let overlay := (m.ofKind 5).find? (fun r =>
    m.field r 0 2 == 0xFFFF || !m.hasSection (m.field r 4 4) || decide (regionBytes < m.sectionLength (m.field r 4 4)) ||
      (m.sections.getD (m.field r 4 4) (0, 0)).1 % 16 != 0 ||
      m.regionKindOf (m.field r 2 1) (m.field r 3 1) != 2)
  ([m.regionFault (m.ofKind 4) [], (m.ofKind 2).findSome? m.fetchFault,
    overlay.map (fun r => regionDetail (m.field r 2 1) (m.field r 3 1))].findSome? (fun x => x)).map (fun d => (0x07, d))

/-! ### Checks 9 to 12 -/

/-- A power of two. -/
def isPower (n : Nat) : Bool := n != 0 && n == 2 ^ Nat.log2 n

/-- Check 9 (R185); a misaligned ring meets check 7 first (Table 13.3), and only a base without a ring comes here. -/
def checkRings (m : Image) : Refused :=
  ((m.ofKind 2).find? (fun r =>
    let n := m.field r 24 4
    (n != 0 && (!isPower n || decide (n < 64) || decide (65536 < n))) || m.field r 16 8 % 64 != 0)).map
      (fun r => (0x08, m.field r 0 1))

/-- Two row records of different cores that share rows outside one tie group (R93). -/
def Image.rowsClash (m : Image) (a b : ImageRecord) : Bool :=
  m.field a 0 1 == m.field b 0 1 && m.field a 1 1 != m.field b 1 1 &&
    meets (m.field a 4 2) (m.field a 6 2) (m.field b 4 2) (m.field b 6 2) &&
    !(m.field a 2 1 != 0 && m.field a 2 1 == m.field b 2 1)

/-- The first bad row record. -/
def Image.rowFault (m : Image) : List ImageRecord → List ImageRecord → Refused
  | [], _ => none
  | r :: t, seen =>
    if m.field r 6 2 = 0 || 4096 < m.field r 4 2 + m.field r 6 2 || 31 < m.field r 1 1 || seen.any (m.rowsClash r) then
      some (0x09, 256 * m.field r 0 1 + m.field r 1 1)
    else Image.rowFault m t (r :: seen)

/-- Check 10. -/
def checkRows (m : Image) : Refused := m.rowFault (m.ofKind 3) []

/-- Check 11 (R114, R115); the required Z is the next multiple of 2 KiB. -/
def checkStash (m : Image) : Refused :=
  match m.stashRecord with
  | none => none
  | some r =>
    let z := m.field r 12 4
    let n := m.field r 16 2
    let need := slotNeeds m.tileShapes
    let bad := m.tileShapes.any (fun t => fmtBits t.2.2 == 0) || decide (64 < m.slots) || decide (z < need) ||
      m.field r 0 8 % 2048 != 0 || z % 2048 != 0 || n == 0 || decide (4096 < n)
    refuseIf (m.slots ≠ 0 && bad) 0x0A (roundUp need 2048)

/-- The first bad weight set. -/
def Image.setFault (m : Image) : List ImageRecord → List Nat → Option Nat
  | [], _ => none
  | r :: t, seen =>
    let n := m.field r 0 1
    let kind := m.field r 1 1
    let sec := m.field r 32 4
    let second := m.field r 24 8 != 0
    if seen.contains n || kind == 0 || decide (3 < kind) || second != (kind == 3) ||
        (sec != noSection && (!m.hasSection sec || decide (m.field r 8 8 < m.sectionLength sec))) then some n
    else Image.setFault m t (n :: seen)

/-- Check 12 (R125). -/
def checkSets (m : Image) : Refused :=
  let lost := (m.ofKind 8).find? (fun r =>
    (m.field r 0 1 == 1 || m.field r 0 1 == 2) && !(m.ofKind 7).any (fun w => m.field w 0 1 == m.field r 1 1))
  ([m.setFault (m.ofKind 7) [], lost.map (fun r => m.field r 1 1)].findSome? (fun x => x)).map (fun k => (0x0C, k))

/-! ### Check 13: Collator contexts (R170, R210, R221 to R223) -/

/-- Formats zero. -/
def noFormats (i : Nat) : Bool := pIn i == 0 && pOut i == 0

/-- Flags and parameter of a collecting operation (Table 6.18, R223). -/
def collectOk (i c e emits : Nat) : Bool :=
  let op := pOp i
  let f := pFlags i
  let p := pParam i
  if op = 4 then (f == 0 && p == 0) || (f == 1 && decide (1 ≤ p) && decide (p ≤ c))
  else if op = 6 || op = 0x0A then decide (f ≤ 1) && decide (1 ≤ p) && decide (p ≤ 16) && p == c
  else if op = 5 then f == 0 && p == 0 && c == 1 && emits != 0 && e % emits == 0
  else f == 0 && p == 0

/-- Flags and parameter of a shaping operation. -/
def shapeOk (i : Nat) : Bool :=
  let f := pFlags i
  let p := pParam i
  match pOp i with
  | 7 => decide (f ≤ 1) && p == 0
  | 8 => f == 0 && decide (p / 4096 ≤ 7) && bits p 11 2 == 0
  | _ => decide (f ≤ 1) && p != 0

/-- The form of a program (R221, R222): `stage` 0 before the collecting operation, 1 behind it, 2 behind an EMIT; `fmt` is
the format of the working value; `n` the destination count. -/
def programForm (c e n emits : Nat) : List Nat → (stage fmt : Nat) → (scatter : Bool) → Bool
  | [], _, _, _ => false
  | i :: t, stage, fmt, scatter =>
    let op := pOp i
    let formats := fmtNarrow (pIn i) && fmtNarrow (pOut i)
    if op = 0 then i == 0 && t.isEmpty && stage == 2
    else if op = 0x0B || op = 0x0C then noFormats i && programForm c e n emits t stage fmt scatter
    else if op = 0x0D then
      stage != 0 && noFormats i && pFlags i == 0 && decide (1 ≤ pParam i) && decide (pParam i < n) &&
        programForm c e n emits t 2 fmt scatter
    else if isCollecting op then
      stage == 0 && formats && collectOk i c e emits && programForm c e n emits t 1 (pOut i) (op == 5)
    else if isShaping op then
      stage == 1 && !scatter && formats && pIn i == fmt && shapeOk i && programForm c e n emits t 1 (pOut i) scatter
    else false

/-- Working length in front of instruction k. -/
def Ctx.lengthBefore (x : Ctx) (k : Nat) : Nat := x.lengthAfter (x.program.take k) 0

/-- Working lengths stay within R223. -/
def Ctx.lengthsOk (x : Ctx) : Bool :=
  (List.range (x.program.length + 1)).all (fun k => decide (x.lengthBefore k ≤ 1048576) &&
    (pOp (x.program.getD k 0) != 7 || decide (x.lengthBefore k ≤ 65536)))

/-- A destination of context n is well formed; `known`: the declared contexts. -/
def State.destOk (s : State) (n : Nat) (known : List Nat) (d : Nat) : Bool :=
  match bits d 63 60 with
  | 1 => bits d 59 48 == 0 && bits d 47 0 % 64 == 0 && s.inData (bits d 47 0) 1
  | 2 => bits d 59 51 == 0 && (bits d 50 48 == 4 || bits d 50 48 == 5 || bits d 50 48 == 6) &&
      bits d 47 32 != 0 && bits d 47 32 != 0xFFFF
  | 3 => bits d 59 12 == 0 && bits d 11 0 != n && known.contains (bits d 11 0)
  | _ => false

/-- A local context takes what an EMIT of this context sends. -/
def Ctx.takenBy (x y : Ctx) : Bool :=
  pIn y.collect == x.emitFormat && isCollecting (pOp y.collect) &&
    (let n := if pOp x.collect = 5 then x.emitLength / max 1 x.emits else x.emitLength
     if y.stream then decide (n ≤ y.elements) else n == y.elements)

/-- A context that R223 refuses, but for numbers, groups and sums. -/
def State.contextOk (s : State) (slices : Nat) (all : List (Nat × Nat × Ctx)) (n count : Nat) (x : Ctx) : Bool :=
  decide (x.slice ≤ 3) && bit slices x.slice && decide (2 ≤ count) && decide (count ≤ 64) &&
    bits x.shape 63 60 == 0 && bits x.shape 15 0 == 0 && x.win != 0 &&
    decide (1 ≤ x.program.length) && decide (x.program.length ≤ 64) &&
    programForm x.contributors x.elements count x.emits x.program 0 0 false && x.lengthsOk &&
    x.dests.all (s.destOk n (all.map (·.1))) &&
    (x.program.filter (fun i => pOp i == 0x0D)).all (fun i =>
      let d := x.dest (pParam i)
      bits d 63 60 != 3 || (match all.find? (fun e => e.1 == bits d 11 0) with
        | some e => x.takenBy e.2.2
        | none => false))

/-- Walk the contexts: numbers and groups taken, leaves so far, instructions by slice. -/
def State.contextFault (s : State) (slices : Nat) (all : List (Nat × Nat × Ctx)) :
    List (Nat × Nat × Ctx) → List (Nat × Nat) → Nat → FMap Nat → Option Nat
  | [], _, _, _ => none
  | (n, count, x) :: t, seen, leaves, used =>
    if 4095 < n || seen.any (fun e => e.1 == n || e.2 == x.group) || !s.contextOk slices all n count x then some n
    else
      let leaves := leaves + x.win * x.itemLeaves
      let used := fset 0 used x.slice (fget 0 used x.slice + x.program.length)
      if s.idx 0x6002 0 < leaves || 16384 < fget 0 used x.slice then some n
      else State.contextFault s slices all t ((n, x.group) :: seen) leaves used

/-- Check 13. -/
def State.checkContexts (s : State) (m : Image) : Refused :=
  let slices := match (m.ofKind 1).head? with
    | some r => m.field r 16 1
    | none => 0
  (s.contextFault slices m.contexts m.contexts [] 0 []).map (fun n => (0x12, n))

/-! ### Checks 14 to 18 -/

/-- Check 14 (R170, R372). -/
def State.checkStrict (s : State) (m : Image) : Refused :=
  if m.needsStrict && !s.strict then some (0x13, 0)
  else if s.strict then (m.contexts.find? (fun e => e.2.2.earlyK)).map (fun e => (0x13, e.1))
  else none

/-- A format or a pair of formats that a command names against R38 or R47. -/
def formatWrong (w : Nat) : Bool :=
  match wOp w with
  | 0x20 => !(fmtArray false (pfSf w) && fmtArray true (pfTf w) && pairOk (pfSf w) (pfTarget w))
  | 0x21 => !fmtNarrow (wfFmt w)
  | 0x30 => !(fmtVector (vfSrc w 0) && (!vopUses w 1 || fmtVector (vfSrc w 1)) && (!vopUses w 2 || fmtVector (vfSrc w 2)) &&
      fmtVector (vfDst w))
  | 0x31 => !(fmtVector (rfSrc w) && fmtVector (rfDst w))
  | 0x51 => !fmtNarrow (bits w 83 80)
  | _ => false

/-- Check 15. -/
def checkFormats (m : Image) : Refused := (m.code.find? (fun e => formatWrong e.2)).map (fun e => (0x14, e.1))

/-- The tie group record of a number. -/
def Image.tieOf (m : Image) (g : Nat) : Option ImageRecord := (m.ofKind 9).find? (fun r => m.field r 0 1 == g)

/-- Check 16 (R105). -/
def checkTies (m : Image) : Refused :=
  let empty := (m.ofKind 9).find? (fun r => m.field r 0 1 == 0 || m.field r 1 1 == 0)
  let spread := m.code.find? (fun e => wOp e.2 == 0x20 && pfTie e.2 != 0 && (match writtenUnit e.2 with
    | none => false
    | some u => match m.tieOf (pfTie e.2) with
      | none => true
      | some r => u != 0x10 + m.field r 2 1))
  firstRefusal [empty.map (fun r => (0x0E, m.field r 0 1)), spread.map (fun e => (0x0E, pfTie e.2))]

/-- Gated products among the code words. -/
def Image.gated (m : Image) : List (Nat × Nat) := m.code.filter (fun e => wOp e.2 == 0x20 && pfGate e.2)

/-- Check 17 (0x5020.00). -/
def State.checkGating (s : State) (m : Image) : Refused :=
  if s.idx 0x5020 0 = 0 then m.gated.head?.map (fun e => (0x11, e.1)) else none

/-- The reduction-level bits are a run from level 1 upward. -/
def runOfLevels (w : Nat) : Bool := [0, 1, 3, 7, 15, 31].contains (bits w 72 68)

/-- Check 18 (R108). -/
def checkGatedTraining (m : Image) : Refused :=
  (m.gated.find? (fun e => m.backward || pfAccumulate e.2 || !runOfLevels e.2)).map (fun e => (0x10, e.1))

/-! ### Checks 19 to 21: the order of events (R107, R124, R132) -/

/-- What a prefix of the order has brought. -/
structure OrderState where
  published : List (Nat × Nat)   -- set and version published; version 0 is current at load
  opened : List (Nat × Nat)      -- set and version opened
  claimed : List Nat
  released : List Nat
  deriving DecidableEq, Repr

/-- Kind of a declared set, 0 where it is not declared. -/
def Image.setKind (m : Image) (k : Nat) : Nat :=
  match (m.ofKind 7).find? (fun r => m.field r 0 1 == k) with
  | some r => m.field r 1 1
  | none => 0

/-- An event names a set or a tie group that is not declared, or is of no kind. -/
def Image.eventUnknown (m : Image) (e : OrderEvent) : Bool :=
  match e.kind with
  | 1 | 2 => false
  | 3 | 4 | 6 => m.setKind e.ref == 0
  | 5 => (m.tieOf e.ref).isNone
  | _ => true

/-- An event breaks R132 where it stands: a claim names, of every updated set, a version published before it whose successor
is not yet published, or for a single buffer not yet opened. -/
def Image.eventWrong (m : Image) (o : OrderState) (e : OrderEvent) : Bool :=
  match e.kind with
  | 1 => (m.ofKind 7).any (fun r =>
      let k := m.field r 0 1
      let kind := m.field r 1 1
      m.updatedSet r && (!(e.version == 0 || o.published.contains (k, e.version)) ||
        (if kind = 3 then o.published else o.opened).contains (k, e.version + 1)))
  | 2 => !o.claimed.contains e.batch
  | 3 => m.setKind e.ref == 2 && m.order.any (fun f => f.kind == 6 && f.ref == e.ref && f.version == e.version &&
      !o.released.contains f.batch)
  | _ => false

/-- What an event brings. -/
def OrderState.take (o : OrderState) (e : OrderEvent) : OrderState :=
  match e.kind with
  | 1 => { o with claimed := e.batch :: o.claimed }
  | 2 => { o with claimed := o.claimed.filter (· != e.batch), released := e.batch :: o.released }
  | 3 => { o with opened := (e.ref, e.version) :: o.opened }
  | 4 => { o with published := (e.ref, e.version) :: o.published }
  | _ => o

/-- Index of the first event that breaks R132. -/
def Image.orderFault (m : Image) : Nat → List OrderEvent → OrderState → Option Nat
  | _, [], _ => none
  | k, e :: t, o => if m.eventUnknown e || m.eventWrong o e then some k else Image.orderFault m (k + 1) t (o.take e)

/-- Check 19; an empty order fails where a set is updated (R204). -/
def checkOrder (m : Image) : Refused :=
  if m.order.isEmpty && (m.ofKind 7).any m.updatedSet then some (0x0D, 0)
  else (m.orderFault 0 m.order ⟨[], [], [], []⟩).map (fun k => (0x0D, k))

/-- Micro-batches claimed and not released at each point of the order: greatest depth, and where it first exceeds s. -/
def depthOf (s : Nat) : Nat → List OrderEvent → (held : List Nat) → (peak : Nat) → (first : Option Nat) → Nat × Option Nat
  | _, [], _, peak, first => (peak, first)
  | k, e :: t, held, peak, first =>
    let held := if e.kind = 1 && !held.contains e.batch then e.batch :: held
      else if e.kind = 2 then held.filter (· != e.batch) else held
    depthOf s (k + 1) t held (max peak held.length)
      (if first.isNone && decide (s < held.length) then some k else first)

/-- Check 20 (R124). -/
def checkDepth (m : Image) : Refused :=
  match depthOf m.slots 0 m.order [] 0 none with
  | (_, none) => none
  | (d, some k) => some (0x0B, d * 2 ^ 32 + k)

/-- The first tie use out of its round. -/
def Image.tieFault (m : Image) : List OrderEvent → FMap Nat → Refused
  | [], _ => none
  | e :: t, next =>
    if e.kind ≠ 5 then Image.tieFault m t next
    else if e.use ≠ fget 0 next e.ref then some (0x0F, 256 * e.ref + e.use)
    else
      let uses := match m.tieOf e.ref with
        | some r => m.field r 1 1
        | none => 1
      Image.tieFault m t (fset 0 next e.ref ((e.use + 1) % uses))

/-- Check 21, in strict mode (R106, R107). -/
def State.checkTieOrder (s : State) (m : Image) : Refused := if s.strict then m.tieFault m.order [] else none

/-- Checks 3 to 21 in order. -/
def State.checkImage (s : State) (m : Image) : Refused :=
  firstRefusal [s.checkKey m, checkSignature m, checkReserved m, s.checkUnits m, s.checkMemory m, checkInstructions m,
    checkRings m, checkRows m, checkStash m, checkSets m, s.checkContexts m, s.checkStrict m, checkFormats m, checkTies m,
    s.checkGating m, checkGatedTraining m, checkOrder m, checkDepth m, s.checkTieOrder m]

end Sys2Proof.Machine
end

