-- ==== Sys2Proof/Machine/Proof.lean ====
section
/-!
DEFINITION. Sys2Proof/Machine/Proof.lean: the exchange of digests (R381, R382), the state copy, the switch and the judgement of proof
steps (R393 to R399), and the application of SIG with its tile bits (R147, R178, R206).
-/
namespace Sys2Proof.Machine

/-! ### Cores that start -/

/-- Every core with a core record starts at its entry point (R198, R397). -/
def State.startCores (s : State) : State :=
  let mine := (List.range 32).filter (fun c => (s.core c).declared)
  let s := mine.foldl (fun s c =>
    let x := State.core s c
    State.setCore s c { x with run := .running, pc := x.entry }) s
  { s with binding := { s.binding with
      coresPending := false, heldShadow := false, started := mine.length,
      colophon := fset 0 s.binding.colophon 0x08 (s.clock.stitch % 2 ^ 64) } }

/-! ### Frames on the proof port (R381, R395) -/

/-- The partner's address (0x8011.00). -/
def State.partner (s : State) : Nat := s.idx 0x8011 0

/-- The header of a digest or copy frame: VC6, between the folios' own addresses. -/
def State.proofHeader (s : State) (group sequence position count : Nat) (last : Bool) : FolioHeader :=
  { FolioHeader.blank with
    vc := 6, last := last, destination := s.partner, source := s.address, group := group, sequence := sequence % 2 ^ 32,
    position := position % 65536, count := count }

/-- Send a frame on the proof port, without lookup. -/
def State.sendProof (s : State) (h : FolioHeader) (payload : Bytes) : State := (s.enqueue s.proofPort (s.fragment h payload)).1

/-- Cut records into frames of at most 511. -/
def cutRecords : Nat → List Digest → List (List Digest)
  | 0, _ => []
  | k + 1, ds => ds.take 511 :: cutRecords k (ds.drop 511)

/-- The stream word (R381). -/
def State.streamWord (s : State) (stitch count : Nat) : Bytes :=
  leBytes 16 (stitch % 2 ^ 64 * 2 ^ 64 + beAt (s.domain 0x5084 0) 0 4 * 2 ^ 32 + count * 2 ^ 16)

/-- Send the records of the stitch before (R381): one frame at least; a link outage sends nothing and loses them
(R385). -/
def State.sendDigests (s : State) : State :=
  let ready := s.proof.outbox.filter (fun d => decide (d.stitch < s.clock.stitch))
  let kept := s.proof.outbox.filter (fun d => decide (s.clock.stitch ≤ d.stitch))
  let s := { s with proof := { s.proof with outbox := kept, sentStitch := s.clock.stitch } }
  if !(s.port s.proofPort).up then s
  else
    let about := s.clock.stitch - 1
    let parts := max 1 (ceilDiv ready.length 511)
    let cut := cutRecords parts ready
    let s := (List.range parts).foldl (fun s i =>
      let ds := cut.getD i []
      State.sendProof s (State.proofHeader s 0xFFFFFFFF about i (ds.length + 1) (decide (i + 1 = parts)))
        (State.streamWord s about ds.length ++ ds.flatMap Digest.encode)) s
    { s with proof := { s.proof with sentFrame := true } }

/-- DIGEST_SEND: once in each stitch, a folio of a pair sends the digest frames of the stitch before. -/
def execDigestSend (s : State) : Out :=
  s.ends (if !s.pairActive || s.clock.stitch ≤ s.proof.sentStitch then s else s.sendDigests)

/-- A frame at the proof unit, read through the code: header, payload, and whether its checks of Table 9.2 hold for
16-byte elements. -/
def State.readProofFrame (s : State) (f : Frame) : State × FolioHeader × Bytes × Bool :=
  let r := s.readFrame .unit 0xFF f
  let o := (parseFrame r.2.1).body
  let h := FolioHeader.decode r.2.1 o
  let payload := (r.2.1.drop (o + 32)).take h.length
  (r.1, h, payload, !r.2.2 && !h.failed && crc32c payload == h.check && payload.length == 16 * h.count && decide (0 < h.count))

/-- The records of a digest frame's payload. -/
def digestRecords (payload : Bytes) (stitch : Nat) : List Digest :=
  (List.range (leAt payload 2 2)).map (fun i => Digest.decode (slice payload (16 + 16 * i) 16) stitch)

/-- Take the records of a good digest frame (R382). -/
def State.takeDigests (s : State) (payload : Bytes) : State :=
  let s := { s with proof := { s.proof with gotFrame := true, lost := false, lastFrame := s.clock.stitch } }
  let differs := leAt payload 4 4 ≠ beAt (s.domain 0x5084 0) 0 4
  let s := if differs && !s.proof.mismatch then
      (let t := if s.recording then s.diverge 5 none none else s
       { t with proof := { t.proof with mismatch := true } })
    else s
  if s.comparing then (digestRecords payload (leAt payload 8 8)).foldl (fun s d => State.takeDigest s false d) s else s

/-- DIGEST_RECEIVE: the proof unit takes its oldest digest frame. -/
def execDigestReceive (s : State) : Out :=
  s.ends (match s.switch.proofFrames with
    | [] => s
    | f :: rest =>
      let s := { s with switch := { s.switch with proofFrames := rest } }
      let r := s.readProofFrame f
      let t := r.1.freeFrame f
      if !r.2.2.2 || leAt r.2.2.1 2 2 + 1 ≠ r.2.1.count then t.idxBump 0x8023 0 63 32 1
      else if t.pairActive then t.takeDigests r.2.2.1
      else t)

/-- STREAM_LOST: no digest frame for L stitches, or the proof link down (R382, R400): one record per outage. -/
def execStreamLost (s : State) : Out :=
  let bound := s.idx 0x8013 0
  let silent := decide (s.proof.lastFrame + bound ≤ s.clock.stitch)
  s.ends (if !s.pairActive || bound = 0 || !(silent || !(s.port s.proofPort).up) then s
    else
      let s := if s.proof.lost then s
        else
          (let t := if s.recording then s.diverge 4 none none else s
           { t with proof := { t.proof with lost := true } })
      if s.idx 0x8010 0 = 2 && s.proofing && 1 ≤ s.proof.phase && s.proof.phase ≤ 4 && silent then
        { s with proof := { s.proof with phase := 7 } }
      else s)

/-! ### The copy stream (R395) -/

/-- Enter one record into the copy stream (Table 18.3). -/
def State.sendCopy (s : State) (kind address : Nat) (data : Bytes) : State :=
  let o := s.proof.copyOrdinal
  let word := leBytes 16 (kind * 2 ^ 124 + address % 2 ^ 48 * 2 ^ 64 + data.length * 2 ^ 48 + o % 2 ^ 48)
  let s := { s with proof := { s.proof with copyOrdinal := o + 1 } }
  s.sendProof (s.proofHeader 0xFFFFFFFE o 0 (1 + data.length / 16) true) (word ++ data)

/-- Enter the words written since the last record. -/
def State.flushMirror (s : State) : State :=
  let ws := s.proof.mirror
  ws.foldl (fun s w => State.sendCopy s 2 w.1 w.2) { s with proof := { s.proof with mirror := [] } }

/-- Start or restart the state copy (R394). -/
def State.startCopy (s : State) : State :=
  { s with proof := { s.proof with
      phase := 2, copyOrdinal := 0, applyOrdinal := 0, copyCursor := 0, mirror := [], handoverAt := none } }

/-- What R394 asks of the leading folio. -/
def State.copyAllowed (s : State) : Bool :=
  s.idx 0x8010 0 == 1 && s.proofing && s.pairActive && !s.runFailed && s.flowing && !s.proof.mismatch &&
    decide (1 ≤ s.proof.phase) && decide (s.proof.phase ≤ 3)

/-- Read a block through the code. What a copied block holds in place of an uncorrectable word is open (log entry 2). -/
def State.readBlock (s : State) (a : Nat) : Nat → State × Bytes
  | 0 => (s, [])
  | k + 1 =>
    let r := s.readWord (a / 16) .unit 0xFF
    let d := if r.2.2 then r.1.draw else (0, r.1)
    let w := if r.2.2 then leBytes 16 (Config.unreadableWord d.1) else r.2.1
    let t := State.readBlock d.2 (a + 16) k
    (t.1, w ++ t.2)

/-- COPY_BLOCK_SEND: the next background block enters the stream, behind the words written before it; after the last
one the phase is 0x03 (R396). -/
def execCopyBlockSend (s : State) : Out :=
  s.ends (if s.idx 0x8010 0 ≠ 1 || !s.pairActive || (s.proof.phase ≠ 2 && s.proof.phase ≠ 3) then s
    else
      let s := s.flushMirror
      let blocks := s.stateBlocks
      match blocks[s.proof.copyCursor]? with
      | none => { s with proof := { s.proof with phase := 3 } }
      | some b =>
        let r := s.readBlock b.1 (b.2 / 16)
        let s := r.1.sendCopy 1 b.1 r.2
        let n := s.proof.copyCursor + 1
        { s with proof := { s.proof with copyCursor := n, phase := if blocks.length ≤ n then 3 else s.proof.phase } })

/-- A record of the copy stream as received. -/
structure CopyRecord where
  kind : Nat
  address : Nat
  ordinal : Nat
  data : Bytes
  sound : Bool
  deriving DecidableEq, Repr

/-- The oldest copy frame, taken in: its leaves are freed. -/
def State.takeCopy (s : State) : Option (State × CopyRecord) :=
  match s.switch.copyFrames with
  | [] => none
  | f :: rest =>
    let s := { s with switch := { s.switch with copyFrames := rest } }
    let r := s.readProofFrame f
    let w := leAt r.2.2.1 0 16
    let data := r.2.2.1.drop 16
    some (r.1.freeFrame f, ⟨bits w 127 124, bits w 111 64, bits w 47 0, data, r.2.2.2 && data.length == bits w 63 48⟩)

/-- What the shadow does first with every record: ordinal 0 starts the copy again, a gap or a failed check abandons
it; none where the record goes no further. -/
def State.admitCopy (s : State) (r : CopyRecord) : State × Bool :=
  let restart := r.sound && r.ordinal == 0 && decide (1 ≤ s.proof.phase) && decide (s.proof.phase ≤ 3)
  let s := if restart then { s with proof := { s.proof with
      phase := 2, applyOrdinal := 0, copyOrdinal := 0, stateTable := [], handoverAt := none } } else s
  if s.proof.phase = 7 || s.proof.phase = 0 then (s, false)
  else if !r.sound || r.ordinal ≠ s.proof.applyOrdinal then
    ({ s with proof := { s.proof with phase := 7 } }, false)
  else ({ s with proof := { s.proof with applyOrdinal := s.proof.applyOrdinal + 1 } }, true)

/-- The folio is a shadow with a proof step counter. -/
def State.copying (s : State) : Bool := s.idx 0x8010 0 == 2 && s.pairActive && s.proofing

/-- The kind of the oldest copy record, as its bytes stand. -/
def State.copyKind (s : State) : Nat :=
  match s.switch.copyFrames with
  | [] => 0
  | f :: _ =>
    let b := s.frameBytes f
    bits (leAt b ((parseFrame b).body + 32) 16) 127 124

/-- COPY_RECORD_APPLY: the shadow applies the oldest record where it is a block, words or state table; any other kind
waits for its own step, but for one that bears no kind at all, which goes (R395). -/
def execCopyRecordApply (s : State) : Out :=
  s.ends (if 4 ≤ s.copyKind && s.copyKind ≤ 6 then s
    else match s.takeCopy with
      | none => s
      | some (s, r) =>
        if !s.copying then s
        else
          let a := s.admitCopy r
          if !a.2 then a.1
          else if r.kind = 1 || r.kind = 2 then a.1.writeMem r.address r.data 0xFF
          else if r.kind = 3 then
            { a.1 with proof := { a.1.proof with
                phase := 3,
                stateTable := fsetRun 0 a.1.proof.stateTable r.address (r.data.map BitVec.toNat) } }
          else a.1)

/-! ### The switch (R396, R397) -/

/-- Set a sync counter, which saturates (R348), with the tile bits whose thresholds it has reached (R206). -/
def State.setSync (s : State) (c v : Nat) : State :=
  let v := min v (2 ^ 64 - 1)
  let s := { s with cores := { s.cores with syncs := fset 0 s.cores.syncs c v } }
  let hit := ((List.range s.binding.tileList.length).zip s.binding.tileList).filter (fun e =>
    e.2.1 == c && decide (e.2.2 ≤ v))
  { s with binding := { s.binding with tileBits := hit.foldl (fun m e => fset false m e.1 true) s.binding.tileBits } }

/-- The checks of R396. -/
def State.switchReady (s : State) : Bool :=
  s.stash.slots.all (fun e => e.2.state == 0) && s.stash.sets.all (fun e => e.2.openState == 0) &&
    s.ctxs.all (fun e => !e.2.declared || (e.2.state == ctxIdle && !e.2.memberFailed && e.2.cursor == 0))

/-- The state table (R396): 36,864 bytes. -/
def State.stateTableBytes (s : State) : Bytes :=
  ((List.range 256).flatMap (fun c => leBytes 8 (fget 0 s.cores.syncs c))) ++
    ((List.range 256).flatMap (fun w => leBytes 8 ({ s.wset w with pins0 := 0, pins1 := 0, openState := 0 }).word)) ++
    ((List.range 4096).flatMap (fun x => leBytes 8 (s.ctx x).collectiveWord))

/-- No command of any core is counted yet (R397). -/
def State.clearBases (s : State) : State :=
  (List.range 32).foldl (fun s c => State.setCore s c { State.core s c with proofBase := none }) s

/-- The leading folio switches, or postpones (R396). -/
def State.trySwitch (s : State) : State :=
  if !s.switchReady then { s with proof := { s.proof with postponed := satAdd 16 s.proof.postponed 1 } }
  else
    let s := s.flushMirror
    let table := s.stateTableBytes
    let s := (List.range 9).foldl (fun s i => State.sendCopy s 3 (4096 * i) (slice table (4096 * i) 4096)) s
    let s := (s.sendCopy 4 0 []).clearBases
    { s with proof := { s.proof with phase := 4, steps := [], unclean := false } }

/-- A word of the received state table. -/
def State.tableWord (s : State) (k : Nat) : Nat := leNat ((fgetRun 0 s.proof.stateTable (8 * k) 8).map (BitVec.ofNat 8))

/-- Load the state table (R397). -/
def State.loadTable (s : State) : State :=
  let s := (List.range 256).foldl (fun s c => State.setSync s c (State.tableWord s c)) s
  let s := { s with stash := { s.stash with sets := s.stash.sets.map (fun (e : Nat × WeightSet) =>
    let w := s.tableWord (256 + e.1)
    (e.1, { e.2 with version := bits w 63 32, current := bits w 13 13, tainted := bit w 12 })) } }
  s.ctxs.foldl (fun (t : State) (e : Nat × Ctx) =>
    let w := s.tableWord (512 + e.1)
    if e.2.declared then State.setCtx t e.1 { State.ctx t e.1 with expected := bits w 63 32, unclean := bit w 28 } else t) s

/-- Promotion (R398, R399). -/
def State.promote (s : State) : State :=
  let s := { s with proof := { s.proof with phase := 5 } }
  if s.idx 0x8042 0 = 0 then
    (let t := s.stopCores
     { t with proof := { t.proof with coresAt := none } })
  else s.sendCopy 5 0 []

/-- The shadow counts from here on, and its cores start at the next boundary. -/
def State.counting (s : State) : State :=
  { s with proof := { s.proof with
      phase := 4, clean := 0, steps := [], unclean := false, coresAt := some (s.clock.stitch + 1) } }

/-- SWITCH_RECORD_APPLY: the shadow loads the state table and takes phase 0x04; its cores start at the next boundary;
K of zero promotes it at once (R397, R398). -/
def execSwitchRecordApply (s : State) : Out :=
  s.ends (if s.copyKind ≠ 4 then s
    else match s.takeCopy with
      | none => s
      | some (s, r) =>
        if !s.copying then s
        else
          let a := s.admitCopy r
          if !a.2 || a.1.proof.phase ≠ 3 then a.1
          else
            let s := a.1.loadTable.clearBases.counting
            if s.idx 0x8041 0 = 0 then s.promote else s)

/-- SHADOW_CORES_START: at the boundary after the switch the shadow's cores start (R397). -/
def execShadowCoresStart (s : State) : Out :=
  s.ends (match s.proof.coresAt with
    | none => s
    | some t =>
      if s.clock.stitch < t || s.runFailed || s.power.clocksStopped then s
      else
        let u := s.startCores
        { u with proof := { u.proof with coresAt := none } })

/-! ### Proof steps and handover (R398, R399) -/

/-- Digest serials issued by each core up to now: up to its oldest uncommitted point, else all it has issued. -/
def State.stepBounds (s : State) : List Nat :=
  (List.range 32).map (fun c =>
    let x := s.core c
    let n := match x.window with
      | e :: _ => e.serial
      | [] => x.serial
    match x.proofBase with
    | some b => n - b
    | none => 0)

/-- Handover at one folio: the roles swap (R399). -/
def State.handOver (s : State) : State :=
  let s := s.idxSet 0x8010 0 (3 - s.idx 0x8010 0)
  let s := (List.range 32).foldl (fun s c => State.setCore s c { State.core s c with handBase := none }) s
  { s with proof := { s.proof with phase := 6, handoverAt := none } }

/-- What an increment of the proof step counter brings about (R396, R398, R399). -/
def State.proofStep (s : State) : State :=
  let role := s.idx 0x8010 0
  let s := if role = 2 && s.proof.phase = 4 then
      { s with proof := { s.proof with steps := s.proof.steps ++ [(s.stepBounds, s.proof.unclean)], unclean := false } }
    else s
  let s := if role = 1 && s.proof.phase = 3 then s.trySwitch else s
  match s.proof.handoverAt with
  | some c => if fget 0 s.cores.syncs s.proofCounter % 2 ^ 32 = c then s.handOver else s
  | none => s

/-- Apply one increment of a sync counter (R147). -/
def State.applySig (s : State) (c : Nat) : State :=
  let s := s.setSync c (fget 0 s.cores.syncs c + 1)
  if s.proofing && s.pairActive && c = s.proofCounter then s.proofStep else s

/-- SIG_APPLY: the oldest recorded SIG of a core is applied once it is committed and every earlier command of the core
is complete (R178, R179). -/
def execSigApply (c : CoreId) (s : State) : Out :=
  let x := s.core c
  s.ends (match x.sigs with
    | [] => s
    | g :: rest =>
      if x.syncDone < g.behind || s.cores.cmds.any (fun k => k.core == c.val && decide (k.serial < g.serial) && k.phase != .done)
      then s
      else (s.setCore c { x with sigs := rest }).applySig g.counter)

/-- STEP_JUDGEMENT: the shadow judges its oldest ended step once no record of a command issued in it is pending
(R398). -/
def execStepJudgement (s : State) : Out :=
  s.ends (if s.idx 0x8010 0 ≠ 2 || !s.pairActive || s.proof.phase ≠ 4 then s
    else match s.proof.steps with
      | [] => s
      | st :: rest =>
        let waits := fun (d : Digest) => decide (d.serial < st.1.getD d.core 0)
        if s.proof.own.any waits || s.proof.partner.any waits then s
        else
          let clean := if st.2 then 0 else s.proof.clean + 1
          let s := { s with proof := { s.proof with steps := rest, clean := clean } }
          if s.idx 0x8041 0 ≤ clean then s.promote else s)

/-- PROMOTION_NOTICE: the leading folio fixes c and confirms it (R399). -/
def execPromotionNotice (s : State) : Out :=
  s.ends (if s.copyKind ≠ 5 then s
    else match s.takeCopy with
      | none => s
      | some (s, r) =>
        if s.idx 0x8010 0 ≠ 1 || !s.pairActive || !s.proofing || s.proof.phase ≠ 4 || !r.sound then s
        else
          let c := (fget 0 s.cores.syncs s.proofCounter + 1) % 2 ^ 32
          { s with proof := { s.proof with handoverAt := some c } }.sendCopy 6 c [])

/-- HANDOVER_CONFIRMATION: the shadow learns c, or sends its notice again where its counter has reached it (R399). -/
def execHandoverConfirmation (s : State) : Out :=
  s.ends (if s.copyKind ≠ 6 then s
    else match s.takeCopy with
      | none => s
      | some (s, r) =>
        if !s.copying || s.proof.phase ≠ 5 || !r.sound then s
        else
          let c := r.address % 2 ^ 32
          let here := fget 0 s.cores.syncs s.proofCounter % 2 ^ 32
          if subMod 32 here c < 2 ^ 31 then s.sendCopy 5 0 []
          else { s with proof := { s.proof with handoverAt := some c } })

end Sys2Proof.Machine
end

