-- ==== Sys2Proof/Machine/Binder.lean ====
section
/-!
DEFINITION. Sys2Proof/Machine/Binder.lean: staging, loading, installing and releasing a binding (R195 to R199), the start of its cores,
and its overlays (R192, R193).
-/
namespace Sys2Proof.Machine

/-! ### Staging (R195 to R197, R310) -/

/-- A segment that 0x5080.00 takes: with an offset, inside the staging size, no binding loaded. -/
def State.segmentOk (s : State) (p : Bytes) : Bool :=
  !s.binding.loaded && decide (8 ≤ p.length) && decide (beAt p 0 8 + (p.length - 8) ≤ s.stagingSize)

/-- Store a segment in the staging region. -/
def State.stage (s : State) (p : Bytes) : State :=
  let o := beAt p 0 8
  let d := p.drop 8
  if d.isEmpty then s
  else (s.writeMem (s.stagingBase + o) d 0xFF).idxSet 0x5086 0 (max (s.idx 0x5086 0) (o + d.length))

/-- One word of the staging region as the Binder reads it: an uncorrectable one holds free data (log entry 2). -/
def State.stagedWord (s : State) (w : Nat) : State × Bytes :=
  let r := s.readWord w .unit 0xFF
  if r.2.2 then
    (let d := r.1.draw
     (d.2, leBytes 16 (Config.unreadableWord d.1 % 2 ^ 128)))
  else (r.1, r.2.1)

/-- The staged bytes, up to the staged extent, read under the code (R316). -/
def State.stagedImage (s : State) : State × Bytes :=
  let n := s.idx 0x5086 0
  let r := (List.range (ceilDiv n 16)).foldl (fun (acc : State × List Bytes) i =>
    let q := acc.1.stagedWord (s.stagingBase / 16 + i)
    (q.1, q.2 :: acc.2)) (s, [])
  (r.1, (r.2.reverse.flatMap (fun b => b)).take n)

/-! ### Installation (R198) -/

/-- Write bytes at a multiple of 16; an uncorrectable word met by the merge of the last one ends it, and its address is
answered. -/
def State.putBytes (s : State) (a : Nat) (data : Bytes) : State × Option Nat :=
  let last := (a + data.length) / 16
  let r := s.readWord last .unit 0xFF
  if (a + data.length) % 16 ≠ 0 && r.2.2 then (r.1, some (16 * last)) else (s.writeMem a data 0xFF, none)

/-- Clear n bytes from a multiple of 16. -/
def State.zeroSpan (s : State) (a n : Nat) : State × Option Nat :=
  (s.clearMem a (n / 16 * 16)).putBytes (a + n / 16 * 16) (zeros (n % 16))

/-- Go on where nothing has failed. -/
def onward (x : State × Option Nat) (f : State → State × Option Nat) : State × Option Nat :=
  match x.2 with
  | none => f x.1
  | some _ => x

/-- Copy a section of the image to a device address. -/
def State.putSection (s : State) (m : Image) (k a : Nat) : State × Option Nat :=
  let sec := m.sections.getD k (0, 0)
  let r := s.readMem (s.stagingBase + sec.1) sec.2 .unit 0xFF
  match r.2.2 with
  | some bad => (r.1, some bad)
  | none => r.1.putBytes a r.2.1

/-- Fill a memory region: its section from the start, the rest cleared (Table 8.2). -/
def State.fillRegion (s : State) (m : Image) (r : ImageRecord) : State × Option Nat :=
  onward (s.zeroSpan (m.field r 8 8) (m.field r 16 8)) (fun s =>
    if m.field r 4 4 = noSection then (s, none) else State.putSection s m (m.field r 4 4) (m.field r 8 8))

/-- Fill buffer 0 of a weight set with its initial section (R125). -/
def State.fillSet (s : State) (m : Image) (r : ImageRecord) : State × Option Nat :=
  if m.field r 32 4 = noSection then (s, none) else s.putSection m (m.field r 32 4) (m.field r 16 8)

/-- Write a fixed region. -/
def State.fillCode (s : State) (m : Image) (r : ImageRecord) : State × Option Nat :=
  if m.field r 2 1 = 1 then s.putSection m (m.field r 4 4) (imemBase + m.field r 0 1 * 0x800000 + m.field r 1 1 * regionBytes)
  else (s, none)

/-- Read a context's program section under the code (R198, step 3). -/
def State.readProgram (s : State) (m : Image) (r : ImageRecord) : State × Option Nat :=
  let sec := m.sections.getD (m.field r 8 4) (0, 0)
  let q := s.readMem (s.stagingBase + sec.1) sec.2 .unit 0xFF
  (q.1, q.2.2)

/-- Go through the records of a kind in declaration order, until one fails. -/
def State.fillKind (m : Image) (kind : Nat) (f : State → Image → ImageRecord → State × Option Nat) (x : State × Option Nat) :
    State × Option Nat :=
  (m.ofKind kind).foldl (fun acc r => onward acc (fun s => f s m r)) x

/-- Write the header of every tile of every slot as Table 5.1 has it: micro-batch none, else zero. -/
def State.stashHeaders (s : State) (t : Stash) : State :=
  (List.range t.slotCount).foldl (fun s k =>
    (List.range t.tiles.length).foldl (fun s i =>
      State.writeMem s (t.base + k * t.slotSize + 16 * i) (leBytes 16 (0xFFFFFFFF * 2 ^ 64)) 0xFF) s) s

/-- Steps 2 and 3 of R198: data and weight sections, then the stash headers; fixed regions, then the Collator programs. -/
def State.fillAll (s : State) (m : Image) (t : Stash) : State × Option Nat :=
  let data := State.fillKind m 8 State.fillRegion (State.fillKind m 7 State.fillSet (s, none))
  let headed := onward data (fun s => (s.stashHeaders t, none))
  State.fillKind m 0x0A State.readProgram (State.fillKind m 4 State.fillCode headed)

/-- Index entries that return to their values at reset when a binding is loaded (R134, R171, R194, R242, R261, R386, R404, and
0x5012.SS, 0x5021.00 to 0x5023.00), where they are held in the store. -/
def clearedAtLoad (i : Nat) : Bool :=
  [0x5012, 0x5021, 0x5022, 0x5023, 0x5034, 0x5035, 0x5036, 0x5037, 0x5038, 0x5041, 0x5067, 0x5068, 0x5069, 0x6004, 0x6005,
    0x6006, 0x6007, 0x600A, 0x600E, 0x8016, 0x8023, 0x8033].contains i ||
    (decide (0x6120 ≤ i) && decide (i ≤ 0x612F)) || (decide (0x6140 ≤ i) && decide (i ≤ 0x615F))

/-- A core as its record declares it (R144, R185, R189). -/
def Image.coreOf (m : Image) (r : ImageRecord) : Core :=
  { Core.reset with
    declared := true, pc := m.field r 4 4, entry := m.field r 4 4, regions := m.field r 8 8,
    ringBase := if m.field r 24 4 = 0 then 0 else m.field r 16 8, ringSize := m.field r 24 4 }

/-- The cores, counters and regions of a new binding. -/
def Image.coresOf (m : Image) : Cores :=
  { Cores.reset with
    cores := (m.ofKind 2).foldl (fun f r => fset Core.reset f (m.field r 0 1) (m.coreOf r)) []
    regionKind := (m.ofKind 4).foldl (fun f r => fset 0 f (64 * m.field r 0 1 + m.field r 1 1) (m.field r 2 1)) [] }

/-- The stash and weight sets of a new binding (R114, R125). -/
def Image.stashOf (m : Image) : Stash :=
  let sets := (m.ofKind 7).foldl (fun f r => fset WeightSet.reset f (m.field r 0 1)
    { WeightSet.reset with kind := m.field r 1 1, size := m.field r 8 8, buffer0 := m.field r 16 8, buffer1 := m.field r 24 8 }) []
  match m.stashRecord with
  | none => { Stash.reset with sets := sets }
  | some r =>
    if m.slots = 0 then { Stash.reset with sets := sets }
    else ⟨m.field r 0 8, m.slots, m.field r 12 4, m.tileShapes, [], sets⟩

/-- Tiles of threshold 0: their counters, which start at zero, have reached it (R206). -/
def Image.tilesAtLoad (m : Image) : FMap Bool :=
  ((List.range m.tiles.length).filter (fun k => (m.tiles.getD k (0, 1)).2 == 0)).foldl (fun f k => fset false f k true) []

/-- What the declaration gives the running binding, its colophon cleared (R205). -/
def Image.bindingOf (m : Image) (strict held : Bool) : Binding :=
  { Binding.reset with
    loaded := true, phase := 3, startStitch := m.head 0x18 8, coresPending := true, heldShadow := held, image := m.bytes,
    regions := (m.ofKind 8).map (fun r => ⟨m.field r 0 1, m.field r 1 1, m.field r 8 8, m.field r 16 8⟩),
    ties := (m.ofKind 9).map (fun r => ⟨m.field r 0 1, m.field r 1 1, m.field r 2 1, m.field r 4 4⟩),
    rows := (m.ofKind 3).map (fun r => (m.field r 0 1, m.field r 1 1, m.field r 2 1, m.field r 4 2, m.field r 6 2)),
    overlays := (m.ofKind 5).map (fun r =>
      let sec := m.sections.getD (m.field r 4 4) (0, 0)
      (m.field r 0 2, 64 * m.field r 2 1 + m.field r 3 1, sec.1, sec.2)),
    tileList := m.tiles, tileBits := m.tilesAtLoad, flags := b2n strict * 2 ^ 20, colophon := fset 0 [] 0x68 m.tiles.length }

/-- The place address of a pair, formed at this moment (R378). -/
def State.placeNow (s : State) : Nat :=
  match s.idx 0x8010 0 with
  | 1 => s.address
  | 2 => s.partner
  | _ => 0

/-- The proof unit at the start of a binding (R386, R394, R404): divergence records stay. -/
def State.proofAtLoad (s : State) : Proof :=
  { Proof.reset with
    place := s.placeNow, records := s.proof.records, lastFrame := s.clock.stitch, sentStitch := s.clock.stitch,
    phase := if s.paired && s.proofing then 1 else 0 }

/-- On-die leaves for a window: n of them, as far as the list has them. -/
def State.takeLeaves : Nat → State → List Nat → State × List Nat
  | 0, s, acc => (s, acc.reverse)
  | n + 1, s, acc =>
    match s.alloc false with
    | (s, some h) => State.takeLeaves n s (h :: acc)
    | (s, none) => (s, acc.reverse)

/-- Bind the declared contexts, each with the leaves of its window (R218, R239, R243). -/
def State.bindContexts (s : State) (m : Image) : State :=
  m.contexts.foldl (fun s e =>
    let x := e.2.2
    let r := State.takeLeaves (x.win * x.itemLeaves) s []
    r.1.setCtx e.1 { x with state := ctxIdle, reserve := r.2 }) { s with ctxs := [] }

/-- Step 1 of R198: everything a binding leaves behind is cleared. -/
def State.clearBinding (s : State) : State :=
  let s := s.idxClear clearedAtLoad
  { s with
    mem := { s.mem with accumulators := [], poison := [] }
    cores := Cores.reset, stash := Stash.reset, ctxs := [], marks := [], proof := s.proofAtLoad
    clock := { s.clock with bindingReq := 0 } }

/-- The Binder refuses: no binding, the colophon's phase 0x02, code and detail (R197, R205). -/
def State.refuseImage (s : State) (code detail : Nat) : State :=
  let s := s.idxSet 0x5085 0 (detail % 2 ^ 64)
  { s with binding := { Binding.reset with
      phase := 2, refusal := code, colophon := fset 0 [] 0x78 (detail % 2 ^ 64) } }

/-- Completion ring headers start at zero (R185, Table 7.7). -/
def State.clearRings (s : State) (m : Image) : State :=
  (m.ofKind 2).foldl (fun s r => if m.field r 24 4 = 0 then s else State.writeMem s (m.field r 16 8) (zeros 16) 0xFF) s

/-- Install a binding (R198), or end it with refusal 0x16. -/
def State.install (s : State) (m : Image) : State :=
  let s := s.clearBinding
  let r := s.fillAll m m.stashOf
  match r.2 with
  | some a => r.1.refuseImage 0x16 a
  | none =>
    let s := r.1
    let s := { s with stash := m.stashOf }.clearRings m
    let s := { s with cores := m.coresOf }.bindContexts m
    let s := { s with binding := m.bindingOf s.strict (s.idx 0x8010 0 == 2 && s.proofing) }
    (s.idxSet 0x5085 0 0).domainSet 0x5084 0 (sha384 m.bytes)

/-- A load command: the checks of Table 8.3, then refusal or installation (R197, R198), in one step, as the table of operations
has it. -/
def State.load (s : State) : State :=
  let b := s.stagedImage
  let s := b.1
  match parseImage b.2 with
  | .error o => s.refuseImage 0x03 o
  | .ok m =>
    match s.checkImage m with
    | some (code, detail) => s.refuseImage code detail
    | none => s.install m

/-- CORES_START: at the first boundary at or after the start stitch; the late-start bit where it had passed. A held shadow
waits (R394). -/
def execCoresStart (s : State) : Out :=
  let b := s.binding
  s.ends (if !b.loaded || !b.coresPending || b.heldShadow || s.clock.cycle ≠ 0 || s.clock.stitch < b.startStitch then s
    else if b.startStitch ≠ 0 && b.startStitch < s.clock.stitch then s.startCores.colophonFlag 19
    else s.startCores)

/-! ### Release (R199, R220) -/

/-- A release begins: every core stops, every open step fails its unfinished items, pending CSTEPs end. -/
def State.release (s : State) : State :=
  if s.binding.releasing then s
  else
    let s := { s with
      binding := { s.binding with releasing := true, coresPending := false }
      clock := { s.clock with bindingReq := 0 } }
    let s := s.stopCores
    let s := (s.cores.cmds.filter (fun c => c.phase == .pendingPlace)).foldl (fun s c => State.squash s c) s
    s.breakAll 0x0A

/-- A context becomes unbound, and its leaves go back to the pool. -/
def State.unbind (s : State) (n : Nat) : State :=
  let s := s.dropLead n
  let x := s.ctx n
  (s.freeLeaves x.reserve).setCtx n { x with declared := false, state := 0, reserve := [], items := [], localWait := [] }

/-- RELEASE_COMPLETE: once no started command is left. -/
def execReleaseComplete (s : State) : Out :=
  s.ends (if !s.binding.releasing || s.cores.cmds.any Cmd.started then s
    else
      let s := (List.range 32).foldl (fun s c => State.squashAll s c) s
      let s := s.ctxs.foldl (fun s e => State.unbind s e.1) s
      let s := s.binding.overlays.foldl (fun s o => State.writeMem s (s.stagingBase + o.2.2.1) (zeros o.2.2.2) 0xFF) s
      { s with
        binding := { s.binding with loaded := false, releasing := false }
        cores := { s.cores with regionLoading := [] }
        proof := { s.proof with own := [], partner := [], outbox := [] } })

/-! ### Overlays (R192, R193) -/

/-- The section of an overlay declared for a region: offset and length. -/
def State.overlayFor (s : State) (k overlay : Nat) : Option (Nat × Nat) :=
  (s.binding.overlays.find? (fun o => o.1 == overlay && o.2.1 == k)).map (fun o => (o.2.2.1, o.2.2.2))

/-- What a write to 0x5071.SS completes with: 0x01 where the region is fixed or the overlay is not declared for it, 0x02 while
the region is referenced or loading. -/
def State.regionStatus (s : State) (k overlay : Nat) : Nat :=
  let held := (List.range 8).any (fun i => (s.core (8 * (k / 64) + i)).refs.contains (k % 64))
  if !s.binding.loaded || fget 0 s.cores.regionKind k ≠ 2 || (s.overlayFor k overlay).isNone then 1
  else if held || fget (0, 0, 0) s.cores.regionLoading k ≠ (0, 0, 0) then 2
  else 0

/-- A region load is accepted. -/
def State.startRegionLoad (s : State) (k overlay : Nat) : State :=
  { s with cores := { s.cores with
      regionLoading := fset (0, 0, 0) s.cores.regionLoading k (overlay + 1, s.clock.stitch, s.clock.cycle) } }

/-- Move one word of an overlay; an uncorrectable one is stored as uncorrectable. -/
def State.moveWord (s : State) (src dst n : Nat) : State :=
  let r := s.readMem src n .unit 0xFF
  let s := r.1.writeMem dst (slice r.2.1 0 16) 0xFF
  if r.2.2.isSome then { s with mem := s.mem.setPattern (dst / 16) poisonPattern } else s

/-- OVERLAY_LOAD_DONE: the overlay stands in its region, and fetches that waited go on. -/
def execOverlayLoadDone (region : Fin 256) (s : State) : Out :=
  let k := region.val
  let l := fget (0, 0, 0) s.cores.regionLoading k
  s.ends (match s.overlayFor k (l.1 - 1) with
    | some (off, n) =>
      if !s.binding.loaded || l = (0, 0, 0) then s
      else
        let s := (List.range (ceilDiv n 16)).foldl (fun s i =>
          State.moveWord s (s.stagingBase + off + 16 * i) (imemBase + k / 64 * 0x800000 + k % 64 * regionBytes + 16 * i)
            (min 16 (n - 16 * i))) s
        { s with cores := { s.cores with
            regionLoading := fset (0, 0, 0) s.cores.regionLoading k (0, 0, 0)
            regionOverlay := fset 0xFFFF s.cores.regionOverlay k (l.1 - 1) } }
    | none => s)

end Sys2Proof.Machine
end

