-- ==== Sys2Proof/Machine/Boot.lean ====
section
/-!
DEFINITION. Sys2Proof/Machine/Boot.lean: the firmware store, the boot ROM's checks (R405 to R408, R411, R413, R414), the security lock
(R354) and attestation (R417 to R419).
-/
namespace Sys2Proof.Machine

/-- Reference cycles of one stitch, and of a job of the security engine: 1,024 stitches. -/
def referenceCycles : Nat := 200
def engineTime : Nat := 1024 * referenceCycles

/-- The reference cycle counted from stitch 0. -/
def State.reference (s : State) : Nat := referenceCycles * s.clock.stitch + s.clock.cycle * s.fabricDivider / 64

/-- The reference cycle of the first stitch boundary after a moment. -/
def boundaryAfter (t : Nat) : Nat := referenceCycles * (t / referenceCycles + 1)

/-! ### The firmware store (R405, R406) -/

/-- Bytes of a half. -/
def halfBytes : Nat := 4194304

/-- Firmware state is checking. -/
def State.firmwareChecking (s : State) : Bool := s.boot.state == 1

/-- Pattern of a word of the firmware store. -/
def State.firmwarePattern (s : State) (h w : Nat) : Nat := fget 0 s.mem.firmwareErrors (2 ^ 18 * h + w)

/-- A word of the firmware store reads uncorrectable. -/
def State.firmwareBad (s : State) (h w : Nat) : Bool :=
  let p := s.firmwarePattern h w
  p ≠ 0 && codeRead (leAt (s.firmwareHalf h) (16 * w) 16) p == .bad

/-- A half as the boot ROM reads it through the code (R316); an uncorrectable word reads as written. -/
def State.firmwareData (s : State) (h : Nat) : Bytes :=
  let raw := s.firmwareHalf h
  s.mem.firmwareErrors.foldl (fun b e =>
    if e.1 / 2 ^ 18 ≠ h then b
    else
      let w := e.1 % 2 ^ 18
      match codeRead (leAt raw (16 * w) 16) e.2 with
      | .clean d => (patch b (16 * w) (leBytes 16 d)).take raw.length
      | .corrected d => (patch b (16 * w) (leBytes 16 d)).take raw.length
      | .bad => b) raw

/-- Replace a half. -/
def State.setHalf (s : State) (h : Nat) (b : Bytes) : State :=
  { s with mem := { s.mem with firmware := s.mem.firmware.set h b } }

/-- Empty a half. -/
def State.clearHalf (s : State) (h : Nat) : State :=
  let s := s.setHalf h []
  { s with mem := { s.mem with firmwareErrors := fkeep (fun k => k / 2 ^ 18 != h) s.mem.firmwareErrors } }

/-- A segment that 0xA010.00 takes. -/
def State.firmwareSegmentOk (s : State) (p : Bytes) : Bool :=
  !s.firmwareChecking && decide (8 ≤ p.length) && decide (beAt p 0 8 + (p.length - 8) ≤ halfBytes)

/-- Write bytes into the staging half: whole words take a fresh code, others are merged, an uncorrectable one stays poisoned
(R317, R318). -/
def State.firmwareSegment (s : State) (p : Bytes) : State :=
  let o := beAt p 0 8
  let d := p.drop 8
  let h := s.stagingHalf
  if d.isEmpty then s
  else
    let words := (List.range ((o + d.length - 1) / 16 - o / 16 + 1)).map (· + o / 16)
    let errors := words.foldl (fun m w =>
      let whole := decide (o ≤ 16 * w) && decide (16 * w + 16 ≤ o + d.length)
      fset 0 m (2 ^ 18 * h + w) (if !whole && State.firmwareBad s h w then poisonPattern else 0)) s.mem.firmwareErrors
    let s := s.setHalf h (patch (s.firmwareHalf h) o d)
    { s with mem := { s.mem with firmwareErrors := errors } }

/-! ### The checks of Table 19.4 -/

/-- Section offset and length of a quire. -/
def firmwareSection (b : Bytes) (q : Nat) : Nat × Nat := (leAt b (0x28 + 8 * q) 4, leAt b (0x2C + 8 * q) 4)

/-- Check 1: the image offset of the first fault. -/
def firmwareFault (b : Bytes) : Option Nat :=
  let length := leAt b 0x10 4
  let block := length - 208
  let sec := firmwareSection b
  if b.length < 80 || b.take 8 != ascii "TFFIRM01" then some 0x00
  else if leAt b 0x08 4 ≠ 1 then some 0x08
  else if length < 352 || halfBytes < length || b.length < length then some 0x10
  else if leAt b 0x14 4 ≠ 0 then some 0x14
  else match (List.range 4).find? (fun q =>
      let x := sec q
      x.2 % 16 != 0 || decide (x.2 < 16) || decide (1048576 < x.2) || decide (x.1 < 80) || decide (block < x.1 + x.2) ||
        (List.range q).any (fun k => meets x.1 x.2 (sec k).1 (sec k).2)) with
    | some q => some (0x28 + 8 * q)
    | none =>
      match (List.range 4).find? (fun q => decide ((sec q).2 / 16 ≤ leAt b (0x18 + 4 * q) 4)) with
      | some q => some (0x18 + 4 * q)
      | none => if leAt b 0x48 8 ≠ 0 then some 0x48
        else ((List.range 15).find? (fun k => leAt b (block + 97 + k) 1 ≠ 0)).map (fun k => block + 97 + k)

/-- The half being checked: the staging half, or on a re-check the half that ran. -/
def State.checkedHalf (s : State) : Nat := if s.boot.recheck then s.boot.runningHalf else s.stagingHalf

/-- Image length of the half being checked. -/
def State.checkedLength (s : State) : Nat := leAt (s.firmwareData s.checkedHalf) 0x10 4

/-- Check 4 over the words from byte a up to byte b: image offset of the first uncorrectable one. -/
def State.firmwareUncorrectable (s : State) (a b : Nat) : Option Nat :=
  ((List.range (ceilDiv b 16)).find? (fun w => decide (a / 16 ≤ w) && s.firmwareBad s.checkedHalf w)).map (· * 16)

/-- A report that waits for the engine begins to be signed (R417). -/
def State.beginReport (s : State) (at_ : Nat) : State :=
  if s.boot.reportState ≠ 1 || s.boot.reportDue ≠ 0 then s
  else
    let t := max at_ s.boot.engineFree + engineTime
    { s with boot := { s.boot with reportDue := t, engineFree := t } }

/-- A check fails at a reference cycle (R408). -/
def State.bootFails (s : State) (code detail at_ : Nat) : State :=
  let s := if s.boot.recheck then (s.idxSet 0xA017 0 code).idxSet 0xA018 0 detail
    else { s with boot := { s.boot with refusal := code } }.idxSet 0xA016 0 detail
  let b := s.boot
  let s := if b.wasRunning && !b.recheck then
      { s with boot := { b with recheck := true, stage := 1, due := boundaryAfter at_ } }
    else { s with boot := { b with state := 3, stage := 0 } }
  s.beginReport at_

/-- A boot command takes effect (R407). -/
def State.bootCommand (s : State) : State :=
  let b := s.boot
  let s := { s with boot := { b with
      state := 1, wasRunning := b.state == 2, recheck := false, stage := 1, due := boundaryAfter s.reference } }
  (s.idxSet 0xA017 0 0).idxSet 0xA018 0 0

/-- BOOT_CHECKS_DECIDED: checks 1 to 3, with check 4 on the words they read. -/
def execBootChecksDecided (s : State) : Out :=
  let b := s.firmwareData s.checkedHalf
  let n := s.checkedLength
  let t := s.boot.due
  s.ends (if s.boot.stage ≠ 1 || s.reference < t then s
    else match s.firmwareUncorrectable 0 80 with
      | some o => s.bootFails 0x06 o t
      | none => match firmwareFault b with
        | some o => s.bootFails 0x01 o t
        | none => match s.firmwareUncorrectable (n - 208) n with
          | some o => s.bootFails 0x06 o t
          | none =>
            let key := sha384 (slice b (n - 208) 97)
            if !(s.dev.fusedFirmwareKeys.any (fun k => k.any (· != 0) && slice k 0 48 == key)) then s.bootFails 0x02 0 t
            else if leAt b 0x0C 4 < s.dev.minSecurityVersion then s.bootFails 0x03 s.dev.minSecurityVersion t
            else { s with boot := { s.boot with stage := 2, due := t + ceilDiv (n - 208) 8 } })

/-- FIRMWARE_DIGEST_DONE: the digest ends, checks 4 and 5 are decided. -/
def execFirmwareDigestDone (s : State) : Out :=
  let n := s.checkedLength
  let digest := sha384 ((s.firmwareData s.checkedHalf).take (n - 208))
  let t := s.boot.due
  let want := s.entryBytes 0xA013 0
  s.ends (if s.boot.stage ≠ 2 || s.reference < t then s
    else match s.firmwareUncorrectable 0 n with
      | some o => s.bootFails 0x06 o t
      | none =>
        if want.any (· != 0) && want != digest then s.bootFails 0x04 0 t
        else
          let e := max t s.boot.engineFree + engineTime
          { s with boot := { s.boot with stage := 3, digest := digest, due := e, engineFree := e } })

/-- SIGNATURE_CHECK_DONE: verification ends; the words of the signature block are read under check 4. -/
def execSignatureCheckDone (s : State) : Out :=
  let b := s.firmwareData s.checkedHalf
  let n := s.checkedLength
  let t := s.boot.due
  s.ends (if s.boot.stage ≠ 3 || s.reference < t then s
    else match s.firmwareUncorrectable (n - 208) n with
    | some o => s.bootFails 0x06 o t
    | none =>
    if ecdsaVerify (slice b (n - 208) 97) s.boot.digest (slice b (n - 96) 96) then
      { s with boot := { s.boot with stage := 4, due := boundaryAfter t } }.beginReport t
    else s.bootFails 0x05 0 t)

/-- FIRMWARE_START: the checked half runs; the half that becomes the staging half is cleared (R406, R408). -/
def execFirmwareStart (s : State) : Out :=
  let h := s.checkedHalf
  let b := s.firmwareData h
  s.ends (if s.boot.stage ≠ 4 || s.reference < s.boot.due then s
    else
      let s := if s.boot.recheck then s else s.clearHalf (1 - h)
      let s := s.domainSet 0xA014 0 s.boot.digest
      { s with boot := { s.boot with
          state := 2, stage := 0, runningHalf := h, everRan := true, recheck := false, wasRunning := false,
          contexts := (List.range 4).map (fun q => (leAt b (0x18 + 4 * q) 4, [])) } })

/-- FIRMWARE_HALT: all four firmware contexts stop (R411). -/
def execFirmwareHalt (reason : BitVec 8) (s : State) : Out :=
  s.ends (if s.firmwareRunning then { s with boot := { s.boot with state := 4, haltReason := reason.toNat } } else s)

/-! ### Attestation (R417 to R419) -/

/-- The entries that the security digest covers, in order. -/
def securityEntries : List (Nat × Nat) :=
  [(0x1001, 0), (0x1002, 0), (0x1010, 0), (0x5020, 0), (0x8001, 0), (0x8010, 0), (0x8030, 0), (0xA002, 0), (0xA013, 0),
    (0xA020, 0), (0xA020, 1), (0xA020, 2), (0xA020, 3), (0xA021, 0), (0xA021, 1), (0xA021, 2), (0xA021, 3)]

/-- The security entries digest (R419). -/
def State.securityDigest (s : State) : Bytes :=
  sha384 (securityEntries.flatMap (fun e => beBytes 2 e.1 ++ beBytes 1 e.2 ++ s.wireValue e.1 e.2))

/-- The first 256 bytes of a report (Table 19.5). -/
def State.snapshot (s : State) (nonce : Bytes) : Bytes :=
  let runs := s.firmwareRunning
  let phase := s.colophonPhase
  let installed := decide (3 ≤ phase) && decide (phase ≤ 6)
  ascii "TFATTEST" ++ leBytes 4 1 ++
    leBytes 4 (b2n runs + b2n installed * 2 + b2n s.boot.locked * 4 + b2n s.strict * 8) ++
    leBytes 8 s.dev.identity ++ leBytes 8 s.clock.stitch ++ nonce ++
    (if runs then s.entryBytes 0xA014 0 else zeros 48) ++
    leBytes 4 (if runs then leAt (s.firmwareData s.boot.runningHalf) 0x0C 4 else 0) ++
    leBytes 1 (b2n s.dev.gradeB) ++ leBytes 1 (s.idx 0x1010 0) ++ zeros 2 ++ leBytes 2 s.address ++ zeros 6 ++
    s.entryBytes 0x5084 0 ++ s.securityDigest ++ leBytes 8 s.boot.issued ++ zeros 24

/-- A nonce is taken: the snapshot, and the signing where no boot check is ahead of it. -/
def State.takeNonce (s : State) (nonce : Bytes) : State :=
  let b := s.boot
  let s := { s with boot := { b with nonce := nonce, report := s.snapshot nonce, reportState := 1, reportDue := 0 } }
  if b.state = 1 && b.stage ≠ 4 then s else s.beginReport s.reference

/-- REPORT_READY: signing ends; the signature values are free (log entry 2). -/
def execReportReady (s : State) : Out :=
  s.ends (if s.boot.reportState ≠ 1 || s.boot.reportDue = 0 || s.reference < s.boot.reportDue then s
    else
      let n := s.draw.1
      let sig := Config.reportSignature s.boot.report n
      let s := s.draw.2
      { s with boot := { s.boot with
          report := s.boot.report ++ slice sig.1 0 48 ++ slice sig.2 0 48, reportState := 2, reportDue := 0,
          issued := s.boot.issued + 1 } })

end Sys2Proof.Machine
end

