-- ==== Sys2Proof/Machine/Links.lean ====
section
/-!
DEFINITION. Sys2Proof/Machine/Links.lean: the links (R325 to R336): what a link going up or down does with its port, its retry and its
credits, and the acquisition of locks (R436).
-/
namespace Sys2Proof.Machine

/-! ### Frames that will not leave -/

/-- What a frame was sent for completes with a cause, 0 for OK (R247, R236). -/
def State.sentAs (s : State) (f : Frame) (cause : Nat) : State :=
  let s := match f.sender with
    | some (c, n, i) => s.sendDone c n i cause f.check
    | none => s
  match f.emitter with
  | some (x, p, k) => s.emitDone x p k cause
  | none => s

/-- Drop a queued frame at the link (R331). -/
def State.dropAtLink (s : State) (p : Nat) (f : Frame) : State := ((s.freeFrame f).count 0x3008 p 1).sentAs f 8

/-! ### Links going down and coming up (R331, R32, R392) -/

/-- Empty a port's egress queues, and what its transmitter holds, at a link that has gone down. -/
def State.dropQueues (s : State) (p : Nat) : State :=
  let x := s.port p
  let fs := (match x.sending with
    | some f => [f]
    | none => []) ++ (List.range 8).flatMap (fun v => (x.queue v).frames)
  let x := { x with sending := none }
  let x := (List.range 8).foldl (fun x v =>
    if (Port.queue x v).frames.isEmpty then x
    else x.setQueue v { Port.queue x v with frames := [], tagged := false, emptySince := s.now }) x
  fs.foldl (fun s f => State.dropAtLink s p f) (s.setPort p x)

/-- A slot names a port among its paths. -/
def slotNames (v p : Nat) : Bool := (List.range (slotPaths v)).any (fun k => slotPort v k == p)

/-- A manager loses the folio behind a port (R32, R392): the slot that names it on this port is emptied. A folio that is no
manager now leaves the port's entries as they stand (log entry 39). -/
def State.detach (s : State) (p : Nat) : State :=
  if !s.feeds p then s
  else
    let a := (s.port p).attach
    let slots := s.listedSlots.filter (fun e => slotNames e.2 p && bits e.2 63 48 == s.idx 0x1020 p && s.idx 0x1020 p ≠ 0)
    let s := slots.foldl (fun s e => State.idxSet s (0x4400 + e.1 / 256) (e.1 % 256) 0) s
    let s : State := match a.slot with
      | some n => s.idxSet (0x4400 + n / 256) (n % 256) 0
      | none => s
    let s := ((s.idxSet 0x1020 p 0).idxSet 0x1021 p 0).idxSet 0x1022 p 4
    let s := s.setPort p { s.port p with attach := Attach.reset }
    let s := s.count 0x1023 0 1
    let s := if s.binding.loaded then s.colophonAdd 0x60 1 else s
    if s.idx 0x8032 p = 1 then s.failOwnRun 2 p s.broadcastPorts else s

/-- A port's link goes down: what is queued is dropped, and the port waits for a link again (R331). -/
def State.dropLink (s : State) (p : Nat) : State :=
  let x := s.port p
  let up := x.up
  let s := s.setPort p { x with
    up := false, creditSeen := false, cleanStitch := false, dirty := true, crossing := none, openMask := 0, retry := none, retrySent := false,
    replay := none, echoesOwed := [] }
  if up then ((s.dropQueues p).detach p).settle none else s

/-- The receiver of a port delivers codewords to FABRIC: a native one holds its locks and its crossing is released (R366). -/
def State.delivers (s : State) (p : Nat) : Bool :=
  !s.native p || (s.codewordLock p && s.markerLock p && (s.port p).crossing.isSome)

/-- What a native link needs to come up (R331); fabric ports stay down until the device is aligned, and when it
coasts or has tripped (R363, R368, R430). -/
def State.linkReady (s : State) (p : Nat) : Bool :=
  let x := s.port p
  let runs := s.served && (p == portC || !s.power.tripped)
  if s.mode p = 4 then runs
  else s.native p && runs && s.codewordLock p && s.markerLock p && x.creditSeen && x.cleanStitch

/-- The link comes up: credit counts start from zero (R334), and a manager sees a port to attach (R32). -/
def State.raiseLink (s : State) (p : Nat) : State :=
  let x := s.port p
  let s := s.setPort p { x with up := true, spent := [], limit := [], freed := [], advertised := [] }
  let s := if s.feeds p then s.idxSet 0x1022 p 1 else s
  s.retag p

/-- LINK_UP: a link whose conditions hold comes up. -/
def execLinkUp (p : PortId) (s : State) : Out :=
  s.ends (if (s.port p).up || !s.linkReady p then s else s.raiseLink p)

/-! ### Codeword lock (R331) -/

/-- CODEWORD_LOCK: a lane's receiver acquires or loses codeword lock. -/
def execCodewordLock (p : PortId) (lane : Fin 4) (held : Bool) (s : State) : Out :=
  let x := s.port p
  s.ends (if s.laneCount p ≤ lane.val || s.dark then s
    else
      let l := x.lanes.getD lane.val Lane.reset
      s.setPort p { x with
        lanes := x.lanes.set lane.val { l with codeword := held }
        dirty := x.dirty || !held, cleanStitch := x.cleanStitch && held, crossing := if held then x.crossing else none })

/-! ### Marker lock (R436) -/

/-- One marker group at a lane: its lane as it stands afterwards. -/
def Lane.group (l : Lane) (inPlace : Bool) (mark : Nat) : Lane :=
  let number := bits mark 95 32
  let valid := bit mark 31
  if !inPlace then
    let m := l.missing + 1
    if l.marker && m < 2 then { l with missing := m } else { l with marker := false, good := 0, missing := m }
  else if !markOk mark then
    (if l.marker then { l with missing := 0 } else { l with missing := 0, good := 0 })
  else if l.marker then { l with missing := 0, lastNumber := number, lastValid := valid }
  else
    let follows := 1 ≤ l.good && valid == l.lastValid && (!valid || number == (l.lastNumber + 1) % 2 ^ 64)
    { l with missing := 0, lastNumber := number, lastValid := valid, good := if follows then 2 else 1, marker := follows }

/-! ### Retry (R332, R333) -/

/-- Codewords per stitch of a link (Table 14.1). -/
def State.codewords (s : State) (p : Nat) : Nat := 100 * s.laneCount p

/-- UNCORRECTABLE_CODEWORD: the receiver of a link counts the codeword; a native one discards it and what follows, and asks for it
again (R333, Table 14.8). -/
def execUncorrectableCodeword (p : PortId) (stitch : BitVec 32) (index : Nat) (s : State) : Out :=
  s.ends (if s.dark || !(s.native p || s.mode p == 4) then s
    else if !s.native p then s.idxBump 0x3006 p 63 32 1
    else
      let s := s.idxBump 0x3006 p 63 32 1
      let x := s.port p
      let x := { x with dirty := true, cleanStitch := false }
      s.setPort p (if x.retry.isSome || !x.up then x
        else { x with retry := some (stitch.toNat, index, s.now), retrySent := false }))

/-- A failed retry takes the link down (R333, step 4). -/
def State.retryFails (s : State) (p : Nat) : State := s.idxBump 0x3007 p 31 0 1

/-- The transmitter still holds a codeword, of the last two stitches: how many it sends again; none where it does not. -/
def State.heldCodewords (s : State) (p stitch index : Nat) : Option Nat :=
  let per := s.codewords p
  let age := subMod 32 s.clock.stitch stitch
  let here := s.clock.cycle * per / s.fabricCycles
  if 2 < age || per ≤ index || age * per + here < index || 2 * per < age * per + here - index then none
  else some (age * per + here - index + 1)

/-- Replay from a codeword: its transmitter has no room for new frames until the replay is over. -/
def State.replayFrom (s : State) (p stitch index n : Nat) : State :=
  s.setPort p { s.port p with replay := some (stitch, index, s.now + ceilDiv (n * s.fabricCycles) (max 1 (s.codewords p))) }

/-- REPLAY_ARRIVAL: the replay that the receiver waits for arrives (R333). -/
def execReplayArrival (p : PortId) (stitch : BitVec 32) (index : Nat) (s : State) : Out :=
  let x := s.port p
  s.ends (match x.retry with
    | some (st, i, _) =>
      if st ≠ stitch.toNat || i ≠ index then s
      else (s.setPort p { x with retry := none, retrySent := false }).idxBump 0x3007 p 63 32 1
    | none => s)

/-! ### Credit frames (R334 to R336) -/

/-- Reinitialization stops credits (R281). -/
def State.reinit (s : State) : Bool := bit s.switch.poolStatus 29

/-- The limit that a port advertises for a virtual channel: it never decreases. -/
def State.limitNow (s : State) (p v : Nat) : Nat :=
  let x := s.port p
  let a := fget 0 x.advertised v
  let n := (fget 0 x.freed v + s.reserve p v) % 2 ^ 32
  if s.reinit then a else if subMod 32 n a < 2 ^ 31 then n else a

/-- The transmitter of a port runs: port C's from the end of phase 5, the others' from the aligned boundary; a
coasting device squelches every one (R363, R368). -/
def State.transmits (s : State) (p : Nat) : Bool :=
  !s.power.clocksStopped &&
    (s.served && (p == portC || !s.power.tripped) ||
      (p == portC && (s.clock.phase == .marksAndEcho || s.clock.phase == .release || s.clock.phase == .check || s.clock.phase == .passed)))

/-- The body of a credit frame (Table 14.3). -/
def State.creditBody (s : State) (p : Nat) : Nat :=
  let x := s.port p
  let mask := 8 + b2n (s.reserve p 4 ≠ 0) + b2n (s.reserve p 5 ≠ 0) * 2 + b2n (s.reserve p 6 ≠ 0) * 4
  let w0 := 0x21000000 + mask * 2 ^ 20
  let w1 := s.address * 2 ^ 16 + p * 2 ^ 8
  let r := match x.retry with
    | some (st, i, _) => st * 2 ^ 32 + 2 ^ 31 + i % 512
    | none => 0
  [4, 5, 6, 7].foldl (fun n v => n * 2 ^ 32 + State.limitNow s p v) (w0 * 2 ^ 32 + w1) * 2 ^ 64 + r

/-- The 64 bytes of a credit frame (R336): to 02-4B-4E-00-00-00, from the folio, its body, 14 zero bytes and the check. -/
def State.creditFrame (s : State) (p : Nat) : Bytes :=
  etherFrame (s.idx 0x4001 0) 0 s.address (beBytes 32 (s.creditBody p) ++ zeros 14)

/-- The cases of R336: a stitch without one, a new retry request, a rise of 64 leaves. -/
def State.creditDue (s : State) (p : Nat) : Bool :=
  let x := s.port p
  x.creditFrame.isEmpty || decide (x.lastCredit < s.clock.base) || (x.retry.isSome && !x.retrySent) ||
    (decide (x.lastCredit + 32 ≤ s.now) &&
      [4, 5, 6, 7].any (fun v => decide (64 ≤ subMod 32 (s.limitNow p v) (fget 0 x.advertised v))))

/-- CREDIT_FRAME_SEND: a native port sends a credit frame where one is due. -/
def execCreditFrameSend (p : PortId) (s : State) : Out :=
  s.ends (if !s.native p || !s.transmits p || !s.creditDue p then s
    else
      let x := s.port p
      let frame := s.creditFrame p
      s.setPort p { x with
        advertised := [4, 5, 6, 7].foldl (fun m v => fset 0 m v (s.limitNow p v)) x.advertised
        lastCredit := s.now, creditFrame := frame
        retry := (match x.retry with
          | some (st, i, t) => some (st, i, if x.retrySent then t else s.now)
          | none => none)
        retrySent := x.retry.isSome })

/-- Type, version and reserved bits of a credit frame's body (R338). -/
def creditOk (b : Nat) : Bool :=
  bits b 255 252 == 2 && bits b 251 248 == 1 && bits b 243 224 == 0 && bits b 199 192 == 0 && bits b 30 9 == 0

/-- Take a credit frame's limits, open mask and partner (R334, R335, Table 14.8). -/
def State.takeCredits (s : State) (p b : Nat) : State :=
  let x := s.port p
  let take := fun (m : FMap Nat) v =>
    let a := bits b (191 - 32 * (v - 4)) (160 - 32 * (v - 4))
    if subMod 32 a (fget 0 m v) < 2 ^ 31 then fset 0 m v a else m
  (s.setPort p { x with
    openMask := bits b 247 244, partner := bits b 223 200 * 2 ^ 8, creditSeen := true,
    limit := [4, 5, 6, 7].foldl take x.limit }).retag p

/-! ### Echo replies (R365) -/

/-- ECHO_REQUEST_RECEIVE: a native feeder or lent feeder port owes a reply 96 FABRIC cycles later. -/
def execEchoRequestReceive (p : PortId) (s : State) : Out :=
  let x := s.port p
  s.ends (if p.val = portC || !s.native p || (s.idx 0x3100 p ≠ 1 && s.idx 0x3100 p ≠ 2) || !s.transmits p then s
    else s.setPort p { x with echoesOwed := x.echoesOwed ++ [s.now + 96] })

/-- ECHO_REPLY_SEND: a reply whose 96 cycles have passed is sent. -/
def execEchoReplySend (p : PortId) (s : State) : Out :=
  let x := s.port p
  s.ends (match x.echoesOwed with
    | [] => s
    | t :: rest => if t ≤ s.now && s.transmits p then s.setPort p { x with echoesOwed := rest } else s)

end Sys2Proof.Machine
end

