-- ==== Sys2Proof/Machine/Clock.lean ====
section
/-!
DEFINITION. Sys2Proof/Machine/Clock.lean: reset and start-up (R362 to R365), the loss of the reference and its drain (R368, R369), the
marks of port C (R330, R367, R436), and the events of a link that may take it down (R331, R333).
-/
namespace Sys2Proof.Machine

/-! ### Reset -/

/-- RESET_ASSERT: everything returns to the power-up state, whatever was going on (R362). What was made at manufacture
and the strap stay; the model's count of draws goes on. -/
def execResetAssert (s : State) : Out :=
  s.ends { State.reset with freshCount := s.freshCount, clock := { Clock.reset with testEn := s.clock.testEn } }

/-- RESET_RELEASE: phase 1 begins (R363). -/
def execResetRelease (s : State) : Out :=
  s.ends (if s.clock.phase = .held then { s with clock := { s.clock with resetN := true, phase := .awaitingSignal } } else s)

/-! ### Phases 1 to 5 (Table 16.3) -/

/-- A phase ends after so many reference cycles, and the next begins. -/
def State.endPhase (s : State) (now next : Phase) (cycles : Nat) : State :=
  if s.clock.phase = now then
    { s with clock := { s.clock with phase := next, phaseCycles := s.clock.phaseCycles ++ [cycles] } }
  else s

/-- SIGNAL_DETECT: lane 0 has signal, which ends phase 1. -/
def execSignalDetect (s : State) : Out :=
  s.ends (if s.clock.phase = .awaitingSignal then
      { s with clock := { s.clock with signal := true, phase := .clockRecovery, phaseCycles := [] } }
    else s)

/-- CLOCK_RECOVERY_LOCK: phase 2 ends. -/
def execClockRecoveryLock (cycles : Nat) (s : State) : Out :=
  s.ends (s.endPhase .clockRecovery .oscillatorStart cycles)

/-- OSCILLATOR_STABLE: phase 3 ends. -/
def execOscillatorStable (cycles : Nat) (s : State) : Out :=
  s.ends (s.endPhase .oscillatorStart .referenceLock cycles)

/-- REFERENCE_LOCK: phase 4 ends. -/
def execReferenceLock (cycles : Nat) (s : State) : Out :=
  s.ends (s.endPhase .referenceLock .domainLock cycles)

/-! ### Phase 6: marks and echo (R364, R365) -/

/-- Before the aligned boundary, with port C's receiver running. -/
def Clock.starting (c : Clock) : Bool :=
  c.phase != .held && c.phase != .awaitingSignal && c.phase != .clockRecovery && c.phase != .aligned

/-- In phase 6 or beyond, and not yet aligned. -/
def Clock.aligning (c : Clock) : Bool := c.phase == .marksAndEcho || c.phase == .release || c.phase == .check || c.phase == .passed

/-- Go on in phase 6 as far as it can: the root path has offset 0 and ends it with marker lock; a worker first sends
four echo requests and fixes its offset. -/
def State.phase6 (s : State) : State :=
  let c := s.clock
  if c.phase ≠ .marksAndEcho || !s.markerLock portC then s
  else match c.path with
    | .none => s
    | .root => (({ s with clock := { c with phase := .release, offsetDone := true } }).idxSet 0x2004 0 0).idxSet 0x2006 0 0
    | .worker =>
      if c.offsetDone then { s with clock := { c with phase := .release } }
      else if c.echoesOwed = 0 && c.echoes.isEmpty then { s with clock := { c with echoesOwed := 4 } }
      else s

/-- Marker lock of port C breaks before the device is aligned: back to the start of phase 6 (R364), with no offset
measured. -/
def State.backToMarks (s : State) : State :=
  (({ s with clock := { s.clock with
      phase := if s.clock.aligning then .marksAndEcho else s.clock.phase
      path := .none, offsetDone := false, echoes := [], echoesOwed := 0, crossings := none } }).idxSet 0x2004 0 0).idxSet
    0x2006 0 0

/-- The MEM PLL has locked: LPDDR5X leaves self-refresh (R369). -/
def State.memLocks (s : State) : State :=
  if s.clock.phase = .domainLock then { s with clock := { s.clock with selfRefresh := false } } else s

/-- DOMAIN_LOCK: phase 5 ends, port C's transmitter starts, and LPDDR5X leaves self-refresh. -/
def execDomainLock (cycles : Nat) (s : State) : Out :=
  s.ends (s.memLocks.endPhase .domainLock .marksAndEcho cycles).phase6

/-- ECHO_REPLY_RECEIVE: a worker takes a round trip; four equal ones give the offset, else four more requests are sent
(R365). -/
def execEchoReplyReceive (roundTrip : Nat) (s : State) : Out :=
  let c := s.clock
  s.ends (if c.phase ≠ .marksAndEcho || c.path ≠ .worker || c.offsetDone || 4 ≤ c.echoes.length + c.echoesOwed then s
    else
      let es := c.echoes ++ [roundTrip]
      if es.length < 4 then { s with clock := { c with echoes := es } }
      else if es.all (· == roundTrip) then
        ((({ s with clock := { c with echoes := es, offsetDone := true } }).idxSet 0x2004 0 ((roundTrip - 96) / 2)).idxSet
          0x2006 0 roundTrip).phase6
      else { s with clock := { c with echoes := [], echoesOwed := 4 } })

/-! ### Phases 7 and 8 -/

/-- RELEASE_BOUNDARY: at a release boundary the dividers restart, the crossings are released with 4 entries in flight and
the stitch number is loaded (R364, R34). -/
def execReleaseBoundary (cycles : Nat) (s : State) : Out :=
  let c := s.clock
  let number := if c.path = .root then 2 ^ 64 - 3 else c.lastMarkStitch
  s.ends (if c.phase ≠ .release || (c.path = .worker && (c.lastMarkStitch % 3 ≠ 0 || !c.lastMarkValid)) || c.path = .none then s
    else { s with clock := { c with
        phase := .check, base := c.base + c.cycle, stitch := number, cycle := 0, crossings := some 4,
        releaseAttempts := satAdd 32 c.releaseAttempts 1, releaseCycles := cycles, releaseStitch := number } })

/-- ALIGNMENT_CHECK_END: after two whole stitches, the device is to be aligned at the next boundary, or releases again
(R363, R364). -/
def execAlignmentCheckEnd (depthsHeld : Bool) (s : State) : Out :=
  let c := s.clock
  s.ends (if c.phase ≠ .check || subMod 64 c.stitch c.releaseStitch ≠ 2 then s
    else { s with clock := { c with
        phase := if depthsHeld then .passed else .release, crossings := if depthsHeld then c.crossings else none } })

/-! ### Losing the reference (R368) -/

/-- Close every open step as at its deadline (R368, step 6). -/
def State.expireAll (s : State) : State :=
  s.ctxs.foldl (fun s e =>
    let y := State.ctx s e.1
    let unfinished := (List.range y.count).any (fun p => !(y.item p).finished)
    if y.state ≠ ctxOpen || y.stepCmd.isNone || !unfinished then s
    else ((State.nameFailed s e.1).failRest e.1 9).settle (some e.1)) s

/-- Cores that a binding has yet to start will not start: the device drains (R368, step 4). -/
def State.cancelStart (s : State) : State :=
  { s with binding := { s.binding with coresPending := false }, proof := { s.proof with coresAt := none } }

/-- Steps 4 to 6 of R368: the cores stop, the native fabric links go down, the open steps close. -/
def State.drainBegin (s : State) : State :=
  let s := s.stopCores.cancelStart
  let s := (List.range 128).foldl (fun s p => if State.native s p then State.dropLink s p else s) s
  s.expireAll

/-- Before the aligned boundary a loss returns the device to phase 1 with no state of the attempt (R363, R369): nothing
but memory, which a restart keeps, and whether it refreshes itself. -/
def State.attemptLost (s : State) : State :=
  let c := s.clock
  { State.reset with
    freshCount := s.freshCount
    mem := s.mem
    clock := { Clock.reset with
      resetN := c.resetN, testEn := c.testEn, signal := c.signal, selfRefresh := c.selfRefresh, phase := .awaitingSignal } }

/-- The device loses the reference and coasts (R368); `cause` as Table 16.5 has it. Marks that disagree leave port C's
link, whose transmitter is squelched with the frames it holds; every other cause takes it down. -/
def State.coast (s : State) (cause : Nat) : State :=
  if s.clock.coasting then s
  else
    let s := { s with clock := { s.clock with coasting := true, alignDone := false, lossCause := cause } }
    let s := if cause = 5 then s.dropQueues portC else s.dropLink portC
    s.drainBegin

/-- Lane 0 loses its signal again while the device coasts: a restart that waited for the drain waits for the signal anew
(R369). -/
def State.coastOn (s : State) (cause : LossCause) : State :=
  if cause = .signal then { s with clock := { s.clock with restartPending := false } } else s

/-- The code of a loss cause (Table 16.5). -/
def lossCode : LossCause → Nat
  | .signal => 1 | .laneLock => 2 | .missingEdges => 3 | .portDown => 4 | .marks => 5

/-- REFERENCE_LOSS: the device coasts, or starts up again where it was not aligned. -/
def execReferenceLoss (cause : LossCause) (s : State) : Out :=
  let s' := if cause = .signal then { s with clock := { s.clock with signal := false } } else s
  s.ends (if s.dark then s
    else if s.clock.coasting then s'.coastOn cause
    else if s.clock.phase = .aligned then s'.coast (lossCode cause)
    else if cause = .portDown || cause = .marks then s
    else s'.attemptLost)

/-! ### The drain and the return (R368, R369) -/

/-- The bytes of the colophon, left in memory for the next reader once the binding's state is gone. -/
def State.freezeColophon (s : State) : Memory :=
  if s.binding.phase = 0 then s.mem
  else s.mem.setBytes deviceArea ((List.range s.colophonSize).map (fun o => s.colophonByte o))

/-- What a restart after coasting keeps (R369): device memory and instruction memory, but for the staged image, which is gone
(R199), and the staging region of a power-up, which reads zero (R195). Everything else stands as at power-up, with phase 2
begun. -/
def State.restart (s : State) : State :=
  let t := { State.reset with
    freshCount := s.freshCount
    mem := { Memory.reset with cells := s.freezeColophon.cells, errors := s.mem.errors }
    clock := { Clock.reset with
      resetN := true, testEn := s.clock.testEn, signal := true, selfRefresh := s.clock.selfRefresh, phase := .clockRecovery } }
  (t.clearMem s.stagingBase s.stagingSize).clearMem t.stagingBase t.stagingSize

/-- A drain is under way: the device coasts or has tripped. -/
def State.draining (s : State) : Bool := (s.clock.coasting || s.power.tripped) && !s.clock.drained

/-- Commands that their units are executing. -/
def State.anyRunning (s : State) : Bool := s.cores.cmds.any Cmd.started

/-- DRAIN_COMPLETE: once no started command is left, LPDDR5X is placed in self-refresh and the drain is complete; a
restart that waited for it follows. -/
def execDrainComplete (s : State) : Out :=
  s.ends (if !s.draining || s.anyRunning then s
    else
      let s := (List.range 32).foldl (fun s c => State.writeRecords s c (State.core s c).records.length) s
      let s := { s with clock := { s.clock with drained := true, selfRefresh := true } }
      if s.clock.restartPending && !s.power.tripped then s.restart else s)

/-- SIGNAL_RETURN: lane 0 regains signal while the device coasts: it restarts at phase 2 once the drain is complete; a
tripped device stays tripped (R369, R430). -/
def execSignalReturn (s : State) : Out :=
  s.ends (if !s.clock.coasting then s
    else if s.power.tripped then { s with clock := { s.clock with signal := true } }
    else if s.clock.drained then s.restart
    else { s with clock := { s.clock with signal := true, restartPending := true } })

/-! ### A link that goes down, and what takes it down -/

/-- A port's link goes down; with port C's the device loses the reference (R368). -/
def State.downLink (s : State) (p : Nat) : State :=
  if p = portC && s.clock.phase = .aligned && (s.port p).up && !s.clock.coasting then s.coast 4 else s.dropLink p

/-- LINK_DOWN: a lane of the link loses signal. -/
def execLinkDown (p : PortId) (s : State) : Out := s.ends (if (s.port p).up then s.downLink p else s)

/-- RETRY_TIMEOUT: no replay has begun two stitches after the request was first sent (R333). -/
def execRetryTimeout (p : PortId) (s : State) : Out :=
  s.ends (match (s.port p).retry with
    | some (_, _, t) => if (s.port p).retrySent && t + 2 * s.fabricCycles ≤ s.now then (s.retryFails p).downLink p else s
    | none => s)

/-- A transmitter asked for a codeword replays from it, or takes the link down where it no longer holds it (R333). -/
def State.retryRequest (s : State) (p stitch index : Nat) : State :=
  if !s.native p || !(s.port p).up then s
  else match s.heldCodewords p stitch index with
    | some n => s.replayFrom p stitch index n
    | none => (s.retryFails p).downLink p

/-- RETRY_CONTROL_BLOCK: a transmitter receives a retry request and replays. -/
def execRetryControlBlock (p : PortId) (stitch : BitVec 32) (index : Nat) (s : State) : Out :=
  s.ends (s.retryRequest p stitch.toNat index)

/-- A credit frame at a port: dropped where R328 or R338 says so, else taken, with its retry request. -/
def State.receiveCredits (s : State) (p b : Nat) : State :=
  if s.mode p = 4 then s.count 0x3008 p 1
  else if !s.native p || (s.port p).retry.isSome then s
  else if !creditOk b then s.count 0x4005 0 1
  else
    let s := s.takeCredits p b
    if bit b 31 then s.retryRequest p (bits b 63 32) (bits b 8 0) else s

/-- CREDIT_FRAME_RECEIVE: a received credit frame updates limits, open mask and partner. A native receiver delivers it once
it holds its locks and its crossing is released (R366). -/
def execCreditFrameReceive (p : PortId) (body : BitVec 256) (s : State) : Out :=
  s.ends (if s.dark || !s.delivers p then s else s.receiveCredits p body.toNat)

/-! ### Marks -/

/-- A lane of port C has taken a marker group before the device is aligned: the path of the marks that establish lock
(R364), or back to phase 6 where the lock broke. -/
def State.afterGroup (s : State) (had : Bool) : State :=
  if !s.clock.starting then s
  else if had && !s.markerLock portC then s.backToMarks
  else if !had && s.markerLock portC then
    (let valid := (s.linkLanes portC).all (·.lastValid)
     { s with clock := { s.clock with path := if valid then .worker else .root } }.phase6)
  else s

/-- MARKER_LOCK: a lane takes the marker group of a stitch, in its place or not; a link that loses marker lock goes
down (R436, R331). Before alignment, a change of Valid on port C breaks the lock (R364). A mark that fails its check is
counted once for its link (R330). -/
def execMarkerLock (p : PortId) (lane : Fin 4) (inPlace : Bool) (mark : BitVec 96) (s : State) : Out :=
  let m := mark.toNat
  let runs := if p.val = portC then s.clock.starting || s.clock.phase == .aligned else s.clock.phase == .aligned
  s.ends (if !runs || !s.native p || s.laneCount p ≤ lane.val then s
    else
      let x := s.port p
      let had := s.markerLock p
      let l := x.lanes.getD lane.val Lane.reset
      let flips := p.val = portC && s.clock.phase != .aligned && l.marker && inPlace && markOk m && bit m 31 != l.lastValid
      let l := if flips then { l with marker := false, good := 1, missing := 0, lastValid := bit m 31, lastNumber := bits m 95 32 }
        else l.group inPlace m
      let lost := had && !l.marker
      let s := s.setPort p { x with
        lanes := x.lanes.set lane.val l, dirty := x.dirty || lost, cleanStitch := x.cleanStitch && !lost
        crossing := if lost then none else x.crossing }
      let s := if inPlace && !markOk m && p.val ≠ portC then s.idxBump 0x3006 p 31 0 1 else s
      let s := if lost && (s.port p).up then s.downLink p else s
      if p.val = portC then s.afterGroup had else s)

/-- STITCH_MARK_RECEIVE: the mark of port C's link: noted for the release, and once aligned compared with the folio's
own count, or for the root with the spacing of the host's groups; two disagreements in a row lose the reference
(R330, R367). -/
def execStitchMarkReceive (mark : BitVec 96) (spacing : Nat) (s : State) : Out :=
  let m := mark.toNat
  let number := bits m 95 32
  let valid := bit m 31
  s.ends (if !(s.clock.starting || s.clock.phase == .aligned) || s.clock.coasting then s
    else
      let root := s.clock.path == .root
      let wrong := if root then spacing != 200 else !valid || number != s.clock.stitch
      let checked := markOk m
      let s := if checked then { s with clock := { s.clock with lastMarkStitch := number, lastMarkValid := valid } }
        else s.idxBump 0x3006 portC 31 0 1
      if s.clock.phase ≠ .aligned || (!checked && !root) then s
      else if !wrong then { s with clock := { s.clock with marksApart := 0, disagreedNow := false } }
      else
        let s := s.idxBump 0x2008 0 31 0 1
        let n := s.clock.marksApart + 1
        let s := { s with clock := { s.clock with marksApart := n, disagreedNow := true } }
        if 2 ≤ n then s.coast 5 else s)

end Sys2Proof.Machine
end

