-- ==== Sys2Proof/Machine/SwitchOps.lean ====
section
/-!
DEFINITION. Sys2Proof/Machine/SwitchOps.lean: the switch at work: ingress with its checks, policers and learning (R264 to R270, R291 to
R293), lookup with bridging, admission and early drop (R267 to R270, R277, R283), egress (R296, R298, R247), the sampling of
queues (R300, R301), the scrubber (R320) and the reinitialization of the pool (R281).
-/
namespace Sys2Proof.Machine

/-! ### Frames dropped at ingress -/

/-- Drop a frame at ingress: captured as dropped, its leaves freed, counted in an entry (R286, R287). -/
def State.dropIngress (s : State) (f : Frame) (entry sub reason : Nat) : State :=
  ((s.mirrorIngress f reason).freeFrame f).count entry sub 1

/-! ### Ingress (R264 to R266, R269, R338) -/

/-- A link that delivers frames: up, and not waiting on a replay (R331, R333). -/
def State.receives (s : State) (p : Nat) : Bool :=
  (s.port p).up && (s.port p).retry.isNone && !s.power.clocksStopped && s.clock.phase == .aligned

/-- The PCP of an ordinary frame: its tag's, or its port's default (R265, R269). -/
def State.pcpOf (s : State) (p : Nat) (q : Parsed) : Nat :=
  match q.tci with
  | some t => bits t 15 13
  | none => bits (s.idx 0x4015 p) 15 13

/-- The VID of an ordinary frame: its tag's where that is not zero, else its port's. -/
def State.vidOf (s : State) (p : Nat) (q : Parsed) : Nat :=
  let own := bits (s.idx 0x4015 p) 11 0
  match q.tci with
  | some t => if t % 4096 = 0 then own else t % 4096
  | none => own

/-- What ingress makes of a frame's bytes: class, virtual channel, addresses and VLAN (R265, Table 11.1). -/
def State.landedFrame (s : State) (p : Nat) (b : Bytes) : Frame :=
  let q := parseFrame b
  let cls := s.classOf q.etype
  let f := { Frame.blank with
    bytes := b, rawLength := b.length, length := if q.tci.isSome then max 64 (b.length - 4) else b.length,
    ordinal := (s.port p).landedCount, tagged := q.tci.isSome, cls := cls, inPort := p, landed := s.now, landedAt := (s.clock.stitch, s.clock.cycle) }
  match cls with
  | .compute =>
    let h := FolioHeader.decode b q.body
    { f with vc := h.vc, vid := q.tci.getD 0 % 4096, destination := h.destination, source := h.source, group := h.group }
  | .index =>
    { f with vc := 7, vid := q.tci.getD 0 % 4096, destination := beAt b (q.body + 4) 2, source := beAt b (q.body + 6) 2 }
  | .ordinary =>
    let vid := s.vidOf p q
    let pcp := s.pcpOf p q
    { f with
      vc := bits (s.idx 0x4003 0) (2 * pcp + 1) (2 * pcp), vid := vid,
      tci := some (pcp * 2 ^ 13 + b2n (bit (q.tci.getD 0) 12) * 2 ^ 12 + vid) }

/-- Put a landed frame where it waits: for lookup, or among the replies, which never enter it (R341). -/
def State.queueLanded (s : State) (p : Nat) (f : Frame) (reply : Bool) : State :=
  if reply then { s with switch := { s.switch with replies := s.switch.replies ++ [f] } }
  else s.setPort p { s.port p with waiting := (s.port p).waiting ++ [f] }

/-- A frame bound for the fallback controller's receive buffer, which lies outside the leaves (R265, R24). -/
def State.toBuffer (s : State) (f : Frame) : Bool :=
  f.cls == .index && (f.destination == s.address || f.destination == 0)

/-- Land a lossless frame: a leaf for each 256 bytes from the on-die list, charged to its port and virtual channel, unless it
goes to the receive buffer; where the list gives none it is held and tried again (R265, R274 to R276, R279). -/
def State.landLossless (s : State) (f : Frame) : State :=
  let p := f.inPort
  let n := ceilDiv f.rawLength 256
  let reply := f.cls == .index && bit (beAt f.bytes (parseFrame f.bytes).body 4) 27
  if s.toBuffer f then s.queueLanded p { f with onDie := n } reply
  else match State.allocMany (fun s => State.alloc s false) n s [] with
    | (t, none) => t.setPort p { t.port p with landing := (t.port p).landing ++ [f] }
    | (t, some hs) =>
      (((t.linkChain hs).fillLeaves hs f.bytes).chargePort p f.vc n).queueLanded p { f with handles := hs, bytes := [], onDie := n } reply

/-- Held landings are tried again, each cycle (R274). -/
def State.retryLanding (s : State) : State :=
  s.ports.foldl (fun s e =>
    if e.2.landing.isEmpty then s
    else e.2.landing.foldl (fun s f => State.landLossless s f) (State.setPort s e.1 { State.port s e.1 with landing := [] })) s

/-! ### Bridging: VLANs and the MAC table (R269, R270) -/

/-- Member and untagged masks of a VLAN. -/
def State.vlan (s : State) (vid : Nat) : Nat × Nat := fget (0, 0) s.switch.vlans vid

/-- A port forwards (0x4015.SS bit [12]). -/
def State.forwards (s : State) (p : Nat) : Bool := bit (s.idx 0x4015 p) 12

/-- A group address. -/
def isGroup (mac : Nat) : Bool := bit mac 40

/-- The table's entry for a VID and an address. -/
def State.macEntry (s : State) (vid mac : Nat) : Option MacEntry := s.switch.macs.find? (fun e => e.vid == vid && e.mac == mac)

/-- The set of four that a VID and an address fall into holds four entries. -/
def State.macSetFull (s : State) (vid mac : Nat) : Bool :=
  let k := Config.macSet vid mac % 65536
  decide (4 ≤ (s.switch.macs.filter (fun e => Config.macSet e.vid e.mac % 65536 == k)).length)

def State.setMacs (s : State) (m : List MacEntry) : State := { s with switch := { s.switch with macs := m } }

/-- Learn a source address on a port (R270). -/
def State.learn (s : State) (vid mac p : Nat) : State :=
  if isGroup mac then s
  else match s.macEntry vid mac with
    | some e =>
      if e.static then s
      else s.setMacs (s.switch.macs.map (fun x =>
        if x.vid == vid && x.mac == mac then { x with port := p, refreshed := s.clock.stitch } else x))
    | none =>
      if s.macSetFull vid mac then s.count 0x4013 0 1
      else s.setMacs (s.switch.macs ++ [⟨vid, mac, p, false, s.clock.stitch⟩])

/-- Frames that no bridge forwards: 01-80-C2-00-00-00 to 01-80-C2-00-00-0F. -/
def reservedMac (mac : Nat) : Bool := mac / 16 == 0x0180C2000000 / 16

/-! ### Policing (R291 to R293) -/

/-- Meter a frame of counted length b (R292): the buckets and the colour. -/
def meter (k : Bucket) (cir pir cbs pbs : Nat) (aware preYellow : Bool) (b c : Nat) : Bucket × Colour :=
  let tc := min (k.tc + cir * (c - k.last)) (cbs * 10000)
  let tp := min (k.tp + pir * (c - k.last)) (pbs * 10000)
  if pir = 0 then (⟨tc, tp, c⟩, .green)
  else if tp < b * 10000 then (⟨tc, tp, c⟩, .red)
  else if (aware && preYellow) || tc < b * 10000 then (⟨tc, tp - b * 10000, c⟩, .yellow)
  else (⟨tc - b * 10000, tp - b * 10000, c⟩, .green)

/-- A policer's buckets as nothing has set them (log entry 12). -/
def Bucket.reset : Bucket := ⟨0, 0, 0⟩

/-- Meter a frame by its ingress class's policer. -/
def State.police (s : State) (f : Frame) : State × Colour :=
  let p := f.inPort
  let rates := s.idx (0x4200 + f.vc) p
  let bursts := s.idx (0x4204 + f.vc) p
  let k := fget Bucket.reset (s.port p).buckets f.vc
  let r := meter k (bits rates 31 0) (bits rates 63 32) (bits bursts 31 0) (bits bursts 63 32)
    (bit (s.idx (0x4208 + f.vc) p) 0) (f.tagged && bit (f.tci.getD 0) 12) (f.rawLength + s.idx 0x4016 p) s.now
  (s.setPort p { s.port p with buckets := fset Bucket.reset (s.port p).buckets f.vc r.1 }, r.2)

/-- Lossy frames of a port that wait for lookup. -/
def Port.lossyWaiting (x : Port) : Nat := (x.waiting.filter (fun f => decide (f.vc < 4))).length

/-- A lossy frame takes the leaves it needs before its lookup: the first where its policer is off, all of them where it
is on, since such a frame is whole before it is metered (R277, R278, R291). -/
def State.landLossy (s : State) (f : Frame) : State :=
  let p := f.inPort
  let policed := bits (s.idx (0x4200 + f.vc) p) 63 32 ≠ 0
  match State.allocMany State.allocLossy (if policed then ceilDiv f.rawLength 256 else 1) s [] with
  | (t, none) => t.dropIngress f 0x4005 0 4
  | (t, some hs) =>
    let t := (t.linkChain hs).fillLeaves hs f.bytes
    let ext := (hs.filter isExternal).length
    let g := { f with handles := hs, onDie := hs.length - ext, external := ext }
    if !policed then t.queueLanded p g false
    else
      let r := t.police g
      match r.2 with
      | .red => r.1.dropIngress g (0x4214 + f.vc) p 3
      | .yellow => (r.1.count (0x4210 + f.vc) p 1).queueLanded p { g with colour := .yellow } false
      | .green => (r.1.count (0x420C + f.vc) p 1).queueLanded p g false

/-- An ordinary frame: filtered, learnt, and held to the sixteen that may wait (R264, R269, R270, R281). -/
def State.landOrdinary (s : State) (f : Frame) : State :=
  let p := f.inPort
  if reservedMac (beAt f.bytes 0 6) || !s.forwards p || f.vid = 0 || f.vid = 4095 || !bit (s.vlan f.vid).1 p then
    s.dropIngress f 0x4005 0 4
  else
    let s := s.learn f.vid (beAt f.bytes 6 6) p
    if s.reinit then s.dropIngress f 0x4005 0 7
    else if 16 ≤ (s.port p).lossyWaiting then s.dropIngress f 0x4004 0 5
    else s.landLossy f

/-- A frame arrives whole at a port (R266, R265, R328, R336, R338). One that is dropped on VC4 to VC7 of a native port gives back
the credits of the leaves it took (R275). -/
def State.land (s : State) (p : Nat) (b : Bytes) : State :=
  let q := parseFrame b
  let f := s.landedFrame p b
  let sound := decide (64 ≤ b.length) && decide (b.length ≤ 9216) && fcsOk b
  if sound && f.cls == .compute && bits (beAt b q.body 1) 7 4 == 2 then s.receiveCredits p (beAt b q.body 32)
  else
    let s := s.setPort p { s.port p with landedCount := (s.port p).landedCount + 1 }
    let f := { f with onDie := if s.mode p = 4 || f.cls == .ordinary then 0 else ceilDiv b.length 256 }
    if !sound then s.dropIngress f 0x4005 0 4
    else match f.cls with
      | .ordinary => s.landOrdinary f
      | .index => if s.mode p = 4 then s.dropIngress f 0x3008 p 4 else s.landLossless f
      | .compute =>
        if s.mode p = 4 then s.dropIngress f 0x3008 p 4
        else if !folioHeaderOk b q.body (b.length - 4 - q.body) || f.vc < 4 || 6 < f.vc then s.dropIngress f 0x4005 0 4
        else s.landLossless f

/-- FRAME_LAND: a frame lands at ingress. -/
def execFrameLand (p : PortId) (frame : Bytes) (s : State) : Out :=
  s.ends (if s.receives p then s.land p frame else s)

/-! ### Early drop (R283) -/

/-- A port's early-drop register at power-up and at reinitialization: the seed rotated left by the port number. -/
def lfsrSeed (seed p : Nat) : Nat := (seed * 2 ^ (p % 32) + seed / 2 ^ (32 - p % 32)) % 2 ^ 32

/-- One advance of the register: x³² + x²² + x² + x + 1 (log entry 25). -/
def lfsrStep (r : Nat) : Nat :=
  (r * 2) % 2 ^ 32 + (b2n (bit r 31) + b2n (bit r 21) + b2n (bit r 1) + b2n (bit r 0)) % 2

/-- The queue's average and its decision: whether the frame drops. -/
def State.earlyDrop (s : State) (p v held : Nat) (colour : Colour) : State × Bool :=
  let x := s.port p
  let q := x.queue v
  let w := s.idx 0x4061 0
  let old := if q.frames.isEmpty && decide (q.emptySince + s.fabricCycles ≤ s.now) then 0 else q.average
  let avg := (old * (2 ^ w - 1) + (q.depth + held) * 256) / 2 ^ w
  let sel := s.idx (0x4128 + v) p
  let pr := s.idx 0x4060 (if colour = .yellow then bits sel 7 4 else bits sel 3 0)
  let hi := bits pr 63 36
  let lo := bits pr 35 8
  let x := x.setQueue v { q with average := avg }
  if hi = 0 || avg < lo * 256 then (s.setPort p x, false)
  else if hi * 256 ≤ avg then (s.setPort p x, true)
  else
    let r := lfsrStep (x.lfsr.getD (lfsrSeed 1 p))
    (s.setPort p { x with lfsr := some r }, decide (r % 65536 < pr % 256 * (avg - lo * 256) / (hi - lo)))

/-! ### Admission (R277) -/

/-- What becomes of one copy at its egress queue. -/
inductive Admission where
  | admitted | tailDrop | earlyDrop
  deriving DecidableEq, Repr

/-- Take k further leaves for a queue: on die within its quota, else external within its quota; none where one of them
finds neither (R277). -/
def State.furtherLeaves (s : State) (p v : Nat) : Nat → Nat → Nat → List Nat → State × Option (List Nat)
  | 0, _, _, acc => (s, some acc.reverse)
  | k + 1, onDie, ext, acc =>
    let quota := s.idx (0x4100 + v) p
    if onDie < bits quota 63 32 && s.onDieOpen then
      (match s.alloc false with
        | (t, some h) => State.furtherLeaves t p v k (onDie + 1) ext (h :: acc)
        | (t, none) => (t.freeLeaves acc, none))
    else if ext < bits quota 31 0 && s.shareOpen then
      (match s.alloc true with
        | (t, some h) => State.furtherLeaves t p v k onDie (ext + 1) (h :: acc)
        | (t, none) => (t.freeLeaves acc, none))
    else (s.freeLeaves acc, none)

/-- Admit a lossy copy to its queue; `first` leaves were taken before lookup. Leaves that an earlier copy has already
taken are charged as they lie (log entry 26). -/
def State.admission (s : State) (p : Nat) (f : Frame) (first : Nat) : State × Frame × Admission :=
  let e := s.earlyDrop p f.vc first f.colour
  if e.2 then (e.1.count (0x4118 + f.vc) p 1, f, .earlyDrop)
  else
    let s := e.1
    let q := (s.port p).queue f.vc
    let need := ceilDiv f.rawLength 256
    let early := f.handles.take first
    let more := f.handles.drop first
    let ext := q.external + (early.filter isExternal).length
    let onDie := q.onDie + early.length - (early.filter isExternal).length
    if f.handles.length < need then
      match s.furtherLeaves p f.vc (need - f.handles.length) onDie ext [] with
      | (t, none) => (t.count (0x4110 + f.vc) p 1, f, .tailDrop)
      | (t, some hs) => (t.linkChain (f.handles ++ hs), { f with handles := f.handles ++ hs }, .admitted)
    else
      let quota := s.idx (0x4100 + f.vc) p
      let moreExt := (more.filter isExternal).length
      if (more.length = moreExt || onDie + (more.length - moreExt) ≤ bits quota 63 32) &&
          (moreExt = 0 || ext + moreExt ≤ bits quota 31 0) then (s, f, .admitted)
      else (s.count (0x4110 + f.vc) p 1, f, .tailDrop)

/-- The frame as it leaves a port: with a tag or without (R269). -/
def State.tagFor (s : State) (p : Nat) (f : Frame) : Frame :=
  if bit (s.vlan f.vid).2 p then
    { f with tci := none, length := if f.tagged then max 64 (f.rawLength - 4) else f.rawLength }
  else { f with length := if f.tagged then f.rawLength else f.rawLength + 4 }

/-- Send copies of a lossy frame to ports: each takes its own admission; the leaves are counted once for each copy
admitted (R277, R279). -/
def State.spread (s : State) (f : Frame) (ports : List Nat) : State :=
  let first := f.handles.length
  let r := ports.foldl (fun (acc : State × Frame × List Nat × Nat) p =>
    let a := State.admission acc.1 p acc.2.1 first
    match a.2.2 with
    | .admitted => (a.1, a.2.1, acc.2.2.1 ++ [p], acc.2.2.2)
    | .tailDrop => (a.1, a.2.1, acc.2.2.1, if acc.2.2.2 = 0 then 1 else acc.2.2.2)
    | .earlyDrop => (a.1, a.2.1, acc.2.2.1, if acc.2.2.2 = 0 then 2 else acc.2.2.2)) (s, f, [], 0)
  let s := r.1
  let g := r.2.1
  match r.2.2.1 with
  | [] => (s.mirrorIngress g (max 1 r.2.2.2)).freeFrame g
  | out =>
    let s := (s.mirrorIngress g 0).refFrame g (out.length - 1)
    let s := if g.bytes.isEmpty then s else s.fillLeaves g.handles g.bytes
    let ext := (g.handles.filter isExternal).length
    let h := { g with bytes := [], external := ext, onDie := g.handles.length - ext }
    out.foldl (fun s p => (State.enqueue s p (State.tagFor s p h)).1) s

/-! ### Lookup (R267 to R270) -/

/-- Bridge an ordinary frame (R269, R270). A frame whose entry names its ingress port is counted as an ingress drop, as R17
asks that every drop is counted (log entry 41). -/
def State.bridge (s : State) (f : Frame) : State :=
  let mac := beAt (s.frameBytes f) 0 6
  let known := if isGroup mac then none else s.macEntry f.vid mac
  let fits := fun p => p != f.inPort && bit (s.vlan f.vid).1 p && s.forwards p
  match known with
  | some e =>
    if e.port ≠ f.inPort && !s.forwards e.port then s.dropIngress f 0x4005 0 4
    else if fits e.port then s.spread f [e.port]
    else s.dropIngress f 0x4005 0 4
  | none =>
    let ports := (List.range 129).filter (fun p => fits p && (s.port p).up)
    if ports.isEmpty then (s.mirrorIngress f 0).freeFrame f else s.spread f ports

/-- Hand a request to the fallback controller, which executes requests in the order in which they land (R340). -/
def State.deliverRequest (s : State) (f : Frame) : State :=
  { s with switch := { s.switch with requests := s.switch.requests ++ [f] } }

/-- Forward a frame on a path of its route slot, or drop it as unroutable (R267). -/
def State.forward (s : State) (f : Frame) : State :=
  match s.routeTo f with
  | none => s.dropIngress f 0x4007 0 6
  | some p => ((s.mirrorIngress f 0).enqueue p f).1

/-- A request that waits for the fallback controller releases the folio (R27, R31): it writes the folio's own address to
0x1014.00. -/
def State.releaseWaits (s : State) : Bool :=
  s.switch.requests.any (fun f =>
    let b := indexBody (s.frameBytes f)
    let h := IndexHeader.decode b
    h.op % 2 == 1 && ((readRecords b true h.count 12).getD []).any (fun r =>
      r.index == 0x1014 && r.sub == 0 && r.data.length == 2 && beNat r.data == s.address))

/-- Lookup of an Index request (R24, R267). A request to 0x0000 that arrives behind a release waits for it (R27). -/
def State.lookupIndex (s : State) (f : Frame) : State :=
  if f.destination = 0 then
    (if (s.address = 0 || s.releaseWaits) && f.inPort = portC then (s.mirrorIngress f 0).deliverRequest f else (s.mirrorIngress f 4).freeFrame f)
  else if f.destination = s.address then (s.mirrorIngress f 0).deliverRequest f
  else if f.destination = 0xFFFF then
    let out := s.broadcastPorts.filter (· ≠ f.inPort)
    let s := ((s.mirrorIngress f 0).refFrame f out.length).deliverRequest f
    out.foldl (fun s p => (State.enqueue s p f).1) s
  else s.forward f

/-- A compute frame that the folio takes as its own: to its address; to its partner's on the proof port, for a shadow;
and to its partner's on every port, for a former shadow (R267, R377, R399). -/
def State.takesAsOwn (s : State) (f : Frame) : Bool :=
  f.destination == s.address ||
    (f.destination == s.idx 0x8011 0 && ((s.idx 0x8010 0 == 2 && f.inPort == s.proofPort) ||
      (s.idx 0x8010 0 == 1 && s.proof.phase == 6)))

/-- Lookup of a compute frame (R208, R209, R267, R377, R381, R395). -/
def State.lookupCompute (s : State) (f : Frame) : State :=
  if f.destination = 0xFFFF then s.dropIngress f 0x4005 0 4
  else if !s.takesAsOwn f then s.forward f
  else
    let s := s.mirrorIngress f 0
    if s.paired && f.inPort = s.proofPort && f.group = 0xFFFFFFFF then
      { s with switch := { s.switch with proofFrames := s.switch.proofFrames ++ [f] } }
    else if s.paired && f.inPort = s.proofPort && f.group = 0xFFFFFFFE then
      { s with switch := { s.switch with copyFrames := s.switch.copyFrames ++ [f] } }
    else if s.copiesToPartner f then ((s.refFrame f 1).deliverCompute f |>.enqueue s.proofPort f).1
    else s.deliverCompute f

/-- Lookup of one frame. -/
def State.lookupFrame (s : State) (f : Frame) : State :=
  match f.cls with
  | .index => s.lookupIndex f
  | .compute => s.lookupCompute f
  | .ordinary => s.bridge f

/-- LOOKUP: the frame of a port that has waited longest is looked up. -/
def execLookup (p : PortId) (s : State) : Out :=
  let x := s.port p
  s.ends (match x.waiting with
    | [] => s
    | f :: rest => if s.power.clocksStopped then s else (s.setPort p { x with waiting := rest }).lookupFrame f)

/-! ### Egress (R247, R296, R298) -/

/-- The head frames of VC4 to VC6 as the state of their sending contexts now has them (R247). -/
def State.leaveHeads (s : State) (p : Nat) : State :=
  [4, 5, 6].foldl (fun s v =>
    let x := State.port s p
    match (x.queue v).frames with
    | [] => s
    | f :: rest =>
      let g := State.leaving s f
      if g = f then s else State.setPort s p (x.setQueue v { x.queue v with frames := g :: rest })) s

/-- The transmitter of a port is free for a new frame. -/
def State.transmitterFree (s : State) (p : Nat) : Bool :=
  let x := s.port p
  x.up && x.sending.isNone && s.transmits p && (match x.replay with
    | some (_, _, t) => decide (t ≤ s.now)
    | none => true)

/-- EGRESS_SELECT: the free transmitter takes the head of the queue that R296 selects. -/
def execEgressSelect (p : PortId) (s : State) : Out :=
  s.ends (if !s.transmitterFree p then s
    else
      let s := (s.leaveHeads p).wheelVisit p
      match s.selectQueue p with
      | none => s
      | some v =>
        match ((s.port p).queue v).frames with
        | [] => s
        | f :: rest => s.transmit p v f rest)

/-- WHEEL_SLOT: the wheel of a port visits its slots up to the present one. -/
def execWheelSlot (p : PortId) (s : State) : Out := s.ends (if s.power.clocksStopped || s.dark then s else s.wheelVisit p)

/-- FRAME_TRANSMITTED: the frame's last byte has left: its leaves are freed and its send item is complete; one that was cut is
counted (R319). -/
def execFrameTransmitted (p : PortId) (s : State) : Out :=
  let x := s.port p
  s.ends (match x.sending with
    | none => s
    | some f =>
      let s := s.setPort p { x with sending := none, sentCount := x.sentCount + 1 }
      let s := s.count (0x4158 + f.vc) p (s.counted p f)
      let s := if f.cut then s.count 0x7005 0 1 else s
      ((s.freeFrame f).sentAs f 0).settle none)

/-! ### Aging and observation -/

/-- Stitches of one second. -/
def stitchesPerSecond : Nat := 781250

/-- MAC_AGING: a dynamic entry that nothing has refreshed for the aging time is removed (R270). -/
def execMacAging (vid : BitVec 12) (mac : BitVec 48) (s : State) : Out :=
  let age := s.idx 0x4012 0
  s.ends (match s.macEntry vid.toNat mac.toNat with
    | none => s
    | some e =>
      if e.static || age = 0 || s.clock.stitch < e.refreshed + age * stitchesPerSecond then s
      else s.setMacs (s.switch.macs.filter (fun x => x ≠ e)))

/-- The bin of a value (R301). -/
def histBin (x h : Nat) : Nat := if x = 0 then 0 else min (max (Nat.log2 x + 1 - h) 1) 15

/-- Add 1 to a bin of a histogram. -/
def histAdd (b : Bytes) (k : Nat) : Bytes :=
  let b := slice b 0 64
  patch b (4 * k) (leBytes 4 (satAdd 32 (leAt b (4 * k) 4) 1))

/-- Take one queue's sample: its depth and its head delay. -/
def State.sampleQueue (s : State) (p v : Nat) (d : Nat × Nat) : State :=
  let sh := s.idx 0x4021 0
  let s := s.domainSet (0x4148 + v) p (histAdd (s.domain (0x4148 + v) p) (histBin d.1 (bits sh 15 8)))
  s.domainSet (0x4150 + v) p (histAdd (s.domain (0x4150 + v) p) (histBin d.2 (bits sh 7 0)))

/-- QUEUE_SAMPLE: at cycle 0 of a stitch whose number is a multiple of the period, every queue is sampled, once, as it stood
at the start of the cycle (R300). -/
def execQueueSample (s : State) : Out :=
  let n := s.idx 0x4020 0
  s.ends (match s.switch.sample with
    | none => s
    | some m =>
      if s.clock.phase ≠ .aligned || s.power.clocksStopped || n = 0 || s.clock.cycle ≠ 0 || s.clock.stitch % n ≠ 0 then s
      else ((List.range 129).foldl (fun s p =>
        (List.range 8).foldl (fun s v => State.sampleQueue s p v (fget (0, 0) m (8 * p + v))) s)
        { s with switch := { s.switch with sample := none } }).count 0x4023 0 1)

/-- Clear every histogram and the sample count (R301). -/
def State.clearHistograms (s : State) : State :=
  ({ s with domains := fkeep (fun k => !(decide (256 * 0x4148 ≤ k) && decide (k < 256 * 0x4158))) s.domains }).idxSet 0x4023 0 0

/-! ### Scrubbing (R320, R321) -/

/-- Landing SRAM in the operand of SCRUB_READ: 2^48 and above, 256 bytes to a leaf (log entry 27). -/
def landingBase : Nat := 2 ^ 48

/-- Words that one pass covers: SRAM tiers, instruction memory and landing SRAM, or the LPDDR5X data range. -/
def passWords (lpddr : Bool) : Nat :=
  if lpddr then (lpddrEnd - lpddrBase) / 16 else (sramEnd + 4 * 0x800000 + onDieLeaves * 256) / 16

/-- The pass that a word belongs to; none where the scrubber does not reach it. -/
def scrubPass (a : Nat) : Option Bool :=
  if landingBase ≤ a then (if a < landingBase + onDieLeaves * 256 then some false else none)
  else match storeOf a with
    | 1 => some false
    | 2 => some true
    | 3 => some false
    | _ => none

/-- Reads of a pass: the pass's number and the words read in it; a pass starts anew with its number. -/
def State.scrubbed (s : State) (lpddr : Bool) (pass : Nat) : Nat :=
  if fget 0 s.mem.scrubbed (2 * b2n lpddr) = pass then fget 0 s.mem.scrubbed (2 * b2n lpddr + 1) else 0

/-- The key of a word that the scrubber reads. -/
def scrubKey (a : Nat) : Nat := if landingBase ≤ a then a / 16 else canon a / 16

/-- A word has been read in the running pass: it is not read again (R320). -/
def State.scrubDone (s : State) (lpddr : Bool) (pass a : Nat) : Bool :=
  fget 0 s.mem.scrubbed (2 * b2n lpddr) == pass && fget false s.mem.scrubSeen (scrubKey a)

/-- Note one read of a pass; the last word completes the pass (0x7022.00). -/
def State.noteScrub (s : State) (lpddr : Bool) (pass a : Nat) : State :=
  let n := s.scrubbed lpddr pass + 1
  let seen := if fget 0 s.mem.scrubbed (2 * b2n lpddr) = pass then s.mem.scrubSeen
    else fkeep (fun k => scrubPass (16 * k) != some lpddr) s.mem.scrubSeen
  let s := { s with mem := { s.mem with
      scrubbed := fset 0 (fset 0 s.mem.scrubbed (2 * b2n lpddr) pass) (2 * b2n lpddr + 1) n
      scrubSeen := fset false seen (scrubKey a) true } }
  if n = passWords lpddr then s.idxBump 0x7022 0 (if lpddr then 31 else 63) (if lpddr then 0 else 32) 1 else s

/-- Scrub one word of device memory: rewritten where it was corrected. -/
def State.scrubMem (s : State) (w : Nat) : State :=
  let r := s.wordRead w
  let a := canon (16 * w)
  let s := s.accountRead r .scrubber (storeOf a) a 0xFF
  match r with
  | .corrected d => { s with mem := (s.mem.setBytes (16 * w) (leBytes 16 d)).setPattern w 0 }
  | _ => s

/-- Scrub one word of an on-die leaf: rewritten where it was corrected. -/
def State.scrubLeaf (s : State) (h w : Nat) : State :=
  let r := s.readLeafWord h w .scrubber 0xFF
  match s.leafWordRead h w with
  | .corrected _ => r.1.writeLeaf h (16 * w) r.2.1
  | _ => r.1

/-- SCRUB_READ: the scrubber reads a word that is due and that the pass has not read: passes are spread evenly, and a pass of zero
is none. -/
def execScrubRead (address : Nat) (s : State) : Out :=
  s.ends (match scrubPass address with
    | none => s
    | some lpddr =>
      let n := s.idx (if lpddr then 0x7021 else 0x7020) 0
      let len := n * s.fabricCycles
      let pass := s.now / len
      if n = 0 || s.clock.phase ≠ .aligned || s.power.clocksStopped || (lpddr && s.clock.selfRefresh) ||
          s.scrubDone lpddr pass address || passWords lpddr * (s.now % len) < s.scrubbed lpddr pass * len then s
      else
        let s := s.noteScrub lpddr pass address
        if landingBase ≤ address then s.scrubLeaf ((address - landingBase) / 256) ((address - landingBase) % 256 / 16)
        else s.scrubMem (address / 16))

/-! ### Reinitialization of the pool (R281) -/

/-- Steps 1 and 2: lossy frames go, those of egress queues counted under their tail drops, those that wait for lookup as
ingress drops (R17, log entry 41). -/
def State.reinitStart (s : State) : State :=
  let s := { s with switch := { s.switch with reinitSince := some s.clock.stitch } }.poolFlag 29
  (List.range 129).foldl (fun s p =>
    let x := State.port s p
    let lossy := x.waiting.filter (fun f => decide (f.vc < 4))
    let s := lossy.foldl (fun s f => State.dropIngress s f 0x4005 0 7)
      (State.setPort s p { x with waiting := x.waiting.filter (fun f => decide (4 ≤ f.vc)) })
    [0, 1, 2, 3].foldl (fun s v =>
      let x := State.port s p
      let q := x.queue v
      if q.frames.isEmpty then s
      else
        let s := State.setPort s p (x.setQueue v { q with frames := [], tagged := false, emptySince := State.now s })
        (q.frames.foldl (fun s f => State.freeFrame s f) s).count (0x4110 + v) p q.frames.length) s) s

/-- Frames on VC4 to VC7 that wait at a port. -/
def Port.losslessHeld (x : Port) : List Frame :=
  x.waiting.filter (fun f => decide (4 ≤ f.vc)) ++ [4, 5, 6, 7].flatMap (fun v => (x.queue v).frames)

/-- Frames on VC4 to VC6 that wait for the Collator or the proof unit. -/
def Switch.computeHeld (x : Switch) : List Frame :=
  x.fragments.map (fun e => e.2) ++ x.stalled.map (fun e => e.2.2) ++ x.proofFrames ++ x.copyFrames

/-- The queues of VC4 to VC7 are empty. -/
def State.losslessEmpty (s : State) : Bool :=
  s.ports.all (fun e => e.2.losslessHeld.isEmpty && e.2.sending.isNone) && s.switch.computeHeld.isEmpty

/-- A frame that no longer lies in leaves, and owes no credits: those went back with the leaves. -/
def State.outOfLeaves (s : State) (f : Frame) : Frame :=
  if f.handles.isEmpty then f else { f with bytes := s.frameBytes f, handles := [], onDie := 0 }

/-- Discard what still waits on VC4 to VC7 and count it in 0x4049.00. -/
def State.reinitDiscard (s : State) : State :=
  let held := s.switch.computeHeld
  let s := held.foldl (fun s f => State.freeFrame s f)
    { s with switch := { s.switch with fragments := [], stalled := [], proofFrames := [], copyFrames := [] } }
  let s := if held.isEmpty then s else s.count 0x4049 0 held.length
  (List.range 129).foldl (fun s p =>
    let x := State.port s p
    let held := x.losslessHeld
    let x := { x with waiting := x.waiting.filter (fun f => decide (f.vc < 4)), sending := x.sending.map (State.outOfLeaves s) }
    let x := [4, 5, 6, 7].foldl (fun x v =>
      if (Port.queue x v).frames.isEmpty then x
      else x.setQueue v { Port.queue x v with frames := [], tagged := false, emptySince := State.now s }) x
    let s := held.foldl (fun s f => State.freeFrame s f) (State.setPort s p x)
    if held.isEmpty then s else s.count 0x4049 0 held.length) s

/-- Every port's early-drop register at its seed. -/
def State.reseed (s : State) : State :=
  (List.range 129).foldl (fun s p => State.setPort s p { State.port s p with lfsr := some (lfsrSeed (State.idx s 0x4062 0) p) }) s

/-- Steps 4 and 5, and the reply that was owed. -/
def State.reinitEnd (s : State) : State :=
  let s := s.reinitDiscard
  let s := { s with switch := { s.switch with
    requests := s.switch.requests.map s.outOfLeaves, replies := s.switch.replies.map s.outOfLeaves } }
  let owed := s.switch.reinitReply
  let s := ((s.carve (s.idx 0x7030 0) (s.idx 0x5083 0)).poolReset.chargesBack).reseed
  let s := { s with switch := { s.switch with reinitSince := none, reinitReply := none } }
  match owed with
  | none => s
  | some f => s.sendReply f.destination f

/-- POOL_REINIT_DRAIN_END: the lossless queues are empty, or 1,024 stitches have passed. -/
def execPoolReinitDrainEnd (s : State) : Out :=
  s.ends (match s.switch.reinitSince with
    | none => s
    | some t => if s.losslessEmpty || t + 1024 ≤ s.clock.stitch then s.reinitEnd else s)

end Sys2Proof.Machine
end

