-- ==== Sys2Proof/Machine/IndexRules.lean ====
section
/-!
DEFINITION. Sys2Proof/Machine/IndexRules.lean: which Index accesses complete and which are refused: access rights and sizes (Tables 15.2
and 15.3), and the rule of every entry that can be written, from its defining table.
-/
namespace Sys2Proof.Machine

/-! ### Rights (R346, R354) -/

/-- The right of an entry now: the locked security range answers as CONST. -/
def State.rightOf (s : State) (e : EntryDef) (i : Nat) : Access :=
  if s.boot.locked && decide (0xA000 ≤ i) && decide (i ≤ 0xAFFF) && (e.access == .rw || e.access == .rwi) then .const
  else e.access

/-- With the core rails removed only the reference domain answers: identity, clocks and power (R430). -/
def State.answers (s : State) (i : Nat) : Bool :=
  !s.power.railsAbsent || [0x1, 0x2, 0x9].contains (i / 0x1000)

/-- The right forbids a write. -/
def State.writeForbidden (s : State) (e : EntryDef) (i : Nat) : Bool :=
  match s.rightOf e i with
  | .ro => true
  | .const => true
  | .rwi => s.binding.loaded
  | .rw => false
  | .wo => false

/-! ### Port modes and roles (R22, R327, Table 14.1) -/

/-- Ports that a port has borrowed. -/
def State.borrowed (s : State) (p : Nat) : List Nat :=
  match s.mode p with
  | 2 => [p + 1]
  | 3 => [p + 1, p + 2, p + 3]
  | _ => []

/-- Ports that a mode of port p borrows. -/
def borrowsOf (p v : Nat) : List Nat :=
  match v with
  | 2 => [p + 1]
  | 3 => [p + 1, p + 2, p + 3]
  | _ => []

/-- A port that is the proof port of a pair, whose mode and role are kept (R385). -/
def State.holdsProof (s : State) (p : Nat) : Bool := s.idx 0x8010 0 != 0 && s.idx 0x8012 0 == p

/-- A mode write that is accepted. -/
def State.modeOk (s : State) (p v : Nat) : Bool :=
  !s.holdsProof p && p != portC && decide (v ≤ 4) && s.mode p != 5 && (s.idx 0x3100 p == 0 || v == 1) &&
    (v != 2 || p % 2 == 0) && (v != 3 || p % 4 == 0) &&
    (borrowsOf p v).all (fun q => s.mode q == 0 || (s.borrowed p).contains q)

/-- A port role write that is accepted. -/
def State.roleOk (s : State) (p v : Nat) : Bool :=
  let role := s.idx 0x1010 0
  let kept := ((List.range 128).filter (fun q => (if q = p then v else s.idx 0x3100 q) != 1)).length
  let lent := (List.range 128).any (fun q => q != p && s.idx 0x3100 q == 2)
  if s.holdsProof p then false
  else if role = 0 then v == 0
  else decide (v ≤ 2) && decide (8 ≤ kept) && (v != 2 || (role == 1 && !lent)) && (v == 0 || s.mode p == 1)

/-! ### Reserves (R275) -/

/-- All reserves and the Collator leaf limit, with one entry taken at a new value: a reserve of (channel, port), or the
limit. -/
def State.reservedSum (s : State) (change : Option (Nat × Nat)) (v limit : Nat) : Nat :=
  (List.range 129).foldl (fun n p => [4, 5, 6].foldl (fun n c =>
    n + (if change = some (c, p) then v else s.reserve p c)) n) (129 * 64 + limit)

/-- A reserve from 36 to 65,535, or 0. -/
def reserveOk (v : Nat) : Bool := v == 0 || (decide (36 ≤ v) && decide (v ≤ 65535))

/-! ### Route slots (R267) -/

/-- A slot taken by an attachment in progress (R25). -/
def State.slotTaken (s : State) (n : Nat) : Bool := s.ports.any (fun e => e.2.attach.slot == some n)

/-- A route slot write that is accepted. -/
def State.slotOk (s : State) (n v : Nat) : Bool :=
  let count := slotPaths v
  let address := bits v 63 48
  !s.slotTaken n &&
    (if count = 0 then v == 0
    else decide (count ≤ 4) && bits v 47 35 == 0 &&
      (List.range 4).all (fun k => if k < count then decide (slotPort v k ≤ 0x80) else slotPort v k == 0) &&
      address != 0 && address != 0xFFFF && address != s.address &&
      !s.listedSlots.any (fun e => e.1 != n && slotPaths e.2 != 0 && bits e.2 63 48 == address))

/-! ### Mirror rings (R287, R313) -/

/-- A ring of e entries at a base lies in the mirror ring area. -/
def ringFits (base e : Nat) : Bool :=
  base % 64 == 0 && within mirrorBase (mirrorBase + 0x3C000000) base (64 + 160 * e)

/-- A consumer index between the consumer and the producer (R186); past the producer, where an STS may have put it, there is
none. -/
def consumerOk (producer consumer v : Nat) : Bool :=
  let ahead := subMod 64 producer consumer
  decide (ahead < 2 ^ 63) && decide (subMod 64 v consumer ≤ ahead)

/-! ### The rule of each numeric entry: whether the value or the state forbids the write -/

/-- Entries 0x1000 to 0x3FFF; `s0` and `group`: the state and the entries of the whole block write (R26, R350). -/
def State.refusesLow (s s0 : State) (group : List (Nat × Nat)) (i sub v : Nat) : Bool :=
  let triple := group.contains (0x1002, 0) && group.contains (0x1011, 0) && group.contains (0x1016, 0)
  match i with
  | 0x1002 => !(triple && s.address == 0 && v != 0 && v != 0xFFFF)
  | 0x1011 => !(triple && s0.address == 0)
  | 0x1016 => !(triple && s0.address == 0 && decide (v ≤ 2))
  | 0x1010 => !(v == 0 || (v == 1 && s.idx 0x1016 0 == 1) || (v == 2 && s.idx 0x1016 0 == 0))
  | 0x1012 => !(v % 0x80 == 0 && decide (0x80 ≤ v) && decide (v ≤ 0xFF00))
  | 0x1014 => s.binding.loaded || v != s.address
  | 0x3001 => !s.modeOk sub v
  | 0x3100 => !s.roleOk sub v
  | _ => false

/-- Mirror sessions. -/
def State.refusesMirror (s : State) (i sub v : Nat) : Bool :=
  match sub with
  | 0 => !ringFits v (s.idx i 1)
  | 1 => !(v == 0 || (isPower v && decide (64 ≤ v) && decide (v ≤ 1048576) && ringFits (s.idx i 0) v))
  | 2 => bits v 26 24 != 0 || (bit v 31 && bits v 30 29 == 0) || (bit v 28 && bits v 15 0 != 0)
  | 4 => if s.idx i 1 = 0 then v != 0 else !consumerOk (s.peek64 (s.idx i 0)) (s.peek64 (s.idx i 0 + 8)) v
  | 10 => decide (1 < v)
  | _ => false

/-- A pool operation that the entry does not know (R282). -/
def poolOpBad (v : Nat) : Bool :=
  !(decide (1 ≤ bits v 63 56) && decide (bits v 63 56 ≤ 4)) || bits v 55 48 != 0 || bits v 39 32 != 0

/-- Entries 0x4000 to 0x4FFF. -/
def State.refusesSwitch (s : State) (i sub v : Nat) : Bool :=
  let hi := bits v 63 32
  let lo := bits v 31 0
  match i with
  | 0x4001 => v == s.idx 0x4002 0 || v == 0x8100 || decide (v < 0x0600)
  | 0x4002 => v == s.idx 0x4001 0 || v == 0x8100 || decide (v < 0x0600)
  | 0x4006 => sub == 4 && decide (1 < v)
  | 0x4016 => decide (63 < v)
  | 0x4021 => decide (31 < bits v 15 8) || decide (31 < bits v 7 0)
  | 0x4022 => v != 1
  | 0x4048 => v != 1 || s.binding.loaded || s.switch.reinitSince.isSome
  | 0x4060 => bits v 63 36 != 0 && decide (bits v 63 36 ≤ bits v 35 8)
  | 0x4061 => decide (15 < v)
  | 0x4062 => v == 0
  | _ =>
    if 0x4080 ≤ i && i ≤ 0x4083 then s.refusesMirror i sub v
    else if 0x4104 ≤ i && i ≤ 0x4106 then
      lo != 0 || !reserveOk hi || decide (376832 < s.reservedSum (some (i - 0x4100, sub)) hi (s.idx 0x6002 0))
    else if i = 0x4107 then true
    else if i = 0x4137 then v == 0
    else if 0x4138 ≤ i && i ≤ 0x413F then v != 0 && (decide (v < 10) || decide (1600000 < v))
    else if 0x4140 ≤ i && i ≤ 0x4147 then decide (16777215 < v)
    else if 0x4200 ≤ i && i ≤ 0x4203 then
      (decide (1 ≤ lo) && decide (lo ≤ 9)) || (decide (1 ≤ hi) && decide (hi ≤ 9)) || decide (1600000 < lo) ||
        decide (1600000 < hi) || decide (hi < lo)
    else if 0x4204 ≤ i && i ≤ 0x4207 then
      decide (lo < 9279) || decide (16777215 < lo) || decide (hi < 9279) || decide (16777215 < hi)
    else if 0x4208 ≤ i && i ≤ 0x420B then decide (1 < v)
    else if 0x4400 ≤ i && i ≤ 0x443F then !s.slotOk (256 * (i - 0x4400) + sub) v
    else false

/-- Entries 0x5000 to 0x6FFF, but for 0x5071.SS. -/
def State.refusesCompute (s : State) (i sub v : Nat) : Bool :=
  match i with
  | 0x5066 =>
    let x := s.core sub
    !consumerOk x.producer (if x.ringSize = 0 then 0 else s.peek64 (x.ringBase + 8)) v
  | 0x5073 => v != 1
  | 0x5081 => s.binding.loaded || !(v == 2 || (v == 1 && s.firmwareRunning))
  | 0x5082 => v != 1 || !s.binding.loaded
  | 0x5083 => decide (v < 16) || decide (256 < v)
  | 0x6002 => decide (196608 < v) || decide (376832 < s.reservedSum none 0 v)
  | 0x6008 => decide (268435456 < v)
  | 0x600C => decide (64 < v)
  | 0x600D => decide (s.idx 0x600C 0 < v)
  | _ =>
    let x := s.ctx (256 * (i % 16) + sub)
    if 0x6110 ≤ i && i ≤ 0x611F then v != 1 || !x.declared
    else if 0x6130 ≤ i && i ≤ 0x613F then !(x.declared && x.state == ctxIdle)
    else if 0x6140 ≤ i && i ≤ 0x614F then x.state == ctxOpen
    else false

/-- A proof role that is accepted (R376). -/
def State.proofRoleOk (s : State) (v : Nat) : Bool :=
  let partner := s.idx 0x8011 0
  let port := s.idx 0x8012 0
  v == 0 || (decide (v ≤ 2) && s.strict && partner != 0 && partner != 0xFFFF && partner != s.address &&
    s.mode port == 1 && s.idx 0x3100 port == 0)

/-- Entries from 0x7000. -/
def State.refusesHigh (s : State) (i v : Nat) : Bool :=
  match i with
  | 0x7010 => decide (2 ^ 48 ≤ v)
  | 0x7020 => v != 0 && decide (v < 65536)
  | 0x7021 => v != 0 && decide (v < 4194304)
  | 0x7030 => decide (64 < v)
  | 0x8001 => s.paired
  | 0x8010 => !s.proofRoleOk v
  | 0x8011 => s.paired
  | 0x8012 => s.paired || decide (0x7F < v)
  | 0x8014 => decide (1 < v) || (v == 1 && s.idx 0x8010 0 == 1)
  | 0x8024 => v != 1
  | 0x8031 => v == 0 || v != s.idx 0x8030 0 || !s.binding.loaded
  | 0x8040 => bits v 15 9 != 0
  | 0x8042 => decide (1 < v)
  | 0x8043 => v != 1 || !s.copyAllowed
  | 0x9005 => v != 1
  | 0x9010 => decide (12 < v)
  | 0xA001 => v != 1 || s.binding.loaded
  | 0xA011 => s.firmwareChecking || !(v == 2 || (v == 1 && !s.binding.loaded))
  | 0xF010 => !s.clock.testEn || (v != 0 && (decide (v < 4) || decide (64 < v)))
  | 0xF011 => !s.clock.testEn || (v != 0 && (decide (v < 6) || decide (32 < v)))
  | 0xF040 => s.binding.loaded || poolOpBad v
  | _ => false

/-- The status of a numeric write by the entry's own rule. -/
def State.numericStatus (s s0 : State) (group : List (Nat × Nat)) (i sub v : Nat) : Nat :=
  if i = 0x5071 then s.regionStatus sub v
  else b2n (if i < 0x4000 then s.refusesLow s0 group i sub v
    else if i < 0x5000 then s.refusesSwitch i sub v
    else if i < 0x7000 then s.refusesCompute i sub v
    else s.refusesHigh i v)

/-! ### DOMAIN entries -/

/-- The MAC operation's fields, big-endian: operation, VID, address, port (Table 11.7). -/
def macOp (d : Bytes) : Nat × Nat × Nat × Nat := (beAt d 0 1, beAt d 2 2, beAt d 4 6, beAt d 10 1)

/-- A VID of R269. -/
def vidOk (v : Nat) : Bool := decide (1 ≤ v) && decide (v ≤ 4094)

/-- A MAC operation that is accepted: an add needs a place in its set (R270). -/
def State.macOpOk (s : State) (d : Bytes) : Bool :=
  let (op, vid, mac, port) := macOp d
  beAt d 1 1 == 0 && beAt d 11 5 == 0 &&
    (match op with
    | 1 => vidOk vid && decide (port ≤ 0x80) && ((s.macEntry vid mac).isSome || !s.macSetFull vid mac)
    | 2 => vidOk vid
    | 3 => decide (port ≤ 0x80)
    | _ => false)

/-- A VLAN operation that is accepted. -/
def vlanOpOk (d : Bytes) : Bool :=
  vidOk (beAt d 0 2) && beAt d 2 2 == 0 && decide (beAt d 4 20 ≤ allPorts) && decide (beAt d 24 20 ≤ allPorts)

/-- A span of the host that lies within one range of Table 13.1, aligned (R323). -/
def State.hostSpanOk (s : State) (a n : Nat) : Bool :=
  a % 8 == 0 && n % 8 == 0 &&
    (inSram a n || within lpddrBase lpddrEnd a n || inViews a n ||
      [0, 1, 2, 3].any (fun q => within (imemBase + q * 0x800000) (imemBase + (q + 1) * 0x800000) a n) ||
      (match windowAt a with
      | some (u, _, _) => s.present u && within (windowBase + u * 0x800000) (windowBase + (u + 1) * 0x800000) a n
      | none => false))

/-- A host write that R323 protects against. -/
def State.hostProtected (s : State) (a n : Nat) : Bool :=
  within imemBase (imemBase + 4 * 0x800000) a n || meets a n s.stagingBase (lpddrEnd - s.stagingBase) ||
    within colophonBase (colophonBase + 0x4000000) a n || s.spanWeights ((a : Int), ((a + n : Nat) : Int)) ||
    (within mirrorBase (mirrorBase + 0x3C000000) a n && (List.range (n / 8)).any (fun k => !s.mirrorConsumer (a + 8 * k)))

/-- Size that a DOMAIN write must have; none where its own rule judges it. -/
def domainSize (i : Nat) : Option Nat :=
  match i with
  | 0x4010 => some 16
  | 0x4014 => some 44
  | 0xA013 => some 48
  | 0xA020 => some 48
  | 0xA050 => some 32
  | _ => none

/-- The status of a DOMAIN write by the entry's own rule. -/
def State.domainStatus (s : State) (i : Nat) (d : Bytes) : Nat :=
  if (domainSize i).any (· != d.length) then 7
  else b2n (match i with
    | 0x4010 => !s.macOpOk d
    | 0x4014 => !vlanOpOk d
    | 0x5080 => !s.segmentOk d
    | 0x7011 => d.length != 0 && (!s.hostSpanOk (s.idx 0x7010 0) d.length || s.hostProtected (s.idx 0x7010 0) d.length)
    | 0xA010 => !s.firmwareSegmentOk d
    | 0xA050 => s.boot.reportState == 1
    | _ => false)

/-! ### The status of one access (Table 14.7) -/

/-- A write record: `block` where it stands in a block write. -/
def State.writeStatus (s s0 : State) (block : Bool) (group : List (Nat × Nat)) (i sub : Nat) (d : Bytes) : Nat :=
  match entryOf i sub with
  | none => 3
  | some e =>
    if !s.answers i then 1
    else if s.writeForbidden e i then 4
    else if e.type.isBytes then (if block then s.domainStatus i d else 4)
    else if d.length ≠ e.type.size then 7
    else if e.type = .boolean && 1 < beNat d then 1
    else s.numericStatus s0 group i sub (beNat d)

/-- A read record of a requested length, but for what the entry's bytes decide. -/
def State.readStatus (s : State) (block : Bool) (i sub length : Nat) : Nat :=
  match entryOf i sub with
  | none => 3
  | some e =>
    if !s.answers i then 1
    else if e.access = .wo then 4
    else if e.type.isBytes then
      (if !block then 4
      else if s.readRefused i sub then 1
      else if i = 0x7011 then b2n (length ≠ 0 && !s.hostSpanOk (s.idx 0x7010 0) length)
      else if (s.entryBytes i sub).length < length then 7
      else 0)
    else if length = e.type.size || (block && length = 0) then 0
    else 7

end Sys2Proof.Machine
end

