-- ==== Sys2Proof/Machine/IndexApply.lean ====
section
/-!
DEFINITION. Sys2Proof/Machine/IndexApply.lean: what an accepted Index write does (R351): the entry takes its value, and the entries that act
do what their own rules say.
-/
namespace Sys2Proof.Machine

/-! ### Ports -/

/-- Ports whose links a mode write takes down: the port's own and those it had borrowed (R327). -/
def State.modeTargets (s : State) (p : Nat) : List Nat := p :: s.borrowed p

/-- A port mode write (R327): links down, borrowed ports freed, newly borrowed ones taken. -/
def State.setMode (s : State) (p v : Nat) : State :=
  let old := s.borrowed p
  let s := (s.modeTargets p).foldl (fun s q => State.dropLink s q) s
  let s := old.foldl (fun s q => State.idxSet s 0x3001 q 0) s
  let s := (borrowsOf p v).foldl (fun s q => State.idxSet s 0x3001 q 5) s
  let s := s.idxSet 0x3001 p v
  (p :: old ++ borrowsOf p v).foldl (fun s q => State.setPort s q { State.port s q with lanes := Port.reset.lanes }) s

/-- A port role write (R22, R331): the link goes down, and the port starts unattached. -/
def State.setRole (s : State) (p v : Nat) : State :=
  let s := (s.dropLink p).idxSet 0x3100 p v
  ((s.idxSet 0x1020 p 0).idxSet 0x1021 p 0).idxSet 0x1022 p 0

/-! ### Shapers and policers (R294, R299) -/

/-- A queue's tokens as they stand now under its rate and burst (R298). -/
def tokensNow (q : Queue) (rate burst c : Nat) : Int :=
  if rate = 0 then q.tokens
  else min (q.tokens + ((rate * (c - q.tokenCycle) : Nat) : Int)) ((burst * 10000 + 15 * rate : Nat) : Int)

/-- The wheel place of a queue after a write: placed again, or taken off at rate zero (R299). -/
def wheelAgain (q : Queue) (t : Int) (rate c : Nat) : Option (Nat × Nat) :=
  if rate = 0 || q.wheel.isNone then none else some (wheelPlace (if t < 0 then t else 0) rate c)

/-- A shaper write of a rate or a burst (R299). -/
def State.setShaper (s : State) (p v : Nat) (burst : Bool) (x : Nat) : State :=
  let s := s.wheelVisit p
  let r0 := s.idx (0x4138 + v) p
  let b0 := s.idx (0x4140 + v) p
  let s := s.idxSet ((if burst then 0x4140 else 0x4138) + v) p x
  let r := if burst then r0 else x
  let b := if burst then x else b0
  let q := (s.port p).queue v
  let t := min (tokensNow q r0 b0 s.now) ((b * 10000 + 15 * r : Nat) : Int)
  (s.setPort p ((s.port p).setQueue v { q with tokens := t, tokenCycle := s.now, wheel := wheelAgain q t r s.now })).retag p

/-- A policer write of rates or bursts: both buckets are full (R294). -/
def State.setPolicer (s : State) (p v i x : Nat) : State :=
  let s := s.idxSet i p x
  let bursts := s.idx (0x4204 + v) p
  let k : Bucket := ⟨if bits (s.idx (0x4200 + v) p) 31 0 = 0 then 0 else bits bursts 31 0 * 10000, bits bursts 63 32 * 10000, s.now⟩
  s.setPort p { s.port p with buckets := fset Bucket.reset (s.port p).buckets v k }

/-! ### The switch -/

/-- A pool operation as requester 133, unchecked (R282). -/
def State.poolOperation (s : State) (v : Nat) : State :=
  let s := s.poolFlag 31
  let h := bits v 31 0
  match bits v 63 56 with
  | 1 => let r := s.alloc false
         r.1.idxSet 0xF041 0 (r.2.getD nilHandle)
  | 2 => let r := s.alloc true
         r.1.idxSet 0xF041 0 (r.2.getD nilHandle)
  | 3 => (s.freeLeaf h).1
  | _ => s.refLeaf h (bits v 47 40)

/-- A mirror session's control: enabling it starts its count of selected frames (R287). -/
def State.setMirrorControl (s : State) (i v : Nat) : State :=
  let was := bit (s.idx i 2) 31
  let s := s.idxSet i 2 v
  if bit v 31 && !was then
    { s with switch := { s.switch with mirrorCount := fset 0 s.switch.mirrorCount (i - 0x4080) 0 } }
  else s

/-- A release of the folio's address (R31). -/
def State.releaseFolio (s : State) : State :=
  (((s.idxSet 0x1002 0 0).idxSet 0x1011 0 0).idxSet 0x1016 0 0).idxSet 0x1010 0 0

/-! ### Memory, proof mode, power -/

/-- A staging size write: the staging base moves below the overflow base as it stands (R310). -/
def State.setStaging (s : State) (v : Nat) : State := s.carve ((deviceArea - s.overflowBase) / 2 ^ 30) v

/-- Store words at a window's rows (R312). -/
def State.writeWindow (s : State) (a : Nat) (d : Bytes) : State :=
  (List.range (d.length / 8)).foldl (fun s k =>
    match windowAt (a + 8 * k) with
    | some (u, r, c) => State.setAcc s u r c (leAt d (8 * k) 8 % 2 ^ 36)
    | none => s) s

/-- A host write of device memory (R323). -/
def State.hostWrite (s : State) (d : Bytes) : State :=
  let a := s.idx 0x7010 0
  if d.isEmpty then s
  else if (windowAt a).isSome then s.writeWindow a d
  else s.writeMem a d 0xFF

/-- Clear the divergence records and their counts (R383). -/
def State.clearDivergences (s : State) : State :=
  ({ s with proof := { s.proof with records := [] } }.idxSet 0x8021 0 0).idxSet 0x8022 0 0

/-- Clear the lowest droop minima (R435). -/
def State.clearDroops (s : State) : State := (List.range 4).foldl (fun s q => State.idxSet s 0x9004 q 0xFFFF) s

/-! ### Every write -/

/-- Writes to the entries 0x1000 to 0x4FFF. -/
def State.applySwitch (s : State) (i sub v : Nat) : State :=
  match i with
  | 0x1014 => s.releaseFolio
  | 0x3001 => s.setMode sub v
  | 0x3100 => s.setRole sub v
  | 0x4022 => s.clearHistograms
  | 0x4048 => s.reinitStart
  | _ =>
    if 0x4080 ≤ i && i ≤ 0x4083 && sub = 2 then s.setMirrorControl i v
    else if 0x4080 ≤ i && i ≤ 0x4083 && sub = 4 then (if s.idx i 1 = 0 then s else s.poke64 (s.idx i 0 + 8) v)
    else if 0x4138 ≤ i && i ≤ 0x413F then s.setShaper sub (i - 0x4138) false v
    else if 0x4140 ≤ i && i ≤ 0x4147 then s.setShaper sub (i - 0x4140) true v
    else if 0x4200 ≤ i && i ≤ 0x4203 then s.setPolicer sub (i - 0x4200) i v
    else if 0x4204 ≤ i && i ≤ 0x4207 then s.setPolicer sub (i - 0x4204) i v
    else s.idxSet i sub v

/-- Writes to the entries 0x5000 to 0x6FFF. -/
def State.applyCompute (s : State) (i sub v : Nat) : State :=
  match i with
  | 0x5066 => if (s.core sub).ringSize = 0 then s else s.poke64 ((s.core sub).ringBase + 8) v
  | 0x5071 => s.startRegionLoad sub v
  | 0x5073 => (s.stopCore sub).settle none
  | 0x5081 => if v = 1 then s.load else s.clearStaged
  | 0x5082 => s.release
  | 0x5083 => s.setStaging v
  | _ =>
    if 0x6110 ≤ i && i ≤ 0x611F then s.resetCtx (256 * (i - 0x6110) + sub)
    else if 0x6130 ≤ i && i ≤ 0x613F then s.restartCtx (256 * (i - 0x6130) + sub) v
    else if 0x6140 ≤ i && i ≤ 0x614F && !(s.ctx (256 * (i - 0x6140) + sub)).declared then s
    else s.idxSet i sub v

/-- Writes to the entries from 0x7000. -/
def State.applyHigh (s : State) (i sub v : Nat) : State :=
  match i with
  | 0x8010 =>
    let t := s.idxSet 0x8010 0 v
    { t with proof := { t.proof with place := t.placeNow } }
  | 0x8024 => s.clearDivergences
  | 0x8031 => s.failRun 1 0
  | 0x8043 => s.startCopy
  | 0x9005 => s.clearDroops
  | 0xA001 => { s with boot := { s.boot with locked := true } }
  | 0xA011 => if v = 1 then s.bootCommand else s.clearHalf s.stagingHalf
  | 0xF040 => s.poolOperation v
  | _ => s.idxSet i sub v

/-- A numeric write. -/
def State.applyNumber (s : State) (i sub v : Nat) : State :=
  if i < 0x5000 then s.applySwitch i sub v
  else if i < 0x7000 then s.applyCompute i sub v
  else s.applyHigh i sub v

/-- A MAC operation (R270, Table 11.7). -/
def State.macOperation (s : State) (d : Bytes) : State :=
  let (op, vid, mac, port) := macOp d
  let others := s.switch.macs.filter (fun e => !(e.vid == vid && e.mac == mac))
  match op with
  | 1 => s.setMacs (others ++ [⟨vid, mac, port, true, s.clock.stitch⟩])
  | 2 => s.setMacs others
  | _ => s.setMacs (s.switch.macs.filter (fun e => e.static || e.port != port))

/-- A VLAN operation (R269): member and untagged sets. -/
def State.vlanOperation (s : State) (d : Bytes) : State :=
  { s with switch := { s.switch with vlans := fset (0, 0) s.switch.vlans (beAt d 0 2) (beAt d 4 20, beAt d 24 20) } }

/-- A DOMAIN write. -/
def State.applyBytes (s : State) (i sub : Nat) (d : Bytes) : State :=
  match i with
  | 0x4010 => s.macOperation d
  | 0x4014 => s.vlanOperation d
  | 0x5080 => s.stage d
  | 0x7011 => s.hostWrite d
  | 0xA010 => s.firmwareSegment d
  | 0xA050 => s.takeNonce d
  | _ => s.domainSet i sub d

/-- An accepted write. -/
def State.applyWrite (s : State) (i sub : Nat) (d : Bytes) : State :=
  match entryOf i sub with
  | none => s
  | some e => if e.type.isBytes then s.applyBytes i sub d else s.applyNumber i sub (beNat d)

end Sys2Proof.Machine
end

