-- ==== Sys2Proof/Machine/IndexOps.lean ====
section
/-!
DEFINITION. Sys2Proof/Machine/IndexOps.lean: one access of the Index at a time (R349, R350): block writes checked before they are applied, reads
that fill their reply record by record, requests with their replies (R340, R341), and the commands that each make one write.
-/
namespace Sys2Proof.Machine

/-! ### Writes (R340, R350) -/

/-- Check and apply records in order, each against the state that those before it leave; the first refusal stops it: its
position and status. -/
def State.foldWrites (s0 : State) (block : Bool) (group : List (Nat × Nat)) : List IndexRecord → Nat → State → State × Option (Nat × Nat)
  | [], _, s => (s, none)
  | r :: rs, k, s =>
    let st := s.writeStatus s0 block group r.index r.sub r.data
    if st = 0 then State.foldWrites s0 block group rs (k + 1) (s.applyWrite r.index r.sub r.data) else (s, some (k, st))

/-- A record of a reply: no data. -/
def IndexRecord.answer (r : IndexRecord) (status : Nat) (data : Bytes) : IndexRecord := ⟨r.index, r.sub, status, 0, data.length, data⟩

/-- Where record k of n is refused with a status, every other record has 0x05. -/
def refusedRecords (rs : List IndexRecord) (k status : Nat) : List IndexRecord :=
  (List.range rs.length).map (fun j => (rs.getD j ⟨0, 0, 0, 0, 0, []⟩).answer (if j = k then status else 5) [])

/-- The entries that a request names. -/
def recordGroup (rs : List IndexRecord) : List (Nat × Nat) := rs.map (fun r => (r.index, r.sub))

/-- A write access: all of its records are applied, or none. -/
def State.writeAccess (s : State) (block : Bool) (rs : List IndexRecord) : State × List IndexRecord :=
  match State.foldWrites s block (recordGroup rs) rs 0 s with
  | (t, none) => (t, rs.map (fun r => r.answer 0 []))
  | (_, some (k, st)) => (s, refusedRecords rs k st)

/-! ### Reads (R323, R340, R345) -/

/-- Words of a window, as they lie (R312). -/
def State.readWindow (s : State) (a n : Nat) : Bytes :=
  (List.range (n / 8)).flatMap (fun k =>
    match windowAt (a + 8 * k) with
    | some (u, r, c) => leBytes 8 (s.acc u r c)
    | none => zeros 8)

/-- A host read of device memory: refused on an uncorrectable word, whose address 0x7012.00 then holds (R323). -/
def State.hostRead (s : State) (n : Nat) : State × Nat × Bytes :=
  let a := s.idx 0x7010 0
  if n = 0 then (s, 0, [])
  else if (windowAt a).isSome then (s, 0, s.readWindow a n)
  else
    match s.readMem a n .host 0xFF with
    | (t, d, none) => (t, 0, d)
    | (t, _, some w) => (t.idxSet 0x7012 0 w, 1, [])

/-- Data bytes that an accepted read returns. -/
def State.readSize (s : State) (i sub length : Nat) : Nat :=
  if i = 0x7011 then length
  else if length = 0 then (s.wireValue i sub).length
  else length

/-- One record of a read with `room` bytes left in the reply: state, status and data. -/
def State.readOne (s : State) (block : Bool) (room i sub length : Nat) : State × Nat × Bytes :=
  let st := s.readStatus block i sub length
  if st ≠ 0 then (s, st, [])
  else if room < roundUp (s.readSize i sub length) 4 then (s, 6, [])
  else if i = 0x7011 then s.hostRead length
  else (s, 0, (s.wireValue i sub).take (s.readSize i sub length))

/-- The records of a read, each judged against the room then left. -/
def State.readRecordsFrom (block : Bool) : List IndexRecord → Nat → State → State × List IndexRecord
  | [], _, s => (s, [])
  | r :: rs, room, s =>
    let x := s.readOne block room r.index r.sub r.length
    let rest := State.readRecordsFrom block rs (room - roundUp x.2.2.length 4) x.1
    (rest.1, r.answer x.2.1 x.2.2 :: rest.2)

/-- Bytes that a reply of n records has for data (R339, R340). -/
def replyRoom (n : Nat) : Nat := 9216 - 14 - 4 - 12 - 8 * n

/-- A read access. -/
def State.readAccess (s : State) (block : Bool) (rs : List IndexRecord) : State × List IndexRecord :=
  State.readRecordsFrom block rs (replyRoom rs.length) s

/-! ### Accesses that wait (R96) -/

/-- An access to a window row that an executing command is writing waits. -/
def State.spanBusy (s : State) (a n : Nat) : Bool := (List.range (n / 8)).any (fun k => s.windowBusy (a + 8 * k))

/-- A request meets such a row: its address may be set by an earlier record of the same block write. -/
def State.accessWaits (s : State) (rs : List IndexRecord) : Bool :=
  (rs.foldl (fun (x : Nat × Bool) r =>
    if r.index = 0x7010 && r.data.length = 8 then (beNat r.data, x.2)
    else if r.index = 0x7011 then (x.1, x.2 || State.spanBusy s x.1 r.length)
    else x) (s.idx 0x7010 0, false)).2

/-! ### Requests (R340, R341) -/

/-- The records of a well-formed request; none where it is malformed. The status fields, which only a reply carries, are
reserved in a request (R340; DEDUCED for the header's, log entry 22). -/
def requestRecords (h : IndexHeader) (b : Bytes) : Option (List IndexRecord) :=
  if h.version ≠ 1 || 3 < h.op || h.status ≠ 0 || (h.op < 2 && 2 ≤ h.count) then none
  else match readRecords b (h.op % 2 == 1) h.count 12 with
    | none => none
    | some rs => if rs.any (fun r => r.reserved ≠ 0 || r.status ≠ 0) then none else some rs

/-- The first record status that is not 0x00. -/
def firstStatus (rs : List IndexRecord) : Nat := ((rs.find? (fun r => r.status ≠ 0)).map (·.status)).getD 0

/-- The reply to a request. -/
def State.replyFrame (s : State) (h : IndexHeader) (status : Nat) (rs : List IndexRecord) : Frame :=
  s.indexFrame ⟨1, true, h.op, status, rs.length, h.source, h.destination, h.sequence⟩ rs

/-- Send a reply from a folio of an address: delivered here or out of port C (R341). -/
def State.sendReplyAs (s : State) (own : Nat) (f : Frame) : State :=
  if f.destination = own then { s with switch := { s.switch with replies := s.switch.replies ++ [f] } }
  else (s.enqueue portC f).1

/-- Answer a request: a request to every folio has no reply; the reply to an accepted reinitialization waits for its end
(R281); the reply to a release leaves before the address is cleared (R31). -/
def State.answer (s t : State) (h : IndexHeader) (rs : List IndexRecord) (status : Nat) (out : List IndexRecord) : State :=
  if h.destination = 0xFFFF then t
  else
    let f := s.replyFrame h status out
    if s.switch.reinitSince.isNone && t.switch.reinitSince.isSome then
      { t with switch := { t.switch with reinitReply := some f } }
    else t.sendReplyAs (if status = 0 && rs.any (fun r => h.op % 2 == 1 && r.index == 0x1014) then s.address else t.address) f

/-- Take a request out of the buffer. -/
def State.popRequest (s : State) : State := { s with switch := { s.switch with requests := s.switch.requests.drop 1 } }

/-- Note what an access returned. -/
def State.noteAccess (s : State) (status : Nat) (data : Bytes) : State := { s with lastStatus := status, lastData := data }

/-- Execute the request at the head of the buffer, where its operation is this one or it is malformed. A request to 0x0000
that an addressed folio holds, and a read to every folio, go without a reply (R24, R341). -/
def State.serve (s : State) (op : Nat) : State :=
  match s.switch.requests with
  | [] => s
  | f :: _ =>
    let b := indexBody (s.frameBytes f)
    let h := IndexHeader.decode b
    match requestRecords h b with
    | none => ((s.answer s.popRequest h [] 8 []).freeFrame f).noteAccess 8 []
    | some rs =>
      if h.op ≠ op || s.accessWaits rs then s
      else if h.destination = 0 && s.address ≠ 0 || h.destination = 0xFFFF && op % 2 = 0 then s.popRequest.freeFrame f
      else
        let x := if op % 2 = 1 then s.popRequest.writeAccess (op == opBlockWrite) rs
          else s.popRequest.readAccess (op == opBlockRead) rs
        let st := firstStatus x.2
        ((s.answer x.1 h rs st x.2).freeFrame f).noteAccess st (x.2.flatMap (·.data))

/-- INDEX_READ: a read request returns the value of one entry. -/
def execIndexRead (s : State) : Out := s.ends (if s.served then s.serve opRead else s)

/-- INDEX_WRITE: a write request writes one entry. -/
def execIndexWrite (s : State) : Out := s.ends (if s.served then s.serve opWrite else s)

/-- INDEX_BLOCK_READ: a block read returns the bytes of each entry, record by record. -/
def execIndexBlockRead (s : State) : Out := s.ends (if s.served then s.serve opBlockRead else s)

/-- INDEX_BLOCK_WRITE: a block write applies all of its records in order, or none. -/
def execIndexBlockWrite (s : State) : Out := s.ends (if s.served then s.serve opBlockWrite else s)

/-! ### The commands that make one write -/

/-- A block write of these entries, by whoever sends it. -/
def State.write (s : State) (ws : List (Nat × Nat × Bytes)) : State :=
  let rs := ws.map (fun w => requestRecord w.1 w.2.1 w.2.2.length w.2.2)
  if !s.served || s.accessWaits rs then s
  else
    let x := s.writeAccess true rs
    x.1.noteAccess (firstStatus x.2) []

/-- A block write of one numeric entry of n bytes. -/
def State.writeNumber (s : State) (i sub n v : Nat) : State := s.write [(i, sub, beBytes n v)]

/-- REGISTER_WRITE: any entry. -/
def execRegisterWrite (index : BitVec 16) (sub : BitVec 8) (value : Bytes) (s : State) : Out :=
  s.ends (s.write [(index.toNat, sub.toNat, value)])

/-- ASSIGN_ADDRESS: the three entries of R26. -/
def execAssignAddress (address : BitVec 16) (depth : BitVec 8) (manager : BitVec 16) (s : State) : Out :=
  s.ends (s.write [(0x1002, 0, beBytes 2 address.toNat), (0x1016, 0, beBytes 1 depth.toNat), (0x1011, 0, beBytes 2 manager.toNat)])

/-- FOLIO_RELEASE (R31). -/
def execFolioRelease (value : BitVec 16) (s : State) : Out := s.ends (s.writeNumber 0x1014 0 2 value.toNat)

/-- ROUTE_SLOT_WRITE (R267). -/
def execRouteSlotWrite (slot : Fin 16384) (value : BitVec 64) (s : State) : Out :=
  s.ends (s.writeNumber (0x4400 + slot.val / 256) (slot.val % 256) 8 value.toNat)

/-- The 16 bytes of a MAC operation (Table 11.7). -/
def macBytes (op vid mac port : Nat) : Bytes :=
  beBytes 1 op ++ zeros 1 ++ beBytes 2 vid ++ beBytes 6 mac ++ beBytes 1 port ++ zeros 5

/-- MAC_ADD_STATIC (R270). -/
def execMacAddStatic (vid : BitVec 16) (mac : BitVec 48) (port : BitVec 8) (s : State) : Out :=
  s.ends (s.write [(0x4010, 0, macBytes 1 vid.toNat mac.toNat port.toNat)])

/-- MAC_DELETE (R270). -/
def execMacDelete (vid : BitVec 16) (mac : BitVec 48) (s : State) : Out :=
  s.ends (s.write [(0x4010, 0, macBytes 2 vid.toNat mac.toNat 0)])

/-- MAC_FLUSH_DYNAMIC (R270). -/
def execMacFlushDynamic (port : BitVec 8) (s : State) : Out := s.ends (s.write [(0x4010, 0, macBytes 3 0 0 port.toNat)])

/-- VLAN_OPERATION (R269). -/
def execVlanOperation (vid : BitVec 16) (members untagged : BitVec 160) (s : State) : Out :=
  s.ends (s.write [(0x4014, 0, beBytes 2 vid.toNat ++ zeros 2 ++ beBytes 20 members.toNat ++ beBytes 20 untagged.toNat)])

/-- POLICER_WRITE (R294). -/
def execPolicerWrite (p : PortId) (vc : Fin 4) (bursts : Bool) (value : BitVec 64) (s : State) : Out :=
  s.ends (s.writeNumber ((if bursts then 0x4204 else 0x4200) + vc.val) p 8 value.toNat)

/-- SHAPER_WRITE (R299). -/
def execShaperWrite (p : PortId) (vc : Fin 8) (burst : Bool) (value : BitVec 32) (s : State) : Out :=
  s.ends (s.writeNumber ((if burst then 0x4140 else 0x4138) + vc.val) p 4 value.toNat)

/-- PORT_MODE_WRITE (R327). -/
def execPortModeWrite (p : PortId) (mode : BitVec 8) (s : State) : Out := s.ends (s.writeNumber 0x3001 p 1 mode.toNat)

/-- POOL_REINITIALIZE (R281). -/
def execPoolReinitialize (s : State) : Out := s.ends (s.writeNumber 0x4048 0 1 1)

/-- A pool operation's word (Table 11.7). -/
def poolWord (op n handle : Nat) : Nat := op * 2 ^ 56 + n * 2 ^ 40 + handle

/-- DIAG_ALLOC_ON_DIE (R282). -/
def execDiagAllocOnDie (s : State) : Out := s.ends (s.writeNumber 0xF040 0 8 (poolWord 1 0 0))

/-- DIAG_ALLOC_EXTERNAL (R282). -/
def execDiagAllocExternal (s : State) : Out := s.ends (s.writeNumber 0xF040 0 8 (poolWord 2 0 0))

/-- DIAG_FREE (R282). -/
def execDiagFree (handle : BitVec 32) (s : State) : Out := s.ends (s.writeNumber 0xF040 0 8 (poolWord 3 0 handle.toNat))

/-- DIAG_REF (R282). -/
def execDiagRef (handle : BitVec 32) (n : BitVec 8) (s : State) : Out :=
  s.ends (s.writeNumber 0xF040 0 8 (poolWord 4 n.toNat handle.toNat))

/-- HISTOGRAM_CLEAR (R301). -/
def execHistogramClear (s : State) : Out := s.ends (s.writeNumber 0x4022 0 1 1)

/-- HOST_MEMORY_READ (R323): a block read of 0x7011.00. -/
def execHostMemoryRead (length : Nat) (s : State) : Out :=
  s.ends (if !s.served || s.accessWaits [requestRecord 0x7011 0 length []] then s
    else
      let x := s.readOne true (replyRoom 1) 0x7011 0 length
      x.1.noteAccess x.2.1 x.2.2)

/-- HOST_MEMORY_WRITE (R323): a block write of 0x7011.00. -/
def execHostMemoryWrite (data : Bytes) (s : State) : Out := s.ends (s.write [(0x7011, 0, data)])

/-- STAGING_SIZE_WRITE (R310). -/
def execStagingSizeWrite (gib : BitVec 16) (s : State) : Out := s.ends (s.writeNumber 0x5083 0 2 gib.toNat)

/-- IMAGE_SEGMENT (R195). -/
def execImageSegment (payload : Bytes) (s : State) : Out := s.ends (s.write [(0x5080, 0, payload)])

/-- LOAD (R197). -/
def execLoad (s : State) : Out := s.ends (s.writeNumber 0x5081 0 1 1)

/-- DISCARD (R197). -/
def execDiscard (s : State) : Out := s.ends (s.writeNumber 0x5081 0 1 2)

/-- BINDING_RELEASE (R199). -/
def execBindingRelease (s : State) : Out := s.ends (s.writeNumber 0x5082 0 1 1)

/-- REGION_LOAD (R192). -/
def execRegionLoad (region : Fin 256) (overlay : BitVec 16) (s : State) : Out :=
  s.ends (s.writeNumber 0x5071 region.val 2 overlay.toNat)

/-- STOP_CORE (R182). -/
def execStopCore (c : CoreId) (s : State) : Out := s.ends (s.writeNumber 0x5073 c 1 1)

/-- CONSUMER_INDEX (R186). -/
def execConsumerIndex (c : CoreId) (value : BitVec 64) (s : State) : Out := s.ends (s.writeNumber 0x5066 c 8 value.toNat)

/-- CONTEXT_RESET (R219). -/
def execContextReset (x : CtxId) (s : State) : Out := s.ends (s.writeNumber (0x6110 + x.val / 256) (x.val % 256) 1 1)

/-- CONTEXT_RESTART (R258). -/
def execContextRestart (x : CtxId) (value : BitVec 32) (s : State) : Out :=
  s.ends (s.writeNumber (0x6130 + x.val / 256) (x.val % 256) 4 value.toNat)

/-- RUN_FAIL (R390). -/
def execRunFail (value : BitVec 32) (s : State) : Out := s.ends (s.writeNumber 0x8031 0 4 value.toNat)

/-- STATE_COPY_START (R394). -/
def execStateCopyStart (s : State) : Out := s.ends (s.writeNumber 0x8043 0 1 1)

/-- DIVERGENCE_CLEAR (R383). -/
def execDivergenceClear (s : State) : Out := s.ends (s.writeNumber 0x8024 0 1 1)

/-- SECURITY_LOCK (R354). -/
def execSecurityLock (s : State) : Out := s.ends (s.writeNumber 0xA001 0 1 1)

/-- FIRMWARE_SEGMENT (R406). -/
def execFirmwareSegment (payload : Bytes) (s : State) : Out := s.ends (s.write [(0xA010, 0, payload)])

/-- FIRMWARE_BOOT (R407). -/
def execFirmwareBoot (s : State) : Out := s.ends (s.writeNumber 0xA011 0 1 1)

/-- FIRMWARE_DISCARD (R406). -/
def execFirmwareDiscard (s : State) : Out := s.ends (s.writeNumber 0xA011 0 1 2)

/-- ATTESTATION_NONCE (R417). -/
def execAttestationNonce (nonce : Bytes) (s : State) : Out := s.ends (s.write [(0xA050, 0, nonce)])

/-- DROOP_CLEAR (R435). -/
def execDroopClear (s : State) : Out := s.ends (s.writeNumber 0x9005 0 1 1)

end Sys2Proof.Machine
end

