-- ==== Sys2Proof/Machine/Attach.lean ====
section
/-!
DEFINITION. Sys2Proof/Machine/Attach.lean: attachment of workers by a manager (R25 to R29, R416) and the replies that reach the folio (R341).
-/
namespace Sys2Proof.Machine

/-- The address that R28 gives the folio behind a port; 0 for none (R29). A manager never assigns 0xFFFF (R10). -/
def State.workerAddress (s : State) (p : Nat) : Nat :=
  if s.idx 0x3100 p = 2 then (if s.idx 0x1013 0 = 0xFFFF then 0 else s.idx 0x1013 0)
  else if s.idx 0x1012 0 = 0 then 0
  else s.idx 0x1012 0 ||| p

def State.setAttach (s : State) (p : Nat) (a : Attach) : State := s.setPort p { s.port p with attach := a }

/-- A port on which a manager may run attachment: it feeds a folio and has an address for it, and its discovery interval
is not zero (R25, R29). -/
def State.attaches (s : State) (p : Nat) : Bool := s.feeds p && s.workerAddress p != 0 && s.idx 0x1015 0 != 0

/-- A port on which the manager sends a discovery request now. -/
def State.discovers (s : State) (p : Nat) : Bool :=
  let a := (s.port p).attach
  s.served && s.attaches p && (s.idx 0x1022 p == 1 || s.idx 0x1022 p == 5) && a.step == 0 && decide (a.retryAt ≤ s.clock.stitch)

/-- ATTACH_DISCOVERY: step 1 of R25: read identity and certificate of the folio on the port. -/
def execAttachDiscovery (p : PortId) (s : State) : Out :=
  s.ends (if !s.discovers p then s
    else
      let q := s.indexRequest opBlockRead 0 [requestRecord 0x1001 0 0 [], requestRecord 0x1003 0 0 []]
      (q.1.enqueue p q.2.2).1.setAttach p { Attach.reset with step := 1, since := s.clock.stitch, sequence := q.2.1 })

/-- An attempt ends: it is tried again after the discovery interval, and any slot it took is empty again. -/
def State.attachAgain (s : State) (p : Nat) : State :=
  s.setAttach p { Attach.reset with retryAt := s.clock.stitch + s.idx 0x1015 0 }

/-- The lowest empty route slot that no attachment has taken. -/
def State.emptySlot (s : State) : Option Nat :=
  (List.range routeSlots).find? (fun n => slotPaths (s.routeSlot n) = 0 && !s.slotTaken n)

/-- Steps 3 and 4: the certificate is verified, a slot taken, the address sent. -/
def State.attachVerified (s : State) (p : Nat) (rs : List IndexRecord) : State :=
  let r := rs.getD 0 ⟨0, 0, 0, 0, 0, []⟩
  let c := rs.getD 1 ⟨0, 0, 0, 0, 0, []⟩
  let identity := beNat r.data
  let sound := rs.length = 2 && r.status = 0 && c.status = 0 && r.data.length = 8 &&
    Config.certificateAccepted c.data s.dev.rootKey identity
  if !sound then (s.idxSet 0x1022 p 3).setAttach p Attach.reset
  else
    match s.emptySlot with
    | none => (s.idxSet 0x1022 p 5).attachAgain p
    | some n =>
      let a := s.workerAddress p
      let q := (s.idxSet 0x1021 p identity).indexRequest opBlockWrite 0
        [requestRecord 0x1002 0 2 (beBytes 2 a), requestRecord 0x1016 0 1 (beBytes 1 (s.idx 0x1016 0 + 1)),
          requestRecord 0x1011 0 2 (beBytes 2 s.address)]
      (q.1.enqueue p q.2.2).1.setAttach p ⟨4, some n, a, s.clock.stitch, q.2.1, 0⟩

/-- A route slot with one path. -/
def onePath (address p : Nat) : Nat := address * 2 ^ 48 + 2 ^ 32 + p

/-- Step 5: the worker is attached. Where a slot already holds its address, which the host's choice of addresses should rule
out, that slot stays the one that names it (R30, log entry 39). -/
def State.attachDone (s : State) (p : Nat) : State :=
  let a := (s.port p).attach
  let held := (s.slotFor a.address).isSome
  let s := (s.idxSet 0x1020 p a.address).idxSet 0x1022 p 2
  let s : State := match a.slot with
    | some n => if held then s else s.idxSet (0x4400 + n / 256) (n % 256) (onePath a.address p)
    | none => s
  s.setAttach p Attach.reset

/-- A reply that is the folio's own, to a request of attachment. Where attachment may no longer run on the port (its interval
or its address is now zero, or the folio is no manager now), the attempt ends there (R25, log entry 39). -/
def State.attachReply (s : State) (p : Nat) (h : IndexHeader) (b : Bytes) : State :=
  let a := (s.port p).attach
  let rs := (readRecords b true h.count 12).getD []
  if a.step = 0 || a.sequence ≠ h.sequence then s
  else if !s.attaches p then s.setAttach p Attach.reset
  else if a.step = 1 then s.attachVerified p rs
  else if h.status = 0 then s.attachDone p
  else s.attachAgain p

/-- INDEX_REPLY_RECEIVE: a reply is delivered here or sent up out of port C (R341). A reply to 0x0000 follows R341 too:
an unaddressed folio takes it from any port, and an addressed one sends it out of port C (DEDUCED: R24 speaks of frames
that are delivered or forwarded by lookup, which replies never enter; log entry 39). -/
def execIndexReplyReceive (s : State) : Out :=
  s.ends (match s.switch.replies with
    | [] => s
    | f :: rest =>
      if !s.served then s
      else
        let s := ({ s with switch := { s.switch with replies := rest } } : State).mirrorIngress f 0
        if f.destination ≠ s.address then (s.enqueue portC f).1
        else
          let b := indexBody (s.frameBytes f)
          let h := IndexHeader.decode b
          let data := ((readRecords b true h.count 12).getD []).flatMap (·.data)
          ((s.attachReply f.inPort h b).freeFrame f).noteAccess h.status data)

/-- ATTACH_TIMEOUT: no reply within 64 stitches. -/
def execAttachTimeout (p : PortId) (s : State) : Out :=
  let a := (s.port p).attach
  s.ends (if a.step = 0 || s.clock.stitch < a.since + 64 then s else s.attachAgain p)

end Sys2Proof.Machine
end

