-- ==== Sys2Proof/Machine/Boundary.lean ====
section
/-!
DEFINITION. Sys2Proof/Machine/Boundary.lean: the passing of time and what a stitch boundary brings (R359, R367, R426, R428 to R430), the
thermal throttle and trip.
-/
namespace Sys2Proof.Machine

/-! ### Time that passes -/

/-- A command stands at the head of its queue, not run-ahead, and waits for its claim or its open, or has waited for one and
has not started yet (R120, R127, log entry 44). -/
def State.waitsAdmission (s : State) (c : Cmd) : Bool :=
  c.phase == .queued && !s.heldCmd c && (c.waited || !s.admits c) &&
    !s.cores.cmds.any (fun d => d.core == c.core && d.unit == c.unit && d.phase == .queued && decide (d.order < c.order))

/-- Cycles that the commands held under R120 let pass: counted once for each (0x5034.00), and each is marked until it
starts. -/
def State.elapseAdmission (s : State) (core : Nat) : State :=
  let t := s.count 0x5034 0 (core * (s.cores.cmds.filter s.waitsAdmission).length)
  { t with cores := { t.cores with
      cmds := t.cores.cmds.map (fun c => if s.waitsAdmission c then { c with waited := true } else c) } }

/-- Opens accepted and not yet granted (R128). -/
def State.opensWaited (s : State) : Nat := (s.stash.sets.filter (fun e => e.2.openState == 1)).length

/-- A contribution to slice q waits on an empty external list: a fragment that stalled, a held one of an open step, an emission to
a context that is open, or the next item of a write-out or a CSUB (R240, Table 9.10). -/
def State.waitsLeaves (s : State) (q : Nat) : Bool :=
  s.switch.stalled.any (fun e => e.1 == q && !e.2.1) ||
    s.ctxs.any (fun e => e.2.slice == q && e.2.state == ctxOpen &&
      (!e.2.localWait.isEmpty || e.2.lead.any (fun l => l.sequence == e.2.sequence))) ||
    s.cores.cmds.any (fun c => c.waited && c.started && (c.opcode == 0x51 || c.opcode == 0x21) &&
      (let x := s.ctx (if c.opcode = 0x51 then cfCtx c.word else wfTile c.word)
       x.slice == q && x.state == ctxOpen))

/-- So many FABRIC cycles and so many CORE cycles pass: the waits they add to are counted (Tables 5.3, 7.7, 9.10,
10.6). -/
def State.elapse (s : State) (fabric core : Nat) : State :=
  let s := s.elapseAdmission core
  let s := s.count 0x5041 0 (core * s.opensWaited)
  let s := s.cores.cores.foldl (fun s e =>
    let x := e.2
    let s := if x.run == .running && x.stalled.isSome then State.count s 0x5067 e.1 core else s
    if x.run == .running && decide (32 ≤ x.windowCount) then State.count s 0x5068 e.1 core else s) s
  let s := [0, 1, 2, 3].foldl (fun s q =>
    if State.waitsLeaves s q then State.count s 0x6006 q fabric else s) s
  s.count 0x600A 0 (fabric * (s.switch.stalled.filter (fun e => e.2.1)).length)

/-! ### Sensors (R428) -/

/-- Thresholds in 1/128 °C (0x9022.00). -/
def tripAt : Int := 16000
def throttleAt : Int := 13440
def releaseAt : Int := 12800

/-- One sensor's last valid value. -/
def State.sensor (s : State) (q k : Nat) : Int := fget 0 s.power.sensors (16 * q + k)

/-- Take one quire's conversions, in the 16-bit form that WellFormed asks of them: a sensor without one keeps its last value and
counts a fault. -/
def State.takeReading (s : State) (q : Nat) (r : QuireReading) : State :=
  let got := (List.range 16).map (fun k => r.temps.getD k none)
  let sensors := (List.range 16).foldl (fun m k =>
    match got.getD k none with
    | some t => fset 0 m (16 * q + k) (toSigned 16 (ofSigned 16 t))
    | none => m) s.power.sensors
  let run := if got.all (·.isNone) then fget 0 s.power.invalidRun q + 1 else 0
  let s := s.count 0x9007 0 (got.filter (·.isNone)).length
  { s with power := { s.power with sensors := sensors, invalidRun := fset 0 s.power.invalidRun q run } }

/-- A quire's die temperature: the highest of its sensors, or 125 °C after 8 stitches without a valid one. -/
def State.dieTemp (s : State) (q : Nat) : Int :=
  if 8 ≤ fget 0 s.power.invalidRun q then tripAt
  else (List.range 16).foldl (fun m k => max m (s.sensor q k)) (s.sensor q 0)

/-- Publish a quire's die temperature. -/
def State.publishTemp (s : State) (q : Nat) : State :=
  let t := s.dieTemp q
  let s := s.idxSet 0x9001 q (ofSigned 32 t)
  if toSigned 32 (s.idx 0x9002 q) < t then s.idxSet 0x9002 q (ofSigned 32 t) else s

/-- Publish a quire's droop minimum (R424, Table 20.5). -/
def State.publishDroop (s : State) (q v : Nat) : State :=
  let s := s.idxSet 0x9003 q v
  let s := if v < s.idx 0x9004 q then s.idxSet 0x9004 q v else s
  if v < 6150 then s.count 0x9006 q 1 else s

/-- Temperatures as published. -/
def State.temps (s : State) : List Int := (List.range 4).map (fun q => toSigned 32 (s.idx 0x9001 q))

/-- Publish every quire's readings, and keep the proof unit's sample (R428, R383). -/
def State.publish (s : State) (rs : List QuireReading) : State :=
  let s := (List.range 4).foldl (fun s q =>
    match rs[q]? with
    | none => s
    | some r => ((State.takeReading s q r).publishTemp q).publishDroop q (r.droop % 65536)) s
  { s with power := { s.power with
      history := ((s.temps, (List.range 4).map (fun q => s.idx 0x9003 q)) :: s.power.history).take 64 } }

/-! ### Throttle and trip (R429, R430) -/

/-- The throttle at a boundary: the stitches under a request are counted, runs go on or break, and the request is
raised to 0x01. -/
def State.throttle (s : State) : State :=
  let hot := s.temps.any (fun t => decide (throttleAt ≤ t))
  let cool := s.temps.all (fun t => decide (t < releaseAt))
  let p := s.power
  let req := s.clock.thermalReq
  let s := if req = 1 then s.idxBump 0x9021 0 63 32 1 else if req = 2 then s.idxBump 0x9021 0 31 0 1 else s
  { s with
    power := { s.power with hotRun := if hot then p.hotRun + 1 else 0, coolRun := if cool then p.coolRun + 1 else 0 }
    clock := { s.clock with thermalReq := if req = 0 && hot then 1 else req } }

/-- THROTTLE_ESCALATE: 1,024 stitches at 105 °C or more raise the request from 0x01 to 0x02. -/
def execThrottleEscalate (s : State) : Out :=
  s.ends (if s.clock.thermalReq = 1 && 1024 ≤ s.power.hotRun then { s with clock := { s.clock with thermalReq := 2 } } else s)

/-- THROTTLE_RELEASE: 1,024 stitches below 100 °C lower the request by one step; the next step takes a run of its
own. -/
def execThrottleRelease (s : State) : Out :=
  s.ends (if 1 ≤ s.clock.thermalReq && 1024 ≤ s.power.coolRun then
      { s with clock := { s.clock with thermalReq := s.clock.thermalReq - 1 }, power := { s.power with coolRun := 0 } }
    else s)

/-- The device trips where a quire reads 125 °C or more (R430, steps 1 and 2). -/
def State.tripIfHot (s : State) : State :=
  match (List.range 4).find? (fun q => decide (tripAt ≤ s.temps.getD q 0)) with
  | none => s
  | some q =>
    if s.power.tripped then s
    else
      let s := { s with power := { s.power with tripped := true, tripStitch := s.clock.stitch } }
      let s := s.idxSet 0x9030 0 (2 ^ 63 + q * 2 ^ 61 + s.clock.stitch % 2 ^ 48)
      let s := s.failOwnRun 3 0 (s.broadcastPorts.filter (· ≠ portC) ++ [portC])
      s.drainBegin

/-- SENSOR_FAILSAFE: a quire with no valid sensor for 8 consecutive stitches reads 125 °C (R428), and trips the device
(R430). -/
def execSensorFailsafe (q : QuireId) (s : State) : Out :=
  s.ends (if s.clock.phase ≠ .aligned || fget 0 s.power.invalidRun q < 8 then s else (s.publishTemp q).tripIfHot)

/-! ### The boundary -/

/-- LOAD_NOTICE falls once no start is held and no quire's streaming count passed the level in the stitch just ended
(R426); the next stitch begins with the counts as they stand. -/
def State.noticeFall (s : State) : State :=
  let level := s.idx 0x9010 0
  let above := [0, 1, 2, 3].any (fun q => decide (level < s.streaming q))
  { s with power := { s.power with
      loadNotice := s.power.loadNotice && (!s.power.held.isEmpty || s.power.overLevel), overLevel := above } }

/-- At a boundary each native link knows whether the stitch just ended had no uncorrectable codeword (R331), and the first
boundary after its locks releases its receive crossing with 4 entries in flight (R366). -/
def State.cleanLinks (s : State) : State :=
  (List.range 129).foldl (fun s p =>
    let x := State.port s p
    let lock := State.codewordLock s p && State.markerLock s p
    let y := { x with
      cleanStitch := lock && !x.dirty, dirty := !lock, crossing := if !lock then none else some (x.crossing.getD 4) }
    if y = x then s else State.setPort s p y) s

/-- The next stitch begins: its number, cycle 0, and the mark that opens it on every native port (R329, R367). -/
def State.beginStitch (s : State) : State :=
  let c := s.clock
  let n := (c.stitch + 1) % 2 ^ 64
  let aligned := (c.phase == .aligned || c.phase == .passed) && !c.coasting
  { s with clock := { c with
      base := c.base + s.fabricCycles, stitch := n, cycle := 0, markSent := if c.coasting then c.markSent else buildMark (if aligned then n else 0) aligned
      marksApart := if c.disagreedNow then c.marksApart else 0, disagreedNow := false } }

/-- The same, with the queues as they stand at its cycle 0 (R300). -/
def State.nextStitch (s : State) : State :=
  let s := s.beginStitch
  { s with switch := { s.switch with sample := some s.queueSample } }

/-- The aligned boundary (R363). -/
def State.becomeAligned (s : State) : State := { s with clock := { s.clock with phase := .aligned, alignDone := true } }

/-- What an aligned folio does at a boundary: the waits of the rest of the stitch are counted, the step requested before
takes effect (R359), the stitch number moves on, sensors are published, and throttle, trip and notice follow. -/
def State.boundary (s : State) (rs : List QuireReading) : State :=
  let rest := s.fabricCycles - s.clock.cycle
  let s := if s.power.clocksStopped then s else s.endCycle.elapse rest (s.coreCycles - s.coreCycle)
  let step := s.stepRequested
  let s := { s with clock := { s.clock with step := step } }.nextStitch
  let s := (s.noticeFall.cleanLinks).publish rs
  s.throttle.tripIfHot

/-- STITCH_BOUNDARY: one stitch ends and the next begins. Before the device is aligned, port C's boundaries pace the echo
requests of phase 6 and the check of phase 8 (R363, R365). -/
def execStitchBoundary (readings : List QuireReading) (s : State) : Out :=
  let c := s.clock
  s.ends (match c.phase with
    | .aligned => s.boundary readings
    | .passed => ((s.nextStitch.becomeAligned.cleanLinks).publish readings).throttle.tripIfHot
    | .check => s.nextStitch.cleanLinks
    | .marksAndEcho =>
      { s with clock := { c with
          base := c.base + s.fabricCycles, cycle := 0, echoesOwed := c.echoesOwed - 1, markSent := buildMark 0 false } }.cleanLinks
    | .release =>
      { s with clock := { c with base := c.base + s.fabricCycles, cycle := 0, markSent := buildMark 0 false } }.cleanLinks
    | _ => s)

/-! ### The end of a trip (R430, step 3) -/

/-- Items of a command that have not completed. -/
def Cmd.openItems (c : Cmd) : List Nat :=
  let n := itemCount c.primary
  if c.opcode = 0x21 then
    (if woutIdle c.word c.primary then []
    else if wfDest c.word = 3 then (List.range n).filter (fun i => !c.sentItems.contains i)
    else (List.range n).drop c.next)
  else if c.opcode = 0x61 then (List.range n).filter (fun i => !c.sentItems.contains i)
  else if c.opcode = 0x60 || c.opcode = 0x51 then (List.range n).drop c.next
  else []

/-- End one running command with cause 0x0C: a CSTEP's items end in its context. -/
def State.tripCmd (s : State) (c : Cmd) : State :=
  if c.opcode = 0x50 then
    let n := cfCtx c.word
    let x := s.ctx n
    let x := (List.range x.count).foldl (fun x p =>
      let it := Ctx.item x p
      if it.emitted then x else Ctx.setItem x p { it with finished := true, cause := 0x0C, outstanding := 0 }) x
    (s.setCtx n x).settleCtx n false
  else if hasItems c.opcode then
    let r := c.openItems.foldl (fun (acc : State × Cmd) i => acc.1.itemFailed acc.2 i 0x0C Counts.zero) (s, c)
    r.1.finishCmd r.2 0 0
  else s.finishCmd c 1 0x0C

/-- Records that find their ring full are not stored (R430). -/
def State.dropRecords (s : State) (c : Nat) : State :=
  let x := s.core c
  if x.records.isEmpty then s
  else
    (x.records.foldl (fun s r => State.recordDone s c r.1 r.2.1 r.2.2.1) (s.setCore c { x with records := [] })).colophonFlag 18

/-- TRIP_CLOCK_STOP: the drain is complete, or 1,024 stitches have passed since the trip: running commands end, THERM_TRIP_N
falls and the clocks stop. -/
def execTripClockStop (s : State) : Out :=
  s.ends (if !s.power.tripped || s.power.clocksStopped || (!s.clock.drained && s.clock.stitch < s.power.tripStitch + 1024) then s
    else
      let s := (s.cores.cmds.filter Cmd.started).foldl (fun s c => State.tripCmd s c) s
      let s := (List.range 32).foldl (fun s c =>
        State.dropRecords (State.writeRecords s c (State.core s c).records.length) c) s
      { s with power := { s.power with thermTripN := false, clocksStopped := true } })

/-- CORE_RAILS_REMOVED: the board takes the core and SRAM rails away once the clocks have stopped (R430). -/
def execCoreRailsRemoved (s : State) : Out :=
  s.ends (if s.power.clocksStopped then { s with power := { s.power with railsAbsent := true } } else s)

end Sys2Proof.Machine
end

