-- ==== Sys2Proof/Machine/IdxInstr.lean ====
section
/-!
DEFINITION. Sys2Proof/Machine/IdxInstr.lean: the instructions by which a binding reaches the Index and the CORE step (R149, R345, R346, R349,
R410, R427).
-/
namespace Sys2Proof.Machine

/-- The entry that an IDXR or IDXW names: index and subindex. -/
def wEntry (w : Nat) : Nat × Nat := (bits (wAux w) 23 8, bits (wAux w) 7 0)

/-- What IDXR reads; none where it is refused (Tables 15.2 and 15.3). -/
def State.coreRead (s : State) (i sub : Nat) : Option Nat :=
  match entryOf i sub with
  | none => none
  | some e =>
    if e.type.isBytes || e.access == .wo || !s.answers i then none
    else some (s.entryValue i sub % 256 ^ e.type.size)

/-- IDXR: rd = the entry, rb = 0; refused: rb = 1. The status is written last. Requests that have landed go first (R349). -/
def execIdxr (c : CoreId) (s : State) : Out :=
  s.ends (s.onInstr c 0x0F true (fun t w =>
    t.orHalt c w 0 0xFFFFFFFF (controlReserved w none) (fun t =>
      if !t.switch.requests.isEmpty then s
      else
        let r := t.coreRead (wEntry w).1 (wEntry w).2
        let x := t.core c
        let x := match r with
          | some v => x.setReg (wRd w) v
          | none => x
        (t.setCore c x).setRegGo c w (wRb w) (b2n r.isNone))))

/-- A value of a register as an entry's bytes; none where Table 15.2 refuses it. -/
def coreBytes (t : EType) (v : Nat) : Option Bytes :=
  match t with
  | .domain => none
  | .text => none
  | .i32 => if bits v 63 32 = (if bit v 31 then 0xFFFFFFFF else 0) then some (beBytes 4 v) else none
  | .boolean => if v ≤ 1 then some (beBytes 1 v) else none
  | t => if v < 256 ^ t.size then some (beBytes t.size v) else none

/-- The bytes of an IDXW that is accepted. -/
def State.coreWrite (s : State) (i sub v : Nat) : Option Bytes :=
  match entryOf i sub with
  | none => none
  | some e =>
    if e.access == .rwi then none
    else match coreBytes e.type v with
      | none => none
      | some d => if s.writeStatus s false [(i, sub)] i sub d = 0 then some d else none

/-- A principal control instruction on a subordinate core (R138), then what R15 reserves. -/
def principalHalt (c w : Nat) (bad : Option Nat) : Option Halt :=
  firstHalt [haltIf (!principal c) (halt 0x0C 0), controlReserved w bad]

/-- IDXW: writes ra to the entry; rd = 0 where it is accepted, 1 where it is refused. Requests that have landed go first
(R349). -/
def execIdxw (c : CoreId) (s : State) : Out :=
  s.ends (s.onInstr c 0x10 true (fun t w =>
    t.orHalt c w 0 0xFFFFFFFF (principalHalt c w none) (fun t =>
      if !t.switch.requests.isEmpty then s
      else
        let i := (wEntry w).1
        let sub := (wEntry w).2
        match t.coreWrite i sub ((t.core c).reg (wRa w)) with
        | none => t.setRegGo c w (wRd w) 1
        | some d => (t.setRegGo c w (wRd w) 0).applyWrite i sub d)))

/-- PSTATE: requests a CORE step, which takes effect at the next boundary; only while firmware runs. -/
def execPstate (c : CoreId) (s : State) : Out :=
  s.ends (s.onInstr c 0x11 true (fun s w =>
    s.orHalt c w 0 0xFFFFFFFF (principalHalt c w (reservedValue (decide (wSub w > 2)) 97)) (fun s =>
      let s := if s.firmwareRunning then { s with clock := { s.clock with bindingReq := wSub w } } else s
      s.advance c w (s.nextPc c) none)))

end Sys2Proof.Machine
end

