-- ==== Sys2Proof/Machine/Dispatch.lean ====
section
/-!
DEFINITION. Sys2Proof/Machine/Dispatch.lean: one arm per command.
-/
namespace Sys2Proof.Machine

-- The effect of a command on everything but the queue.
def exec (i : Instr) (s : State) : Host.Outcome State Fault Refusal :=
  match i with
  | .resetAssert => Sys2Proof.Machine.execResetAssert s
  | .resetRelease => Sys2Proof.Machine.execResetRelease s
  | .signalDetect => Sys2Proof.Machine.execSignalDetect s
  | .clockRecoveryLock cycles => Sys2Proof.Machine.execClockRecoveryLock cycles s
  | .oscillatorStable cycles => Sys2Proof.Machine.execOscillatorStable cycles s
  | .referenceLock cycles => Sys2Proof.Machine.execReferenceLock cycles s
  | .domainLock cycles => Sys2Proof.Machine.execDomainLock cycles s
  | .markerLock p lane inPlace mark => Sys2Proof.Machine.execMarkerLock p lane inPlace mark s
  | .stitchMarkReceive mark spacing => Sys2Proof.Machine.execStitchMarkReceive mark spacing s
  | .echoRequestReceive p => Sys2Proof.Machine.execEchoRequestReceive p s
  | .echoReplySend p => Sys2Proof.Machine.execEchoReplySend p s
  | .echoReplyReceive roundTrip => Sys2Proof.Machine.execEchoReplyReceive roundTrip s
  | .releaseBoundary cycles => Sys2Proof.Machine.execReleaseBoundary cycles s
  | .alignmentCheckEnd depthsHeld => Sys2Proof.Machine.execAlignmentCheckEnd depthsHeld s
  | .stitchBoundary readings => Sys2Proof.Machine.execStitchBoundary readings s
  | .throttleEscalate => Sys2Proof.Machine.execThrottleEscalate s
  | .throttleRelease => Sys2Proof.Machine.execThrottleRelease s
  | .sensorFailsafe q => Sys2Proof.Machine.execSensorFailsafe q s
  | .tripClockStop => Sys2Proof.Machine.execTripClockStop s
  | .referenceLoss cause => Sys2Proof.Machine.execReferenceLoss cause s
  | .drainComplete => Sys2Proof.Machine.execDrainComplete s
  | .signalReturn => Sys2Proof.Machine.execSignalReturn s
  | .linkUp p => Sys2Proof.Machine.execLinkUp p s
  | .linkDown p => Sys2Proof.Machine.execLinkDown p s
  | .uncorrectableCodeword p stitch index => Sys2Proof.Machine.execUncorrectableCodeword p stitch index s
  | .retryControlBlock p stitch index => Sys2Proof.Machine.execRetryControlBlock p stitch index s
  | .retryTimeout p => Sys2Proof.Machine.execRetryTimeout p s
  | .creditFrameSend p => Sys2Proof.Machine.execCreditFrameSend p s
  | .creditFrameReceive p body => Sys2Proof.Machine.execCreditFrameReceive p body s
  | .frameLand p frame => Sys2Proof.Machine.execFrameLand p frame s
  | .lookup p => Sys2Proof.Machine.execLookup p s
  | .egressSelect p => Sys2Proof.Machine.execEgressSelect p s
  | .wheelSlot p => Sys2Proof.Machine.execWheelSlot p s
  | .frameTransmitted p => Sys2Proof.Machine.execFrameTransmitted p s
  | .macAging vid mac => Sys2Proof.Machine.execMacAging vid mac s
  | .queueSample => Sys2Proof.Machine.execQueueSample s
  | .scrubRead address => Sys2Proof.Machine.execScrubRead address s
  | .indexRead => Sys2Proof.Machine.execIndexRead s
  | .indexWrite => Sys2Proof.Machine.execIndexWrite s
  | .indexBlockRead => Sys2Proof.Machine.execIndexBlockRead s
  | .indexBlockWrite => Sys2Proof.Machine.execIndexBlockWrite s
  | .indexReplyReceive => Sys2Proof.Machine.execIndexReplyReceive s
  | .registerWrite index sub value => Sys2Proof.Machine.execRegisterWrite index sub value s
  | .assignAddress address depth manager => Sys2Proof.Machine.execAssignAddress address depth manager s
  | .folioRelease value => Sys2Proof.Machine.execFolioRelease value s
  | .attachDiscovery p => Sys2Proof.Machine.execAttachDiscovery p s
  | .attachTimeout p => Sys2Proof.Machine.execAttachTimeout p s
  | .routeSlotWrite slot value => Sys2Proof.Machine.execRouteSlotWrite slot value s
  | .macAddStatic vid mac port => Sys2Proof.Machine.execMacAddStatic vid mac port s
  | .macDelete vid mac => Sys2Proof.Machine.execMacDelete vid mac s
  | .macFlushDynamic port => Sys2Proof.Machine.execMacFlushDynamic port s
  | .vlanOperation vid members untagged => Sys2Proof.Machine.execVlanOperation vid members untagged s
  | .policerWrite p vc bursts value => Sys2Proof.Machine.execPolicerWrite p vc bursts value s
  | .shaperWrite p vc burst value => Sys2Proof.Machine.execShaperWrite p vc burst value s
  | .portModeWrite p mode => Sys2Proof.Machine.execPortModeWrite p mode s
  | .poolReinitialize => Sys2Proof.Machine.execPoolReinitialize s
  | .poolReinitDrainEnd => Sys2Proof.Machine.execPoolReinitDrainEnd s
  | .diagAllocOnDie => Sys2Proof.Machine.execDiagAllocOnDie s
  | .diagAllocExternal => Sys2Proof.Machine.execDiagAllocExternal s
  | .diagFree handle => Sys2Proof.Machine.execDiagFree handle s
  | .diagRef handle n => Sys2Proof.Machine.execDiagRef handle n s
  | .histogramClear => Sys2Proof.Machine.execHistogramClear s
  | .hostMemoryRead length => Sys2Proof.Machine.execHostMemoryRead length s
  | .hostMemoryWrite data => Sys2Proof.Machine.execHostMemoryWrite data s
  | .stagingSizeWrite gib => Sys2Proof.Machine.execStagingSizeWrite gib s
  | .imageSegment payload => Sys2Proof.Machine.execImageSegment payload s
  | .load => Sys2Proof.Machine.execLoad s
  | .discard => Sys2Proof.Machine.execDiscard s
  | .coresStart => Sys2Proof.Machine.execCoresStart s
  | .bindingRelease => Sys2Proof.Machine.execBindingRelease s
  | .releaseComplete => Sys2Proof.Machine.execReleaseComplete s
  | .regionLoad region overlay => Sys2Proof.Machine.execRegionLoad region overlay s
  | .overlayLoadDone region => Sys2Proof.Machine.execOverlayLoadDone region s
  | .stopCore c => Sys2Proof.Machine.execStopCore c s
  | .consumerIndex c value => Sys2Proof.Machine.execConsumerIndex c value s
  | .contextReset x => Sys2Proof.Machine.execContextReset x s
  | .contextRestart x value => Sys2Proof.Machine.execContextRestart x value s
  | .runFail value => Sys2Proof.Machine.execRunFail value s
  | .stateCopyStart => Sys2Proof.Machine.execStateCopyStart s
  | .divergenceClear => Sys2Proof.Machine.execDivergenceClear s
  | .securityLock => Sys2Proof.Machine.execSecurityLock s
  | .firmwareSegment payload => Sys2Proof.Machine.execFirmwareSegment payload s
  | .firmwareBoot => Sys2Proof.Machine.execFirmwareBoot s
  | .firmwareDiscard => Sys2Proof.Machine.execFirmwareDiscard s
  | .bootChecksDecided => Sys2Proof.Machine.execBootChecksDecided s
  | .firmwareDigestDone => Sys2Proof.Machine.execFirmwareDigestDone s
  | .signatureCheckDone => Sys2Proof.Machine.execSignatureCheckDone s
  | .firmwareStart => Sys2Proof.Machine.execFirmwareStart s
  | .firmwareHalt reason => Sys2Proof.Machine.execFirmwareHalt reason s
  | .attestationNonce nonce => Sys2Proof.Machine.execAttestationNonce nonce s
  | .reportReady => Sys2Proof.Machine.execReportReady s
  | .droopClear => Sys2Proof.Machine.execDroopClear s
  | .nop c => Sys2Proof.Machine.execNop c s
  | .endCore c => Sys2Proof.Machine.execEndCore c s
  | .jmp c => Sys2Proof.Machine.execJmp c s
  | .br c => Sys2Proof.Machine.execBr c s
  | .sop c => Sys2Proof.Machine.execSop c s
  | .ldi c => Sys2Proof.Machine.execLdi c s
  | .lds c => Sys2Proof.Machine.execLds c s
  | .sts c => Sys2Proof.Machine.execSts c s
  | .ldd c => Sys2Proof.Machine.execLdd c s
  | .setd c => Sys2Proof.Machine.execSetd c s
  | .rdq c => Sys2Proof.Machine.execRdq c s
  | .sync c => Sys2Proof.Machine.execSync c s
  | .sig c => Sys2Proof.Machine.execSig c s
  | .waitc c => Sys2Proof.Machine.execWaitc c s
  | .waitst c => Sys2Proof.Machine.execWaitst c s
  | .idxr c => Sys2Proof.Machine.execIdxr c s
  | .idxw c => Sys2Proof.Machine.execIdxw c s
  | .pstate c => Sys2Proof.Machine.execPstate c s
  | .prod c => Sys2Proof.Machine.execProd c s
  | .wout c => Sys2Proof.Machine.execWout c s
  | .vop c => Sys2Proof.Machine.execVop c s
  | .vred c => Sys2Proof.Machine.execVred c s
  | .claim c => Sys2Proof.Machine.execClaim c s
  | .rel c => Sys2Proof.Machine.execRel c s
  | .openSet c => Sys2Proof.Machine.execOpenSet c s
  | .pub c => Sys2Proof.Machine.execPub c s
  | .cstep c => Sys2Proof.Machine.execCstep c s
  | .csub c => Sys2Proof.Machine.execCsub c s
  | .copy c => Sys2Proof.Machine.execCopy c s
  | .fsend c => Sys2Proof.Machine.execFsend c s
  | .syncPointCommit c => Sys2Proof.Machine.execSyncPointCommit c s
  | .queueStallRelease c => Sys2Proof.Machine.execQueueStallRelease c s
  | .sigApply c => Sys2Proof.Machine.execSigApply c s
  | .commandStart u => Sys2Proof.Machine.execCommandStart u s
  | .noticeExpiry => Sys2Proof.Machine.execNoticeExpiry s
  | .passSwap u => Sys2Proof.Machine.execPassSwap u s
  | .woutItem u => Sys2Proof.Machine.execWoutItem u s
  | .commandComplete c serial => Sys2Proof.Machine.execCommandComplete c serial s
  | .completionRecordWrite c => Sys2Proof.Machine.execCompletionRecordWrite c s
  | .claimGrant microBatch => Sys2Proof.Machine.execClaimGrant microBatch s
  | .releaseEffect microBatch => Sys2Proof.Machine.execReleaseEffect microBatch s
  | .openGrant set => Sys2Proof.Machine.execOpenGrant set s
  | .publishEffect set => Sys2Proof.Machine.execPublishEffect set s
  | .cstepStart x => Sys2Proof.Machine.execCstepStart x s
  | .fragmentArrive q => Sys2Proof.Machine.execFragmentArrive q s
  | .stepDeadline x => Sys2Proof.Machine.execStepDeadline x s
  | .spillRetry q => Sys2Proof.Machine.execSpillRetry q s
  | .leadRetry q => Sys2Proof.Machine.execLeadRetry q s
  | .digestSend => Sys2Proof.Machine.execDigestSend s
  | .digestReceive => Sys2Proof.Machine.execDigestReceive s
  | .lagExpiry core serial item => Sys2Proof.Machine.execLagExpiry core serial item s
  | .streamLost => Sys2Proof.Machine.execStreamLost s
  | .copyBlockSend => Sys2Proof.Machine.execCopyBlockSend s
  | .copyRecordApply => Sys2Proof.Machine.execCopyRecordApply s
  | .switchRecordApply => Sys2Proof.Machine.execSwitchRecordApply s
  | .shadowCoresStart => Sys2Proof.Machine.execShadowCoresStart s
  | .stepJudgement => Sys2Proof.Machine.execStepJudgement s
  | .promotionNotice => Sys2Proof.Machine.execPromotionNotice s
  | .handoverConfirmation => Sys2Proof.Machine.execHandoverConfirmation s
  | .codewordLock p lane held => Sys2Proof.Machine.execCodewordLock p lane held s
  | .replayArrival p stitch index => Sys2Proof.Machine.execReplayArrival p stitch index s
  | .illegalOpcode c => Sys2Proof.Machine.execIllegalOpcode c s
  | .uncorrectableInstructionFetch c => Sys2Proof.Machine.execUncorrectableInstructionFetch c s
  | .coreRailsRemoved => Sys2Proof.Machine.execCoreRailsRemoved s

end Sys2Proof.Machine
end

