-- ==== Sys2Proof/Machine/Tick.lean ====
section
/-!
DEFINITION. Sys2Proof/Machine/Tick.lean: what an empty queue lets happen: one FABRIC cycle passes.
-/
namespace Sys2Proof.Machine

/-- The next cycle of the running stitch. -/
def State.nextCycle (s : State) : State := { s with clock := { s.clock with cycle := s.clock.cycle + 1 } }

/-- The Collator ends its cycle (R215), the waits that one FABRIC cycle adds to are counted, and held landings are tried
again (R274). -/
def State.cyclePasses (s : State) : State :=
  let t := s.endCycle.nextCycle
  (t.elapse 1 (t.coreCycle - s.coreCycle)).retryLanding

/-- One FABRIC cycle passes within the stitch; the boundary itself is the command STITCH_BOUNDARY (DESIGN CHOICE,
log entry 1). The clocks stand still while the device is in its power-up state, while lane 0 of port C carries no signal yet,
or once they are stopped (R2, R362, R430). -/
def tick (s : State) : State :=
  if s.dark || s.power.clocksStopped || s.fabricCycles ≤ s.clock.cycle + 1 then s
  else if s.clock.phase = .aligned then s.cyclePasses
  else s.nextCycle

end Sys2Proof.Machine
end

