-- ==== Sys2Proof/Safety.lean ====
section
/-!
DEFINITION. Sys2Proof/Safety.lean: the terms in which claims about the block are stated: the canonical forms of its sparse
stores, the legal states of its pins, its start-up and its boot checks, and what it means for a core to take an instruction.
-/
namespace Sys2Proof

open Sys2Proof.Machine

/-! ### Canonical forms -/

/-- Every sparse store of the memory is in its one canonical form: rising keys, and no entry equal to what an unlisted key
reads as. -/
def Memory.wf (m : Memory) : Bool :=
  fwf 0 m.cells && fwf 0 m.errors && fwf 0 m.leafErrors && fwf 0x400000000 m.accumulators && fwf false m.poison

/-- The Index store's canonical form: its default depends on the entry. -/
def indexWf (m : FMap Nat) : Bool :=
  decide ((m.map Prod.fst).Pairwise (· < ·)) && m.all (fun e => e.2 != resetOf e.1)

/-- The stores of the folio are canonical: memory, ports, Collator contexts, DOMAIN entries and the Index store. -/
abbrev Canonical (s : State) : Prop :=
  Memory.wf s.mem = true ∧ fwf Port.reset s.ports = true ∧ fwf Ctx.reset s.ctxs = true ∧ fwf [] s.domains = true ∧
    indexWf s.index = true

/-! ### Legal states -/

/-- The pins and the start-up phase agree (R362, R363, R368, R427, R430): RESET_N is low exactly in the power-up state,
ALIGN_DONE is high exactly while the device is aligned and does not coast, THERM_TRIP_N is low exactly while the clocks are
stopped, which only a trip does, the rails are taken away only then, and a request names one of the three CORE steps. -/
abbrev PinsLegal (s : State) : Prop :=
  (s.clock.resetN = false ↔ s.clock.phase = .held) ∧
  (s.clock.alignDone = true ↔ s.clock.phase = .aligned ∧ s.clock.coasting = false) ∧
  (s.clock.coasting = true → s.clock.phase = .aligned) ∧
  (s.power.thermTripN = false ↔ s.power.clocksStopped = true) ∧
  (s.power.clocksStopped = true → s.power.tripped = true) ∧
  (s.power.railsAbsent = true → s.power.clocksStopped = true) ∧
  s.clock.step ≤ 2 ∧ s.clock.bindingReq ≤ 2 ∧ s.clock.thermalReq ≤ 2 ∧ s.clock.cycle < 12800

/-- The stored temperatures are 16-bit conversions in 1/128 °C (R428). -/
abbrev SensorsLegal (s : State) : Prop := ∀ e ∈ s.power.sensors, -32768 ≤ e.2 ∧ e.2 ≤ 32767

/-- The boot state is one of Table 19.2, its checks run exactly while it is `checking`, the running half is one of two, and
firmware that runs has run (R406 to R408, R417). -/
abbrev BootLegal (s : State) : Prop :=
  s.boot.state ≤ 4 ∧ s.boot.stage ≤ 4 ∧ (s.boot.stage ≠ 0 ↔ s.boot.state = 1) ∧ s.boot.runningHalf ≤ 1 ∧
    s.boot.reportState ≤ 2 ∧ (s.boot.reportDue ≠ 0 → s.boot.reportState = 1)

/-! ### When a command has its plain effect -/

/-- The folio serves the Index and its core rails are present (R349, R412, R430). -/
abbrev Serves (s : State) : Prop := s.served = true ∧ s.power.railsAbsent = false

/-- No command waits or runs on the cores and no Collator context is bound. -/
abbrev Quiet (s : State) : Prop := s.cores.cmds = [] ∧ s.ctxs = []

/-- Every Collator context is still: no step of its own is under way and no emission waits for it. -/
abbrev Still (s : State) : Prop := ∀ e ∈ s.ctxs, e.2.localWait = [] ∧ e.2.stepCmd = none

/-- Every context but n is still, and no emission waits for n either. -/
abbrev StillBut (n : Nat) (s : State) : Prop := ∀ e ∈ s.ctxs, e.2.localWait = [] ∧ (e.1 ≠ n → e.2.stepCmd = none)

/-- Context n, in state y, is the only one bound, and its open step, which command k opened, has one item: unfinished, with no
emission of its own or under way. The core of k keeps no completion ring, and the folio is in no pair. -/
abbrev Lone (n : Nat) (y : Ctx) (k : Cmd) (s : State) : Prop :=
  s.ctxs = [(n, y)] ∧ y.declared = true ∧ y.state = ctxOpen ∧ y.stepCmd = some (k.core, k.serial) ∧ y.count = 1 ∧
    (y.item 0).finished = false ∧ (y.item 0).emitted = false ∧ (y.item 0).ripe = false ∧ (y.item 0).struck = none ∧
    (y.item 0).outstanding = 0 ∧ (∀ i ∈ y.program, pOp i ≠ 0x0D) ∧ y.lead = [] ∧ s.cmd k.core k.serial = some k ∧
    k.phase = .running ∧ (s.core k.core).ringSize = 0 ∧ (s.core k.core).records = [] ∧ s.paired = false

/-- No stored word of device memory carries an error. -/
abbrev Sound (s : State) : Prop := s.mem.errors = []

/-- The domain clocks keep the limits of R360, so that nothing that crosses between them is lost (R361). -/
abbrev InLimits (s : State) : Prop := s.outside = false

/-- No mirror session captures (R286). -/
abbrev NoMirror (s : State) : Prop := ∀ m, m < 4 → bit (s.mirrorControl m) 31 = false

/-- The proof link takes a frame on VC6 (R328, R368, R381). -/
abbrev ProofLinkOpen (s : State) : Prop :=
  (s.port s.proofPort).up = true ∧ s.clock.coasting = false ∧ s.mode s.proofPort ≠ 4 ∧ (s.port s.proofPort).closed 6 = false ∧
    fwf Queue.reset (s.port s.proofPort).queues = true

/-! ### Fragments of a context -/

/-- Fragment f of slice q is on time for context n, in state y, and brings contribution b: the step is open, the fragment's sequence
is its own, and no item waits to be emitted (Table 10.2). -/
abbrev OnTime (n : Nat) (y : Ctx) (q : Nat) (f : Frame) (b : Contribution) (u : State) : Prop :=
  u.groupCtx f.group = some n ∧ y.state = ctxOpen ∧ y.stepCmd.isSome = true ∧ y.memberFailed = false ∧ u.runFailed = false ∧
    y.sealed = false ∧ subMod 32 (u.readFragment q f).2.1.sequence y.current = 0 ∧
    b = contributionOf (u.readFragment q f).2.1 (u.readFragment q f).2.2.1 (u.readFragment q f).2.2.2 (landingOf f)
      (crc32c (u.readFragment q f).2.2.1 == (u.readFragment q f).2.1.check) ∧
    fwf Item.fresh y.items = true ∧ ∀ k, k < y.count → (y.item k).finished = true → (y.item k).outstanding = 0 → (y.item k).emitted = true

/-- Contribution b is sound for the unfinished item it of the step that context state y runs, and does not complete it (Table 9.2,
R214). -/
abbrev Adds (y : Ctx) (it : Item) (b : Contribution) (now : Nat) : Prop :=
  b.position < y.count ∧ it.finished = false ∧ it.emitted = false ∧ y.faultOf it b false = none ∧
    y.itemDone (y.absorbInto it b now) = false

/-- Fragment f of slice q is ahead of context n, which is idle in state y, and its k lead leaves are to be had (R250, R251). -/
abbrev Ahead (n : Nat) (y : Ctx) (q : Nat) (f : Frame) (k : Nat) (u : State) : Prop :=
  u.groupCtx f.group = some n ∧ y.state = ctxIdle ∧ y.memberFailed = false ∧ u.runFailed = false ∧
    subMod 32 (u.readFragment q f).2.1.sequence y.current < 2 ^ 31 ∧ k = max 1 (ceilDiv (u.readFragment q f).2.2.1.length 256) ∧
    u.leadLeaves + k ≤ u.idx 0x6008 0 ∧ k ≤ u.freeCount true ∧ u.switch.external.fresh ≤ u.switch.externalSize

/-- What a context holds of an ahead fragment of slice q in lead leaves hs (R251). -/
def leadOf (q : Nat) (f : Frame) (hs : List Nat) (u : State) : Lead :=
  ⟨(u.readFragment q f).2.1.sequence, !(crc32c (u.readFragment q f).2.2.1 == (u.readFragment q f).2.1.check), hs,
    { f with bytes := [], handles := [] }, (u.readFragment q f).2.1.encode⟩

/-! ### Links -/

/-- Port C's link takes a reply: up, not squelched, and no compatibility mode (R328, R331, R368). -/
abbrev RepliesLeave (s : State) : Prop :=
  (s.port portC).up = true ∧ s.clock.coasting = false ∧ s.mode portC ≠ 4 ∧ fwf Queue.reset (s.port portC).queues = true

/-- An entry whose writes have no behaviour of their own: it takes its value and no more (R351). -/
abbrev Plain (i : Nat) (sub : Nat) : Prop :=
  i ∉ [0x1014, 0x3001, 0x3100, 0x4022, 0x4048, 0x5066, 0x5071, 0x5073, 0x5081, 0x5082, 0x5083, 0x8010, 0x8024, 0x8031, 0x8043,
    0x9005, 0xA001, 0xA011, 0xF040] ∧
  ¬ (0x4080 ≤ i ∧ i ≤ 0x4083 ∧ (sub = 2 ∨ sub = 4)) ∧ ¬ (0x4138 ≤ i ∧ i ≤ 0x4147) ∧ ¬ (0x4200 ≤ i ∧ i ≤ 0x4207) ∧
  ¬ (0x6110 ≤ i ∧ i ≤ 0x611F) ∧ ¬ (0x6130 ≤ i ∧ i ≤ 0x614F)

/-! ### What a command leaves alone -/

/-- A core takes the instruction word w from its program counter, and f is the state once the word is read (R177, R189, R190);
the reserved bit of Table 6.4 is zero. -/
abbrev Takes (s : State) (c op w : Nat) (f : State) : Prop :=
  s.fetches c = true ∧ (s.core c).inRegions (s.core c).pc = true ∧ s.fetchWord c = (f, w, false) ∧ wOp w = op ∧ bit w 96 = false

/-- Between f and t nothing changes but the record of core c. -/
def OnlyCore (c : Nat) (f t : State) : Prop :=
  t = { f with cores := { f.cores with cores := t.cores.cores } } ∧ ∀ k, k ≠ c → t.core k = f.core k

/-- Core c goes on at pc after the instruction word w: of its record only registers, descriptors, recorded SIGs, fetch references and
the window may differ, and the window grows by this instruction where it stands behind a synchronization point (R177). -/
def GoesOn (c pc w : Nat) (s t : State) : Prop :=
  t.core c = { s.core c with
    pc := pc, regs := (t.core c).regs, descs := (t.core c).descs, sigs := (t.core c).sigs, refs := (t.core c).refs,
    window := if (s.core c).window.isEmpty then [] else (s.core c).window ++ [⟨(s.core c).pc, none, (s.core c).serial, w⟩] }

/-- Core c has register r at v, register 0 at zero and every other one as it was (R144). -/
def RegSet (c r v : Nat) (s t : State) : Prop :=
  (t.core c).reg 0 = 0 ∧ (r ≠ 0 → (t.core c).reg r = v) ∧ ∀ k, k ≠ r → (t.core c).reg k = (s.core c).reg k

/-- Core c waits at a new synchronization point of its window (R177). -/
def Points (c w : Nat) (k : SyncKind) (s t : State) : Prop :=
  t.core c = { s.core c with
    pc := (s.core c).pc + 1, refs := (t.core c).refs, syncIssued := (s.core c).syncIssued + 1,
    window := (s.core c).window ++ [⟨(s.core c).pc, some k, (s.core c).serial, w⟩] }

/-- Core c issues command k by the instruction word w: k enters the queues with the core's serial, its synchronization points and its
order, the core goes on behind it, and nothing else changes (R142, R177). -/
def Issues (c w : Nat) (k : Cmd) (s t : State) : Prop :=
  t = { s with cores := { s.cores with
    cores := t.cores.cores
    cmds := s.cores.cmds ++ [{ k with serial := (s.core c).serial, behind := (s.core c).syncIssued, order := s.cores.nextOrder }]
    nextOrder := s.cores.nextOrder + 1 } } ∧
  (∀ j, j ≠ c → t.core j = s.core j) ∧
  t.core c = { s.core c with
    pc := (s.core c).pc + 1, serial := (s.core c).serial + 1, stalled := none, refs := (t.core c).refs,
    window := if (s.core c).window.isEmpty then [] else (s.core c).window ++ [⟨(s.core c).pc, none, (s.core c).serial + 1, w⟩] }

/-- Every command of a core and serial is done. -/
def Done (c n : Nat) (s : State) : Prop := ∀ k ∈ s.cores.cmds, k.core = c → k.serial = n → k.phase = .done

/-- Core c has halted with a reason and a detail word, its program counter and registers as they were, its window empty (R181). -/
def Halts (c reason detail : Nat) (s t : State) : Prop :=
  (t.core c).run = .halted ∧ bits ((t.core c).halt.getD 0 0) 63 56 = reason ∧ (t.core c).halt.getD 3 0 = detail ∧
    (t.core c).pc = (s.core c).pc ∧ (t.core c).regs = (s.core c).regs ∧ (t.core c).window = [] ∧ (t.core c).stalled = none

end Sys2Proof
end

