-- ==== Sys2Proof/Certificates/Slice0/Obligations.lean ====
section
/-!
DEFINITION. Sys2Proof/Certificates/Slice0/Obligations.lean: the statements about the block, for the provers.
-/
open Sys2Proof Sys2Proof.Machine

/-! ### The queue, reset, invariants -/

/-- A step takes the command at the front of the queue and runs it with the queue's rest. The readings it follows: log entry 34.
-/
def Obligations.StepRunsTheFrontOfTheQueue : Prop :=
  ∀ (c : Instr) (rest : List Instr) (s : State), step { s with pending := c :: rest } = exec c { s with pending := rest }

/-- Every command answers a next state, and no command touches the queue or what fuses and ROM hold. -/
def Obligations.EveryCommandAnswers : Prop :=
  ∀ (c : Instr) (s : State), ∃ t, exec c s = .next t ∧ t.pending = s.pending ∧ t.dev = s.dev

/-- Right after reset the sparse stores are canonical, and pins, temperatures and boot state are legal. -/
def Obligations.ResetIsLegal : Prop := Canonical State.reset ∧ PinsLegal State.reset ∧ SensorsLegal State.reset ∧
  BootLegal State.reset

/-- Every step keeps the canonical form of every sparse store (memory, error patterns, accumulators, poison, ports, contexts,
DOMAIN entries, the Index store). -/
def Obligations.StepKeepsCanonicalForm : Prop := ∀ s t : State, Canonical s → step s = .next t → Canonical t

/-- Every step keeps the pins and the start-up phase in agreement (R362, R363, R368, R430). Every step keeps the stored
temperatures in the sensors' 16-bit form (R428). Every step keeps the boot state legal (R406 to R408, R417). -/
def Obligations.StepKeepsLegalStates : Prop :=
  (∀ s t : State, PinsLegal s → step s = .next t → PinsLegal t) ∧
  (∀ s t : State, SensorsLegal s → step s = .next t → SensorsLegal t) ∧
  (∀ s t : State, BootLegal s → step s = .next t → BootLegal t)

/-- RESET_ASSERT at any time: the state after power-up, with RESET_N low; the strap, the device's fixed values, the queue and the
model's count of draws stay (R362). Completes resetAssert. The readings it follows: log entries 3 and 9. -/
def Obligations.ResetReturnsToPowerUp : Prop :=
  ∀ s : State, ∃ t, exec .resetAssert s = .next t ∧ t.clock.resetN = false ∧ t.clock.alignDone = false ∧
    t = { State.reset with
      clock := { State.reset.clock with testEn := s.clock.testEn }
      dev := s.dev, pending := s.pending, freshCount := s.freshCount }

/-! ### Start-up, clocks and temperature (chapters 16 and 20) -/

/-- Phases 1 to 5 of Table 16.3 run in order: each command ends its own phase and begins the next, the events of phases 2 to 5
note how long their phase lasted, lane 0's signal is noted, LPDDR5X leaves self-refresh at the end of phase 5, and nothing else
changes; on the root path the offset is then 0 (R363, R369). Completes resetRelease, signalDetect, clockRecoveryLock,
oscillatorStable, referenceLock, domainLock. The release boundary and the check (R363, R364): on the root path any boundary, on
the worker path one whose number is a multiple of three, restarts the dividers at cycle 0, releases the crossings with 4 entries
in flight and loads the stitch number; after two whole stitches the check passes, or the device releases again. Completes
releaseBoundary, alignmentCheckEnd. Where a command's condition does not hold it changes nothing: the model's choice (log entry
5). The readings it follows: log entry 9. -/
def Obligations.StartUpRunsToTheCheck : Prop :=
  (∀ (s : State) (n : Nat),
     (s.clock.phase = .held → exec .resetRelease s = .next { s with clock := { s.clock with resetN := true, phase := .awaitingSignal } }) ∧
     (s.clock.phase = .awaitingSignal → exec .signalDetect s = .next { s with clock := { s.clock with
       signal := true, phase := .clockRecovery, phaseCycles := [] } }) ∧
     (s.clock.phase = .clockRecovery → exec (.clockRecoveryLock n) s = .next { s with clock := { s.clock with
       phase := .oscillatorStart, phaseCycles := s.clock.phaseCycles ++ [n] } }) ∧
     (s.clock.phase = .oscillatorStart → exec (.oscillatorStable n) s = .next { s with clock := { s.clock with
       phase := .referenceLock, phaseCycles := s.clock.phaseCycles ++ [n] } }) ∧
     (s.clock.phase = .referenceLock → exec (.referenceLock n) s = .next { s with clock := { s.clock with
       phase := .domainLock, phaseCycles := s.clock.phaseCycles ++ [n] } }) ∧
     (s.clock.phase = .domainLock → ∃ t, exec (.domainLock n) s = .next t ∧
       t.clock.phase = (if s.markerLock portC ∧ (s.clock.path = .root ∨ s.clock.path = .worker ∧ s.clock.offsetDone = true)
         then .release else .marksAndEcho) ∧
       t.clock.phaseCycles = s.clock.phaseCycles ++ [n] ∧ t.clock.selfRefresh = false ∧
       t = { s with clock := t.clock, index := t.index } ∧ (s.clock.path ≠ .root → t.index = s.index) ∧
       (Canonical s → s.clock.path = .root → s.markerLock portC = true → t.idx 0x2004 0 = 0 ∧ t.clock.offsetDone = true))) ∧
  (∀ (s : State) (n : Nat) (held : Bool),
     (s.clock.phase = .release → s.clock.path = .root → exec (.releaseBoundary n) s = .next { s with clock := { s.clock with
       phase := .check, base := s.clock.base + s.clock.cycle, stitch := 2 ^ 64 - 3, cycle := 0, crossings := some 4,
       releaseAttempts := min (s.clock.releaseAttempts + 1) (2 ^ 32 - 1), releaseCycles := n, releaseStitch := 2 ^ 64 - 3 } }) ∧
     (s.clock.phase = .release → s.clock.path = .worker → s.clock.lastMarkValid = true → s.clock.lastMarkStitch % 3 = 0 →
       exec (.releaseBoundary n) s = .next { s with clock := { s.clock with
         phase := .check, base := s.clock.base + s.clock.cycle, stitch := s.clock.lastMarkStitch, cycle := 0, crossings := some 4,
         releaseAttempts := min (s.clock.releaseAttempts + 1) (2 ^ 32 - 1), releaseCycles := n,
         releaseStitch := s.clock.lastMarkStitch } }) ∧
     (s.clock.phase = .release → s.clock.path = .worker → s.clock.lastMarkStitch % 3 ≠ 0 → exec (.releaseBoundary n) s = .next s) ∧
     (s.clock.phase = .check → s.clock.stitch = (s.clock.releaseStitch + 2) % 2 ^ 64 → s.clock.releaseStitch < 2 ^ 64 →
       exec (.alignmentCheckEnd held) s = .next { s with clock := { s.clock with
         phase := if held then .passed else .release, crossings := if held then s.clock.crossings else none } }))

/-- The stitch offset (R365): a worker notes its round trips; a fourth equal one gives (t − 96) / 2 rounded down, a fourth one
that differs asks for four more. A feeder port owes its reply 96 FABRIC cycles after the request, and sends it then. Nothing else
changes. Completes echoReplyReceive, echoRequestReceive, echoReplySend. The readings it follows: log entry 9. -/
def Obligations.EchoMeasuresTheOffset : Prop :=
  ∀ (s : State) (r a b d : Nat) (p : PortId),
    (s.clock.phase = .marksAndEcho → s.clock.path = .worker → s.clock.offsetDone = false → s.clock.echoes.length < 3 →
      s.clock.echoes.length + s.clock.echoesOwed < 4 →
      exec (.echoReplyReceive r) s = .next { s with clock := { s.clock with echoes := s.clock.echoes ++ [r] } }) ∧
    (Canonical s → s.clock.phase = .marksAndEcho → s.clock.path = .worker → s.clock.offsetDone = false → s.clock.echoes = [a, b, d] →
      s.clock.echoesOwed = 0 →
      ∃ t, exec (.echoReplyReceive r) s = .next t ∧ t = { s with clock := t.clock, index := t.index } ∧
        (if a = r ∧ b = r ∧ d = r then
          t.clock.offsetDone = true ∧ t.idx 0x2004 0 = (r - 96) / 2 ∧ t.idx 0x2006 0 = r ∧
            t.clock.phase = (if s.markerLock portC then .release else .marksAndEcho)
        else t.clock = { s.clock with echoes := [], echoesOwed := 4 } ∧ t.index = s.index)) ∧
    (p.val ≠ portC → s.native p = true → s.idx 0x3100 p = 1 ∨ s.idx 0x3100 p = 2 → s.transmits p = true →
      exec (.echoRequestReceive p) s = .next (s.setPort p { s.port p with echoesOwed := (s.port p).echoesOwed ++ [s.now + 96] })) ∧
    (∀ at_ rest, (s.port p).echoesOwed = at_ :: rest → at_ ≤ s.now → s.transmits p = true →
      exec (.echoReplySend p) s = .next (s.setPort p { s.port p with echoesOwed := rest }))

/-- Marks of port C (R330, R364, R367): before the device is aligned a mark that passes its check is noted for the release; one
that fails it is counted in 0x3006.80 and nothing else changes. On an aligned worker a mark that agrees clears the run of
disagreements, one that disagrees is counted in 0x2008.00, and the second in a row loses the reference: the device coasts with
ALIGN_DONE low. Completes stitchMarkReceive. Marker lock (R436, R330): two good groups in a row, with consecutive numbers where
Valid is 1, acquire it on a lane; a mark that fails its check neither acquires it nor breaks it; two missing groups in a row lose
it. MARKER_LOCK at a fabric port whose link is down changes that lane as the rule says, counts a mark that fails its check in
0x3006.SS, and leaves every other port, the clock, the cores and memory alone. Completes markerLock. The readings it follows: log
entry 14. -/
def Obligations.MarksAndMarkerLock : Prop :=
  (∀ (s : State) (mark : BitVec 96) (spacing : Nat), s.clock.coasting = false →
     (s.clock.starting = true → markOk mark.toNat = true → exec (.stitchMarkReceive mark spacing) s = .next { s with clock := { s.clock with
       lastMarkStitch := bits mark.toNat 95 32, lastMarkValid := bit mark.toNat 31 } }) ∧
     (Canonical s → s.clock.starting = true → markOk mark.toNat = false →
       ∃ t, exec (.stitchMarkReceive mark spacing) s = .next t ∧ t = { s with index := t.index } ∧
         bits (t.idx 0x3006 portC) 31 0 = min (bits (s.idx 0x3006 portC) 31 0 + 1) (2 ^ 32 - 1)) ∧
     (Canonical s → s.clock.phase = .aligned → s.clock.path = .worker → markOk mark.toNat = true →
       ∃ t, exec (.stitchMarkReceive mark spacing) s = .next t ∧ t.clock.lastMarkStitch = bits mark.toNat 95 32 ∧
       (if bit mark.toNat 31 = true ∧ bits mark.toNat 95 32 = s.clock.stitch then
         t.clock.marksApart = 0 ∧ t = { s with clock := t.clock } ∧ t.clock.coasting = false ∧ t.clock.alignDone = s.clock.alignDone
       else if s.clock.marksApart = 0 then
         t.clock.marksApart = 1 ∧ bits (t.idx 0x2008 0) 31 0 = min (bits (s.idx 0x2008 0) 31 0 + 1) (2 ^ 32 - 1) ∧
           t.clock.coasting = false ∧ t = { s with clock := t.clock, index := t.index }
       else t.clock.coasting = true ∧ t.clock.alignDone = false ∧ t.clock.lossCause = 5))) ∧
  (∀ (l : Lane) (m : Nat) (s : State) (p : PortId) (lane : Fin 4) (inPlace : Bool) (mark : BitVec 96),
     (l.marker = false → l.good = 1 → markOk m = true → bit m 31 = l.lastValid →
       (bit m 31 = true → bits m 95 32 = (l.lastNumber + 1) % 2 ^ 64) → (l.group true m).marker = true) ∧
     (l.marker = false → l.good = 0 → (l.group true m).marker = false) ∧
     (l.marker = false → markOk m = false → (l.group true m).marker = false) ∧
     (l.marker = true → (l.group true m).marker = true) ∧
     (l.marker = true → l.missing = 0 → (l.group false m).marker = true) ∧
     (l.marker = true → ((l.group false m).group false m).marker = false) ∧
     (s.clock.phase = .aligned → p.val ≠ portC → s.native p = true → lane.val < s.laneCount p → Canonical s →
       (s.port p).up = false →
       ∃ t, exec (.markerLock p lane inPlace mark) s = .next t ∧
         (t.port p).lanes = (s.port p).lanes.set lane.val (((s.port p).lanes.getD lane.val Lane.reset).group inPlace mark.toNat) ∧
         bits (t.idx 0x3006 p) 31 0 = (if inPlace = true ∧ markOk mark.toNat = false then min (bits (s.idx 0x3006 p) 31 0 + 1) (2 ^ 32 - 1)
           else bits (s.idx 0x3006 p) 31 0) ∧
         (∀ q, q ≠ p.val → t.port q = s.port q) ∧ t = { s with index := t.index, ports := t.ports }))

/-- The stitch boundary (R359, R363, R365, R367, R429, R430). Aligned: the next stitch begins at cycle 0 with its number in the
mark that every native port sends, the lowest frequency requested takes effect, a reading of 105 °C or more raises the thermal
request, one of 125 °C or more trips the device. At the end of phase 8 the device becomes aligned. In phase 6 the boundary paces
the echo requests and its mark is not valid. Completes stitchBoundary. -/
def Obligations.BoundaryBeginsTheNextStitch : Prop :=
  ∀ (s : State) (rs : List QuireReading), Canonical s →
    (s.clock.phase = .aligned →
      ∃ t, exec (.stitchBoundary rs) s = .next t ∧ t.clock.stitch = (s.clock.stitch + 1) % 2 ^ 64 ∧ t.clock.cycle = 0 ∧
        t.clock.step = s.stepRequested ∧
        (s.clock.coasting = false → t.clock.markSent = buildMark ((s.clock.stitch + 1) % 2 ^ 64) true) ∧
        ∀ (q k : Nat) (r : QuireReading) (x : Int), SensorsLegal s → q < 4 → rs[q]? = some r → k < 16 →
          r.temps[k]? = some (some x) → -32768 ≤ x → x ≤ 32767 →
          (13440 ≤ x → 1 ≤ t.clock.thermalReq) ∧ (16000 ≤ x → t.power.tripped = true)) ∧
    (s.clock.phase = .passed → ∃ t, exec (.stitchBoundary rs) s = .next t ∧ t.clock.phase = .aligned ∧
      t.clock.alignDone = true ∧ t.clock.stitch = (s.clock.stitch + 1) % 2 ^ 64 ∧ t.clock.cycle = 0) ∧
    (s.clock.phase = .marksAndEcho → ∃ t, exec (.stitchBoundary rs) s = .next t ∧ t.clock.phase = .marksAndEcho ∧
      t.clock.echoesOwed = s.clock.echoesOwed - 1 ∧ t.clock.cycle = 0 ∧ t.clock.markSent = buildMark 0 false ∧
      t.clock.alignDone = s.clock.alignDone ∧ t = { s with clock := t.clock, ports := t.ports })

/-- R429, whole: at an aligned boundary a published 105 °C or more raises the request from 0 to 0x01 and continues the hot run,
every quire below 100 °C continues the cool run, any other reading breaks them, and the stitch spent under a request is counted; a
hot run of 1,024 raises 0x01 to 0x02, a cool one lowers by one step; 0x9022.00 holds the thresholds. Completes throttleEscalate,
throttleRelease. -/
def Obligations.TheThermalRequestFollowsTheReadings : Prop :=
  ∀ s : State, Canonical s →
    (∀ rs, s.clock.phase = .aligned →
      ∃ t, exec (.stitchBoundary rs) s = .next t ∧ t.temps = [0, 1, 2, 3].map (fun q => toSigned 32 (t.idx 0x9001 q)) ∧
        t.clock.thermalReq = (if s.clock.thermalReq = 0 ∧ t.temps.any (fun x => decide (13440 ≤ x)) = true then 1 else s.clock.thermalReq) ∧
        t.power.hotRun = (if t.temps.any (fun x => decide (13440 ≤ x)) = true then s.power.hotRun + 1 else 0) ∧
        t.power.coolRun = (if t.temps.all (fun x => decide (x < 12800)) = true then s.power.coolRun + 1 else 0) ∧
        bits (t.idx 0x9021 0) 63 32 = min (bits (s.idx 0x9021 0) 63 32 + (if s.clock.thermalReq = 1 then 1 else 0)) (2 ^ 32 - 1) ∧
        bits (t.idx 0x9021 0) 31 0 = min (bits (s.idx 0x9021 0) 31 0 + (if s.clock.thermalReq = 2 then 1 else 0)) (2 ^ 32 - 1)) ∧
    (∃ t, exec .throttleEscalate s = .next t ∧
      t.clock.thermalReq = (if s.clock.thermalReq = 1 ∧ 1024 ≤ s.power.hotRun then 2 else s.clock.thermalReq) ∧
      t = { s with clock := { s.clock with thermalReq := t.clock.thermalReq } }) ∧
    (∃ t, exec .throttleRelease s = .next t ∧
      t.clock.thermalReq = (if 1024 ≤ s.power.coolRun then s.clock.thermalReq - 1 else s.clock.thermalReq) ∧
      t = { s with
        clock := { s.clock with thermalReq := t.clock.thermalReq }
        power := { s.power with coolRun := if 1 ≤ s.clock.thermalReq ∧ 1024 ≤ s.power.coolRun then 0 else s.power.coolRun } }) ∧
    s.entryValue 0x9022 0 = 12800 * 2 ^ 32 + 13440 * 2 ^ 16 + 16000

/-- A quire without a valid sensor for 8 stitches reads 125 °C, which is published and trips the device (R428, R430); a quire
whose sensors were silent for fewer changes nothing. Completes sensorFailsafe. The end of a trip (R430, step 3): once the drain is
complete, or 1,024 stitches after the trip, running commands end with cause 0x0C, THERM_TRIP_N falls and the clocks stop; only
then are the rails taken away, and only the 0x1000, 0x2000 and 0x9000 entries answer. Before, neither happens. Completes
tripClockStop, coreRailsRemoved. Where a command's condition does not hold it changes nothing: the model's choice (log entry 5).
The readings it follows: log entry 9. -/
def Obligations.TripsStopTheClocks : Prop :=
  (∀ (s : State) (q : QuireId),
     (Canonical s → s.clock.phase = .aligned → 8 ≤ fget 0 s.power.invalidRun q →
       ∃ t u, exec (.sensorFailsafe q) s = .next t ∧ u = { s with index := u.index } ∧ u.idx 0x9001 q = 16000 ∧
         u.temps.getD q 0 = 16000 ∧ (∀ k, k ≠ q.val → k < 4 → u.idx 0x9001 k = s.idx 0x9001 k) ∧ t = { u.tripIfHot with dev := s.dev, pending := s.pending } ∧
         t.power.tripped = true ∧ (s.power.tripped = true → t = u) ∧
         t.clock.phase = .aligned ∧ t.clock.coasting = s.clock.coasting) ∧
     (fget 0 s.power.invalidRun q < 8 → exec (.sensorFailsafe q) s = .next s)) ∧
  (∀ (s : State) (k : Cmd),
     (s.power.tripped = true → s.power.clocksStopped = false → s.clock.drained = true ∨ s.power.tripStitch + 1024 ≤ s.clock.stitch →
       ∃ t, exec .tripClockStop s = .next t ∧ t.power.thermTripN = false ∧ t.power.clocksStopped = true ∧
         t.power.tripped = true ∧ t.boot = s.boot ∧ t.clock.stitch = s.clock.stitch ∧
         (s.cores.cmds.filter Cmd.started = [] → (∀ c, (s.core c).records = []) →
           t = { s with power := { s.power with thermTripN := false, clocksStopped := true } }) ∧
         (s.cores.cmds.filter Cmd.started = [k] → k.opcode = 0x20 ∨ k.opcode = 0x30 ∨ k.opcode = 0x31 → k.failed = [] →
           (∀ c, (s.core c).records = []) → (s.core k.core).ringSize = 0 →
           t = { s.finishCmd k 1 0x0C with
             power := { s.power with thermTripN := false, clocksStopped := true }, dev := s.dev, pending := s.pending } ∧
           t.cores.cmds = s.cores.cmds.filter (fun x => !(x.core == k.core && x.serial == k.serial)))) ∧
     (s.power.tripped = false → exec .tripClockStop s = .next s) ∧
     (s.power.clocksStopped = true → ∃ t, exec .coreRailsRemoved s = .next t ∧
       t = { s with power := { s.power with railsAbsent := true } } ∧
       ∀ i, t.answers i = true ↔ i / 0x1000 = 1 ∨ i / 0x1000 = 2 ∨ i / 0x1000 = 9) ∧
     (s.power.clocksStopped = false → exec .coreRailsRemoved s = .next s))

/-- Losing the reference (R363, R368): an aligned device coasts, with ALIGN_DONE low and the cause noted, and requests step 0x02.
One that was not aligned starts up again at phase 1 and keeps no state of the attempt, but for memory (R369). Completes
referenceLoss. The drain and the return (R368, R369): the drain completes once no command runs, with LPDDR5X in self-refresh; when
lane 0 regains signal a drained device restarts at phase 2 with every Index entry at its value at reset and device memory as it
was but for the staging regions, and one that still drains restarts when the drain completes. Completes drainComplete,
signalReturn. The readings it follows: log entry 9. -/
def Obligations.TheReferenceIsLostAndReturns : Prop :=
  (∀ (s : State) (cause : LossCause),
     (s.clock.phase = .aligned → s.clock.coasting = false →
       ∃ t, exec (.referenceLoss cause) s = .next t ∧ t.clock.coasting = true ∧ t.clock.alignDone = false ∧
         t.clock.lossCause = lossCode cause ∧ t.clock.phase = .aligned ∧ t.clock.stitch = s.clock.stitch ∧ 2 ≤ t.stepRequested) ∧
     (s.dark = false → s.clock.phase ≠ .aligned → s.clock.coasting = false →
       cause = .signal ∨ cause = .laneLock ∨ cause = .missingEdges →
       ∃ t, exec (.referenceLoss cause) s = .next t ∧ t.clock.phase = .awaitingSignal ∧
         t.clock.path = .none ∧ t.clock.echoes = [] ∧ t.clock.offsetDone = false ∧ t.clock.phaseCycles = [] ∧ t.mem = s.mem ∧
         t.index = [] ∧ t.ports = [] ∧ t.boot = State.reset.boot)) ∧
  (∀ s : State,
     (s.clock.coasting = true ∨ s.power.tripped = true → s.clock.drained = false → s.anyRunning = false →
       s.clock.restartPending = false → ∃ t, exec .drainComplete s = .next t ∧ t.clock.drained = true ∧ t.clock.selfRefresh = true ∧
         t.clock.phase = s.clock.phase ∧ t.clock.coasting = s.clock.coasting) ∧
     (s.clock.coasting = true → s.power.tripped = false → s.clock.drained = false → s.anyRunning = false →
       s.clock.restartPending = true → ∃ t, exec .drainComplete s = .next t ∧ t.clock.phase = .clockRecovery ∧
         t.clock.coasting = false ∧ t.index = [] ∧ t.boot = State.reset.boot) ∧
     (s.clock.coasting = true → s.power.tripped = false → s.clock.drained = false →
       exec .signalReturn s = .next { s with clock := { s.clock with signal := true, restartPending := true } }) ∧
     (s.clock.coasting = true → s.power.tripped = false → s.clock.drained = true →
       ∃ t, exec .signalReturn s = .next t ∧ t.clock.phase = .clockRecovery ∧ t.clock.coasting = false ∧ t.index = [] ∧
         t.boot = State.reset.boot ∧ t.mem.errors = s.mem.errors ∧
         ∀ a, canon a < deviceArea ∨ deviceArea + s.colophonSize ≤ canon a →
           canon a < s.stagingBase ∨ s.stagingBase + s.stagingSize ≤ canon a →
           canon a < t.stagingBase ∨ t.stagingBase + t.stagingSize ≤ canon a → t.loadByte a = s.loadByte a))

/-! ### Links and the switch (chapters 11, 12 and 14) -/

/-- A native link comes up once its lanes hold codeword and marker lock, a credit frame has arrived and a stitch without an
uncorrectable codeword has passed (R331), with its credit counts from zero (R334); one that is not ready stays down. With a lane's
signal it goes down: what its queues held is dropped and counted in 0x3008.SS, and a local send among it fails with cause 0x08.
Port C's going down loses the reference of an aligned device (R368). Completes linkUp, linkDown. Where a command's condition does
not hold it changes nothing: the model's choice (log entry 5). -/
def Obligations.LinksComeUpAndGoDown : Prop :=
  ∀ (s : State) (p : PortId), Canonical s →
    ((s.port p).up = false → s.native p = true → s.served = true → (p.val = portC ∨ s.power.tripped = false) →
      s.codewordLock p = true → s.markerLock p = true → (s.port p).creditSeen = true → (s.port p).cleanStitch = true →
      ∃ t, exec (.linkUp p) s = .next t ∧ (t.port p).up = true ∧ (t.port p).spent = [] ∧ (t.port p).limit = [] ∧
        (t.port p).freed = [] ∧ (t.port p).lanes = (s.port p).lanes ∧ (∀ q, q ≠ p.val → t.port q = s.port q) ∧
        (s.feeds p = true → t.idx 0x1022 p = 1) ∧ t = { s with index := t.index, ports := t.ports }) ∧
    ((s.port p).up = false → s.linkReady p = false → exec (.linkUp p) s = .next s) ∧
    ((s.port p).up = true → ¬ (p.val = portC ∧ s.clock.phase = .aligned) →
      ∃ t, exec (.linkDown p) s = .next t ∧ (t.port p).up = false) ∧
    (∀ (v c n i : Nat) (f : Frame) (k : Cmd), (s.port p).up = true → p.val ≠ portC → s.feeds p = false → s.paired = false → s.ctxs = [] →
      fwf Queue.reset (s.port p).queues = true → (s.port p).sending = none → v < 8 → ((s.port p).queue v).frames = [f] →
      (∀ w, w ≠ v → ((s.port p).queue w).frames = []) → f.handles = [] → f.inPort = 0xFF → f.emitter = none →
      f.sender = some (c, n, i) → s.cmd c n = some k → k.phase = .running → i ∉ k.sentItems →
      ∃ t k', exec (.linkDown p) s = .next t ∧ (t.port p).up = false ∧ (∀ w, w < 8 → ((t.port p).queue w).frames = []) ∧
        bits (t.idx 0x3008 p) 63 0 = min (bits (s.idx 0x3008 p) 63 0 + 1) (2 ^ 64 - 1) ∧ t.cmd c n = some k' ∧
        k'.failed = k.failed ++ [(i, 8, Counts.zero)] ∧ k'.sentItems = k.sentItems ++ [i] ∧ (∀ q, q ≠ p.val → t.port q = s.port q) ∧
        t.mem = s.mem) ∧
    ((s.port p).up = true → p.val = portC → s.clock.phase = .aligned → s.clock.coasting = false →
      ∃ t, exec (.linkDown p) s = .next t ∧ t.clock.coasting = true ∧ t.clock.alignDone = false ∧ t.clock.lossCause = 4) ∧
    ((s.port p).up = false → exec (.linkDown p) s = .next s)

/-- Link retry (R332, R333). A native receiver counts an uncorrectable codeword in 0x3006.SS, discards what follows, and owes its
retry request at once; the replay that arrives ends the wait and is counted in 0x3007.SS; two stitches after the request without
one the link goes down. A transmitter that still holds the codeword replays from it, and sends no new frame until the replay is
over; one that does not takes the link down. A compatibility port only counts. A lane's codeword lock is noted; losing it makes
the stitch unclean and holds the receive crossing again (R331, R366). Completes uncorrectableCodeword, replayArrival,
retryTimeout, retryControlBlock, codewordLock. Where a command's condition does not hold it changes nothing: the model's choice
(log entry 5). The readings it follows: log entry 14. -/
def Obligations.LinkRetry : Prop :=
  ∀ (s : State) (p : PortId) (stitch : BitVec 32) (i n : Nat) (lane : Fin 4) (held : Bool), Canonical s →
    (s.native p = true → s.dark = false → (s.port p).up = true → (s.port p).retry = none →
      ∃ t, exec (.uncorrectableCodeword p stitch i) s = .next t ∧
        t.port p = { s.port p with dirty := true, cleanStitch := false, retry := some (stitch.toNat, i, s.now), retrySent := false } ∧
        bits (t.idx 0x3006 p) 63 32 = min (bits (s.idx 0x3006 p) 63 32 + 1) (2 ^ 32 - 1) ∧
        t.creditDue p = true ∧ t.receives p = false ∧
        (∀ q, q ≠ p.val → t.port q = s.port q) ∧ t = { s with index := t.index, ports := t.ports }) ∧
    (s.mode p = 4 → s.dark = false →
      ∃ t, exec (.uncorrectableCodeword p stitch i) s = .next t ∧ t = { s with index := t.index } ∧
        bits (t.idx 0x3006 p) 63 32 = min (bits (s.idx 0x3006 p) 63 32 + 1) (2 ^ 32 - 1)) ∧
    ((s.port p).retry = some (stitch.toNat, i, n) →
      ∃ t, exec (.replayArrival p stitch i) s = .next t ∧ t.port p = { s.port p with retry := none, retrySent := false } ∧
        bits (t.idx 0x3007 p) 63 32 = min (bits (s.idx 0x3007 p) 63 32 + 1) (2 ^ 32 - 1) ∧
        ((s.port p).up = true → s.clock.phase = .aligned → s.power.clocksStopped = false → t.receives p = true) ∧
        (∀ q, q ≠ p.val → t.port q = s.port q) ∧ t = { s with index := t.index, ports := t.ports }) ∧
    (∀ c k, (s.port p).retry = some (c, k, n) → (s.port p).retrySent = true → n + 2 * s.fabricCycles ≤ s.now →
      p.val ≠ portC ∨ s.clock.phase ≠ .aligned →
      ∃ t, exec (.retryTimeout p) s = .next t ∧ (t.port p).up = false ∧ (t.port p).retry = none ∧
        (s.ctxs = [] → s.feeds p = false → bits (t.idx 0x3007 p) 31 0 = min (bits (s.idx 0x3007 p) 31 0 + 1) (2 ^ 32 - 1))) ∧
    (∀ c k, (s.port p).retry = some (c, k, n) → s.now < n + 2 * s.fabricCycles → exec (.retryTimeout p) s = .next s) ∧
    (s.native p = true → (s.port p).up = true → s.heldCodewords p stitch.toNat i = some n →
      ∃ t, exec (.retryControlBlock p stitch i) s = .next t ∧
        t = s.setPort p { s.port p with
          replay := some (stitch.toNat, i, s.now + ceilDiv (n * s.fabricCycles) (max 1 (s.codewords p))) } ∧
        (0 < s.fabricCycles → t.transmitterFree p = false)) ∧
    (s.native p = true → (s.port p).up = true → s.heldCodewords p stitch.toNat i = none → p.val ≠ portC ∨ s.clock.phase ≠ .aligned →
      ∃ t, exec (.retryControlBlock p stitch i) s = .next t ∧ (t.port p).up = false) ∧
    (lane.val < s.laneCount p → s.dark = false →
      exec (.codewordLock p lane held) s = .next (s.setPort p { s.port p with
        lanes := (s.port p).lanes.set lane.val { (s.port p).lanes.getD lane.val Lane.reset with codeword := held }
        dirty := (s.port p).dirty || !held, cleanStitch := (s.port p).cleanStitch && held
        crossing := if held then (s.port p).crossing else none }))

/-- Credit frames (R334 to R336, R338). A port sends one when it is due: where it has sent none in this stitch, for a new retry
request, or after a rise of 64 leaves; its 64 bytes and the limits it advertises are noted. A sound one that arrives gives the
partner, its open mask and limits that never decrease, and moves no other state; one whose reserved bits are not zero is counted
in 0x4005.00 and changes no port; one on a compatibility port is counted in 0x3008.SS. Completes creditFrameSend,
creditFrameReceive. Where a command's condition does not hold it changes nothing: the model's choice (log entry 5). -/
def Obligations.CreditFrames : Prop :=
  ∀ (s : State) (p : PortId) (body : BitVec 256), Canonical s →
    (s.native p = true → s.transmits p = true →
      (s.port p).creditFrame = [] ∨ (s.port p).lastCredit < s.clock.base ∨ ((s.port p).retry.isSome = true ∧ (s.port p).retrySent = false) ∨
        ((s.port p).lastCredit + 32 ≤ s.now ∧ ∃ v, (v = 4 ∨ v = 5 ∨ v = 6 ∨ v = 7) ∧
          64 ≤ subMod 32 (s.limitNow p v) (fget 0 (s.port p).advertised v)) →
      fwf 0 (s.port p).advertised = true →
      ∃ t, exec (.creditFrameSend p) s = .next t ∧ (t.port p).lastCredit = s.now ∧ (t.port p).creditFrame = s.creditFrame p ∧
        (s.creditFrame p).length = 64 ∧ (t.port p).retrySent = (s.port p).retry.isSome ∧
        (∀ v, v = 4 ∨ v = 5 ∨ v = 6 ∨ v = 7 → fget 0 (t.port p).advertised v = s.limitNow p v) ∧
        (∀ q, q ≠ p.val → t.port q = s.port q) ∧ t = { s with ports := t.ports }) ∧
    (s.creditDue p = false → exec (.creditFrameSend p) s = .next s) ∧
    (s.dark = false → s.delivers p = true → s.native p = true → (s.port p).retry = none → creditOk body.toNat = true →
      bit body.toNat 31 = false → fwf 0 (s.port p).limit = true →
      ∃ t, exec (.creditFrameReceive p body) s = .next t ∧ (t.port p).openMask = bits body.toNat 247 244 ∧
        (t.port p).partner = bits body.toNat 223 200 * 256 ∧ (t.port p).creditSeen = true ∧ (t.port p).up = (s.port p).up ∧
        (∀ v a, v = 4 ∨ v = 5 ∨ v = 6 ∨ v = 7 → a = bits body.toNat (191 - 32 * (v - 4)) (160 - 32 * (v - 4)) →
          fget 0 (t.port p).limit v =
            if subMod 32 a (fget 0 (s.port p).limit v) < 2 ^ 31 then a else fget 0 (s.port p).limit v) ∧
        (∀ q, q ≠ p.val → t.port q = s.port q) ∧ t = { s with ports := t.ports }) ∧
    (s.dark = false → s.delivers p = true → s.native p = true → (s.port p).retry = none → creditOk body.toNat = false →
      ∃ t, exec (.creditFrameReceive p body) s = .next t ∧ bits (t.idx 0x4005 0) 63 0 = min (bits (s.idx 0x4005 0) 63 0 + 1) (2 ^ 64 - 1) ∧
        t = { s with index := t.index }) ∧
    (s.dark = false → s.mode p = 4 →
      ∃ t, exec (.creditFrameReceive p body) s = .next t ∧ bits (t.idx 0x3008 p) 63 0 = min (bits (s.idx 0x3008 p) 63 0 + 1) (2 ^ 64 - 1) ∧
        t = { s with index := t.index })

/-- A frame that lands (R265, R266). An Index request to the folio's own address waits for lookup on VC7 in the receive buffer. A
compute frame with a sound header takes an on-die leaf for each 256 bytes, charged to its port and virtual channel, and waits for
lookup. A frame that is too short, too long or fails its check sequence waits nowhere and is counted in 0x4005.00, and its
lossless credits go back (R275). Completes frameLand. Lookup (R24, R208, R267 to R269). It takes the frame that has waited
longest. An Index request to the folio's own address goes to the fallback controller, one to 0x0000 only by port C of a folio
without an address; a compute frame to the folio goes to the slice of the context of its group; a frame for another folio goes
into the egress queue of the path that its route slot gives; one that no slot names goes nowhere and is counted in 0x4007.00; an
ordinary frame whose entry names its own ingress port is dropped, which the model counts in 0x4005.00 (log entry 41). Completes
lookup. The readings it follows: log entries 18, 33 and 41. -/
def Obligations.FramesLandAndAreLookedUp : Prop :=
  (∀ (s : State) (p : PortId) (b : Bytes), Canonical s → s.receives p = true →
     (64 ≤ b.length → b.length ≤ 9216 → fcsOk b = true → s.classOf (parseFrame b).etype = .index → s.mode p ≠ 4 →
       beAt b ((parseFrame b).body + 4) 2 = s.address → bit (beAt b (parseFrame b).body 4) 27 = false →
       ∃ t f, exec (.frameLand p b) s = .next t ∧ (t.port p).waiting = (s.port p).waiting ++ [f] ∧ f.bytes = b ∧ f.vc = 7 ∧
         f.inPort = p.val ∧ f.cls = .index ∧ f.handles = [] ∧ (t.port p).charged = (s.port p).charged ∧
         (t.port p).landedCount = (s.port p).landedCount + 1 ∧ (∀ q, q ≠ p.val → t.port q = s.port q) ∧
         t = { s with ports := t.ports }) ∧
     (64 ≤ b.length → b.length ≤ 9216 → fcsOk b = true → s.classOf (parseFrame b).etype = .compute → s.mode p ≠ 4 →
       bits (beAt b (parseFrame b).body 1) 7 4 = 1 →
       folioHeaderOk b (parseFrame b).body (b.length - 4 - (parseFrame b).body) = true →
       4 ≤ bits (beAt b (parseFrame b).body 4) 23 21 → bits (beAt b (parseFrame b).body 4) 23 21 ≤ 6 → s.mem.poolErrors = [] →
       s.switch.onDie.chain = 0 → s.switch.onDie.fresh + ceilDiv b.length 256 ≤ onDieLeaves → fwf 0 (s.port p).charged = true →
       ∃ t f, exec (.frameLand p b) s = .next t ∧ (t.port p).waiting = (s.port p).waiting ++ [f] ∧
         f.handles = (List.range (ceilDiv b.length 256)).map (fun k => s.switch.onDie.fresh + k) ∧
         f.vc = bits (beAt b (parseFrame b).body 4) 23 21 ∧ f.inPort = p.val ∧ f.cls = .compute ∧ f.rawLength = b.length ∧
         f.destination = beAt b ((parseFrame b).body + 4) 2 ∧
         (t.port p).charge f.vc = (s.port p).charge f.vc + ceilDiv b.length 256 ∧
         t.switch.onDie = { s.switch.onDie with fresh := s.switch.onDie.fresh + ceilDiv b.length 256 } ∧
         (t.port p).landedCount = (s.port p).landedCount + 1 ∧ (∀ q, q ≠ p.val → t.port q = s.port q) ∧ t.cores = s.cores ∧ t.ctxs = s.ctxs) ∧
     (b.length < 64 ∨ 9216 < b.length ∨ fcsOk b = false →
       ∃ t, exec (.frameLand p b) s = .next t ∧ (∀ q, (t.port q).waiting = (s.port q).waiting) ∧
         bits (t.idx 0x4005 0) 63 0 = min (bits (s.idx 0x4005 0) 63 0 + 1) (2 ^ 64 - 1) ∧
         t.switch.requests = s.switch.requests ∧ t.switch.onDie = s.switch.onDie ∧
         (s.classOf (parseFrame b).etype = .index → s.mode p ≠ 4 → fwf 0 (s.port p).freed = true →
           fget 0 (t.port p).freed 7 = (fget 0 (s.port p).freed 7 + ceilDiv b.length 256) % 2 ^ 32))) ∧
  (∀ (s : State) (p : PortId) (f : Frame) (rest : List Frame), Canonical s → s.power.clocksStopped = false →
     (s.port p).waiting = f :: rest →
     (f.cls = .index → f.destination = s.address → s.address ≠ 0 ∨ f.inPort = portC →
       ∃ t, exec (.lookup p) s = .next t ∧ (t.port p).waiting = rest ∧ t.switch.requests = s.switch.requests ++ [f] ∧
         (∀ q, q ≠ p.val → t.port q = s.port q) ∧ t.cores = s.cores ∧ t.ctxs = s.ctxs) ∧
     (f.cls = .index → f.destination = 0 → f.inPort ≠ portC → f.handles = [] →
       ∃ t, exec (.lookup p) s = .next t ∧ (t.port p).waiting = rest ∧ t.switch.requests = s.switch.requests ∧
         (∀ q v, (t.port q).queue v = (s.port q).queue v) ∧ t.cores = s.cores) ∧
     (∀ x, f.cls = .compute → f.destination = s.address → s.address ≠ 0xFFFF → s.paired = false → s.groupCtx f.group = some x →
       ∃ t, exec (.lookup p) s = .next t ∧ (t.port p).waiting = rest ∧
         t.switch.fragments = s.switch.fragments ++ [((s.ctx x).slice, f)] ∧ (∀ q, q ≠ p.val → t.port q = s.port q) ∧
         t.ctxs = s.ctxs ∧ t.cores = s.cores) ∧
     (∀ q, (f.cls = .compute ∧ s.takesAsOwn f = false ∨ f.cls = .index ∧ f.destination ≠ s.address ∧ f.destination ≠ 0) →
       f.destination ≠ 0xFFFF → s.routeTo f = some q → s.clock.coasting = false → s.mode q ≠ 4 → (s.port q).closed f.vc = false →
       fwf Queue.reset (s.port q).queues = true →
       ∃ t, exec (.lookup p) s = .next t ∧ (t.port p).waiting = rest ∧
         ((t.port q).queue f.vc).frames = ((s.port q).queue f.vc).frames ++ [{ f with queued := s.now }] ∧
         (∀ r, r ≠ q → r ≠ p.val → t.port r = s.port r) ∧ t.switch.requests = s.switch.requests ∧ t.cores = s.cores ∧ t.ctxs = s.ctxs) ∧
     (f.cls = .compute → f.destination ≠ 0xFFFF → s.takesAsOwn f = false → s.slotFor f.destination = none → f.handles = [] →
       ∃ t, exec (.lookup p) s = .next t ∧ (t.port p).waiting = rest ∧
         bits (t.idx 0x4007 0) 63 0 = min (bits (s.idx 0x4007 0) 63 0 + 1) (2 ^ 64 - 1) ∧
         (∀ q v, (t.port q).queue v = (s.port q).queue v) ∧ t.switch.requests = s.switch.requests ∧ t.cores = s.cores) ∧
     (∀ e, f.cls = .ordinary → isGroup (beAt (s.frameBytes f) 0 6) = false → s.macEntry f.vid (beAt (s.frameBytes f) 0 6) = some e →
       e.port = f.inPort → f.handles = [] →
       ∃ t, exec (.lookup p) s = .next t ∧ (t.port p).waiting = rest ∧ (∀ q v, (t.port q).queue v = (s.port q).queue v) ∧
         bits (t.idx 0x4005 0) 63 0 = min (bits (s.idx 0x4005 0) 63 0 + 1) (2 ^ 64 - 1) ∧ t.switch.macs = s.switch.macs))

/-- Egress (R290, R296, R298, R334): a free transmitter takes the head of the queue selected among those the wheel has let go,
which among eligible queues with weights has the earliest finish tag; a frame on VC4 to VC7 spends one credit for each 256 bytes;
the frame is on the wire as its leaves read, with its tag set or removed. Completes egressSelect. The calendar wheel (R298): each
slot that passes takes one from the rounds of a queue that waits in it; a queue whose rounds are spent leaves the wheel, so that
its shaper holds it no longer. No frame moves. Completes wheelSlot. The end of a transmission (R247, R279, R290, R301, R319): the
transmitter is free, the frame is counted, the counted bytes of its virtual channel rise by its counted length, its leaf's count
falls by one, and where it was an item of a send the item is complete; a frame that was cut is counted in 0x7005.00. Completes
frameTransmitted. The readings it follows: log entry 11. -/
def Obligations.FramesAreSent : Prop :=
  (∀ (s u : State) (p : PortId) (v : Nat) (f : Frame) (rest : List Frame),
     u = (s.leaveHeads p).wheelVisit p → s.transmitterFree p = true → u.selectQueue p = some v →
     ((u.port p).queue v).frames = f :: rest → Canonical u → fwf Queue.reset (u.port p).queues = true →
     fwf 0 (u.port p).spent = true →
     ∃ t r, exec (.egressSelect p) s = .next t ∧ r = u.readFrame .frame 0xFF f ∧
       (t.port p).sending = some { f with bytes := f.wire r.2.1, cut := r.2.2 } ∧
       ((t.port p).queue v).frames = rest ∧ u.eligible p v = true ∧
       (∀ w, (∀ k, k < 8 → ((u.port p).queue k).finish < 2 ^ 63) → w < 8 → u.eligible p w = true → ((u.port p).queue w).weighted = true →
         ((u.port p).queue v).weighted = true ∧ ((u.port p).queue v).finish ≤ ((u.port p).queue w).finish) ∧
       fget 0 (t.port p).spent v =
         (if v < 4 then fget 0 (u.port p).spent v else (fget 0 (u.port p).spent v + ceilDiv f.length 256) % 2 ^ 32) ∧
       (∀ q, q ≠ p.val → t.port q = u.port q) ∧ t.cores = u.cores) ∧
  (∀ (s : State) (p : PortId), s.power.clocksStopped = false → s.dark = false → Canonical s →
     fwf Queue.reset (s.port p).queues = true →
     ∃ t, exec (.wheelSlot p) s = .next t ∧ (t.port p).slot = s.now / 16 ∧
       (∀ v, ((t.port p).queue v).frames = ((s.port p).queue v).frames ∧ ((t.port p).queue v).tokens = ((s.port p).queue v).tokens) ∧
       (∀ v n rounds n', v < 8 → ((s.port p).queue v).wheel = some (n, rounds) →
         n' = (s.now / 16 + 4096 - n) / 4096 - ((s.port p).slot + 4096 - n) / 4096 →
         ((t.port p).queue v).wheel = if rounds < n' then none else some (n, rounds - n')) ∧
       (∀ q, q ≠ p.val → t.port q = s.port q) ∧ t = { s with ports := t.ports }) ∧
  (∀ (s : State) (p : PortId) (f : Frame), Canonical s → s.ctxs = [] → (s.port p).sending = some f → f.emitter = none → f.vc < 8 →
     (f.handles = [] → f.sender = none → f.cut = false →
       ∃ t, exec (.frameTransmitted p) s = .next t ∧ (t.port p).sending = none ∧ (t.port p).sentCount = (s.port p).sentCount + 1 ∧
         bits (t.idx (0x4158 + f.vc) p) 63 0 =
           min (bits (s.idx (0x4158 + f.vc) p) 63 0 + (f.length + s.idx 0x4016 p)) (2 ^ 64 - 1) ∧
         (∀ v, (t.port p).queue v = (s.port p).queue v) ∧ t.cores = s.cores ∧ t.mem = s.mem ∧ t.ctxs = s.ctxs) ∧
     (∀ h, f.handles = [h] → f.sender = none → 1 ≤ s.leafCount h → s.leafCount h ≤ 255 → fwf 0 s.switch.counts = true →
       ∃ t, exec (.frameTransmitted p) s = .next t ∧ (t.port p).sending = none ∧ t.leafCount h = s.leafCount h - 1 ∧
         (f.cut = true → s.mem.poolErrors = [] →
           bits (t.idx 0x7005 0) 63 0 = min (bits (s.idx 0x7005 0) 63 0 + 1) (2 ^ 64 - 1))) ∧
     (∀ c n i k, f.handles = [] → f.sender = some (c, n, i) → s.cmd c n = some k → k.phase = .running → i ∉ k.sentItems →
       ∃ t k', exec (.frameTransmitted p) s = .next t ∧ (t.port p).sending = none ∧ t.cmd c n = some k' ∧
         k'.sentItems = k.sentItems ++ [i] ∧ k'.failed = k.failed))

/-! ### The Index and what it sets (chapters 1, 11, 13 and 15) -/

/-- The status of a write (Table 14.7, R346, R349 to R351). An entry that the device lacks answers 0x03, one whose unit has no
rails 0x01, one whose right forbids the write 0x04, a numeric one of the wrong length 0x07, and none of them changes anything but
the note of the access. A write that its rules let through is applied, and an entry that has no behaviour of its own takes the
value and nothing else changes. A folio that does not serve the Index changes nothing. Completes registerWrite. Where a command's
condition does not hold it changes nothing: the model's choice (log entry 5). The noted status and data of the last access are the
model's own (log entry 6). The readings it follows: log entry 10. -/
def Obligations.RegisterWriteFollowsTheEntry : Prop :=
  ∀ (s : State) (i : BitVec 16) (sub : BitVec 8) (b : Bytes), i.toNat ≠ 0x7011 →
    (s.served = false → exec (.registerWrite i sub b) s = .next s) ∧
    (s.served = true → entryOf i.toNat sub.toNat = none → exec (.registerWrite i sub b) s = .next (s.noteAccess 3 [])) ∧
    (s.served = true → ∀ e, entryOf i.toNat sub.toNat = some e →
      (s.answers i.toNat = false → exec (.registerWrite i sub b) s = .next (s.noteAccess 1 [])) ∧
      (s.answers i.toNat = true → s.writeForbidden e i.toNat = true → exec (.registerWrite i sub b) s = .next (s.noteAccess 4 [])) ∧
      (s.answers i.toNat = true → s.writeForbidden e i.toNat = false → e.type.isBytes = false → b.length ≠ e.type.size →
        exec (.registerWrite i sub b) s = .next (s.noteAccess 7 [])) ∧
      (s.writeStatus s true [(i.toNat, sub.toNat)] i.toNat sub.toNat b = 0 →
        exec (.registerWrite i sub b) s =
          .next { (s.applyWrite i.toNat sub.toNat b).noteAccess 0 [] with dev := s.dev, pending := s.pending } ∧
        (e.type.isBytes = false → Plain i.toNat sub.toNat →
          exec (.registerWrite i sub b) s = .next ((s.idxSet i.toNat sub.toNat (beNat b)).noteAccess 0 [])))) ∧
    (Serves s → i = 0x4012 → sub = 0 → b.length = 2 →
      exec (.registerWrite i sub b) s = .next ((s.idxSet 0x4012 0 (beNat b)).noteAccess 0 []))

/-- R354, whole: while no binding is loaded, 0x01 to 0xA001.00 locks, again to no further effect; then every read/write entry of
0xA000 to 0xAFFF refuses writes with 0x04, until power-up; while a binding is loaded the lock is refused; the Binder's checks do
not see the lock. Completes securityLock. The noted status and data of the last access are the model's own (log entry 6). -/
def Obligations.SecurityLockHolds : Prop :=
  ∀ s : State,
    (Serves s → s.binding.loaded = false →
      exec .securityLock s = .next { s with boot := { s.boot with locked := true }, lastStatus := 0, lastData := [] }) ∧
    (Serves s → s.binding.loaded = true → exec .securityLock s = .next (s.noteAccess 1 [])) ∧
    (∀ (i : BitVec 16) (sub : BitVec 8) (b : Bytes) (e : EntryDef), Serves s → s.boot.locked = true → 0xA000 ≤ i.toNat → i.toNat ≤ 0xAFFF →
      entryOf i.toNat sub.toNat = some e → e.access = .rw ∨ e.access = .rwi →
      s.rightOf e i.toNat = .const ∧ exec (.registerWrite i sub b) s = .next (s.noteAccess 4 [])) ∧
    (∀ (c : Instr) (t : State), s.boot.locked = true → exec c s = .next t → t.boot.locked = true ∨ t.boot = State.reset.boot) ∧
    (∀ (m : Image) (l : Bool), { s with boot := { s.boot with locked := l } }.checkImage m = s.checkImage m)

/-- A read request (R340, R341, R345): it leaves the receive buffer, what it returns is the entry's value big-endian, for a block
read each record's in turn, and the reply goes out of port C; a malformed request is answered with status 0x08, whichever of the
four commands meets it. Completes indexRead, indexBlockRead. A write request (R340, R350, R351): a write that its entry's rules
let through is applied and answered OK out of port C. A block write whose records all pass, each checked against the state that
those before it leave, applies all of them; one in which some record is refused applies none, and its reply carries that record's
status, 0x05 for every other. Completes indexWrite, indexBlockWrite. The noted status and data of the last access are the model's
own (log entry 6). The readings it follows: log entry 7. -/
def Obligations.IndexRequestsAreServed : Prop :=
  (∀ (s : State) (f : Frame) (rest : List Frame) (h : IndexHeader) (rs : List IndexRecord) (u : State), s.served = true →
     Canonical s → s.switch.requests = f :: rest → h = IndexHeader.decode (indexBody (s.frameBytes f)) → u = s.popRequest →
     (requestRecords h (indexBody (s.frameBytes f)) = some rs → h.destination ≠ 0xFFFF → h.destination ≠ 0 ∨ s.address = 0 →
       (∀ r, h.op = 0 → rs = [r] → r.index ≠ 0x7011 → u.readStatus false r.index r.sub r.length = 0 →
         u.readSize r.index r.sub r.length ≤ 9000 →
         ∃ t v, exec .indexRead s = .next t ∧ v = (u.wireValue r.index r.sub).take (u.readSize r.index r.sub r.length) ∧
           t.switch.requests = rest ∧ t.lastStatus = 0 ∧ t.lastData = v ∧ t.cores = s.cores ∧ t.binding = s.binding ∧
           (RepliesLeave s → h.source ≠ s.address → ((t.port portC).queue 7).frames = ((s.port portC).queue 7).frames ++
             [{ s.replyFrame h 0 [r.answer 0 v] with queued := s.now }])) ∧
       (h.op = 2 → (∀ r ∈ rs, r.index ≠ 0x7011 ∧ u.readStatus true r.index r.sub r.length = 0) →
         rs.foldl (fun n r => n + roundUp (u.readSize r.index r.sub r.length) 4) 0 ≤ replyRoom rs.length →
         ∃ t, exec .indexBlockRead s = .next t ∧ t.switch.requests = rest ∧ t.lastStatus = 0 ∧
           t.lastData = rs.flatMap (fun r => (u.wireValue r.index r.sub).take (u.readSize r.index r.sub r.length)) ∧
           t.cores = s.cores ∧ t.binding = s.binding ∧
           (RepliesLeave s → h.source ≠ s.address → ((t.port portC).queue 7).frames = ((s.port portC).queue 7).frames ++
             [{ s.replyFrame h 0 (rs.map (fun r => r.answer 0
                 ((u.wireValue r.index r.sub).take (u.readSize r.index r.sub r.length)))) with queued := s.now }]))) ∧
     (requestRecords h (indexBody (s.frameBytes f)) = none → h.destination ≠ 0xFFFF →
       (∃ t, exec .indexRead s = .next t ∧ t.switch.requests = rest ∧ t.lastStatus = 8 ∧ t.cores = s.cores ∧ t.binding = s.binding) ∧
       exec .indexWrite s = exec .indexRead s ∧ exec .indexBlockRead s = exec .indexRead s ∧
       exec .indexBlockWrite s = exec .indexRead s)) ∧
  (∀ (s : State) (f : Frame) (rest : List Frame) (h : IndexHeader) (rs : List IndexRecord) (u : State), s.served = true →
     Canonical s → s.switch.requests = f :: rest → h = IndexHeader.decode (indexBody (s.frameBytes f)) → u = s.popRequest →
     h.destination ≠ 0xFFFF → h.destination ≠ 0 ∨ s.address = 0 →
     requestRecords h (indexBody (s.frameBytes f)) = some rs → s.accessWaits rs = false →
     (∀ r e, h.op = 1 → rs = [r] → entryOf r.index r.sub = some e → e.type.isBytes = false → Plain r.index r.sub →
       u.writeStatus u false [(r.index, r.sub)] r.index r.sub r.data = 0 → RepliesLeave s → h.source ≠ s.address → f.handles = [] →
       ∃ t, exec .indexWrite s = .next t ∧ t.switch.requests = rest ∧ t.lastStatus = 0 ∧ t.idx r.index r.sub = beNat r.data ∧
         ((t.port portC).queue 7).frames = ((s.port portC).queue 7).frames ++ [{ s.replyFrame h 0 [r.answer 0 []] with queued := s.now }] ∧
         t.cores = s.cores ∧ t.binding = s.binding ∧ t.clock = s.clock ∧ t.mem = s.mem) ∧
     (∀ t, h.op = 3 → State.foldWrites u true (recordGroup rs) rs 0 u = (t, none) →
       (t.port portC).up = true → t.clock.coasting = false → t.mode portC ≠ 4 → f.handles = [] →
       ∃ v, exec .indexBlockWrite s = .next v ∧ v.lastStatus = 0 ∧ v.lastData = [] ∧ v.index = t.index ∧ v.mem = t.mem ∧
         v.cores = t.cores ∧ v.ctxs = t.ctxs ∧ v.binding = t.binding ∧ v.clock = t.clock ∧ v.boot = t.boot ∧ v.domains = t.domains) ∧
     (∀ t k st, h.op = 3 → State.foldWrites u true (recordGroup rs) rs 0 u = (t, some (k, st)) →
       ∃ v, exec .indexBlockWrite s = .next v ∧ v.switch.requests = rest ∧ v.lastStatus = (if k = 0 then st else 5) ∧
         v.lastData = [] ∧ v.cores = s.cores ∧ v.binding = s.binding ∧ v.clock = s.clock ∧ v.domains = s.domains ∧
         v.proof.phase = s.proof.phase ∧ v.boot = s.boot ∧
         (RepliesLeave s → h.source ≠ s.address → ((v.port portC).queue 7).frames = ((s.port portC).queue 7).frames ++
           [{ s.replyFrame h (if k = 0 then st else 5) (refusedRecords rs k st) with queued := s.now }])))

/-- Replies (R341): one for another address goes up out of port C; the folio's own is taken, its status noted, and no port's queue
or attachment changes where no attachment waits for it. Completes indexReplyReceive. The noted status and data of the last access
are the model's own (log entry 6). The readings it follows: log entry 13. -/
def Obligations.IndexRepliesAreTaken : Prop :=
  ∀ (s : State) (f : Frame) (rest : List Frame), Canonical s → s.served = true → s.switch.replies = f :: rest →
    (f.destination ≠ s.address → RepliesLeave s → f.vc = 7 →
      ∃ t, exec .indexReplyReceive s = .next t ∧ t.switch.replies = rest ∧
        ((t.port portC).queue 7).frames = ((s.port portC).queue 7).frames ++ [{ f with queued := s.now }] ∧
        (∀ q, q ≠ portC → t.port q = s.port q) ∧ t.cores = s.cores ∧ (NoMirror s → t.index = s.index ∧ t.mem = s.mem)) ∧
    (f.destination = s.address → (s.port f.inPort).attach.step = 0 → f.handles = [] →
      ∃ t, exec .indexReplyReceive s = .next t ∧ t.switch.replies = rest ∧
        t.lastStatus = (IndexHeader.decode (indexBody (s.frameBytes f))).status ∧ t.cores = s.cores ∧
        (NoMirror s → t.index = s.index ∧ t.mem = s.mem) ∧
        (∀ q v, (t.port q).queue v = (s.port q).queue v ∧ (t.port q).attach = (s.port q).attach))

/-- R26, whole: the three entries are set together, while the address is 0x0000, from 0x0001 to 0xFFFE, in one block write, and
any other write of one of them is refused and changes none of them. The last clause says it of every access that a frame can
bring. Completes assignAddress. The noted status and data of the last access are the model's own (log entry 6). -/
def Obligations.AnAddressIsSetInOneBlockWrite : Prop :=
  ∀ (s : State), Serves s → Canonical s →
    (∀ (a m : BitVec 16) (d : BitVec 8), s.address = 0 → 1 ≤ a.toNat → a.toNat ≤ 0xFFFE → d.toNat ≤ 2 →
      ∃ t, exec (.assignAddress a d m) s = .next t ∧ t.address = a.toNat ∧ t.idx 0x1016 0 = d.toNat ∧ t.idx 0x1011 0 = m.toNat ∧
        t = { s with index := t.index, lastStatus := 0, lastData := [] }) ∧
    (∀ (a m : BitVec 16) (d : BitVec 8), s.address ≠ 0 ∨ a = 0 ∨ a = 0xFFFF →
      ∃ t, exec (.assignAddress a d m) s = .next t ∧ t.lastStatus ≠ 0 ∧ t = { s with lastStatus := t.lastStatus, lastData := [] }) ∧
    (∀ (i : BitVec 16) (b : Bytes), i = 0x1002 ∨ i = 0x1016 ∨ i = 0x1011 →
      ∃ t, exec (.registerWrite i 0 b) s = .next t ∧ t.lastStatus ≠ 0 ∧ t = { s with lastStatus := t.lastStatus, lastData := [] }) ∧
    ∀ (block : Bool) (rs : List IndexRecord) (t : State), State.foldWrites s block (recordGroup rs) rs 0 s = (t, none) →
      ∀ e ∈ rs, e.index = 0x1002 ∨ e.index = 0x1016 ∨ e.index = 0x1011 →
        s.address = 0 ∧ (∀ i, i = 0x1002 ∨ i = 0x1016 ∨ i = 0x1011 → ∃ k ∈ rs, k.index = i ∧ k.sub = 0) ∧
        (e.index = 0x1002 → 1 ≤ beNat e.data ∧ beNat e.data ≤ 0xFFFE)

/-- Attachment (R25, R27, R28). Discovery sends a request to address 0 on a port that is due and waits; without a reply for 64
stitches any slot it took is free again and it is tried after the discovery interval; an accepted certificate takes the lowest
empty slot and sends the address, one that is not accepted leaves the port in state 3; a positive reply to the address write
attaches the worker: its address and state are noted and its route slot is set. Completes attachDiscovery, attachTimeout. Release
of an address (R31): a release of the folio's own address returns its address, feed depth, manager and role to zero, and nothing
else changes; any other value, and any release while a binding is loaded, is refused. Completes folioRelease. Where a command's
condition does not hold it changes nothing: the model's choice (log entry 5). The noted status and data of the last access are the
model's own (log entry 6). The readings it follows: log entries 13, 23 and 39. -/
def Obligations.WorkersAreAttachedAndReleased : Prop :=
  (∀ (s : State) (p : PortId), Canonical s →
     (s.served = true → s.idx 0x1010 0 ≠ 0 → s.idx 0x3100 p ≠ 0 → s.workerAddress p ≠ 0 → s.idx 0x1015 0 ≠ 0 →
       s.idx 0x1022 p = 1 ∨ s.idx 0x1022 p = 5 → (s.port p).attach.step = 0 → (s.port p).attach.retryAt ≤ s.clock.stitch →
       (s.port p).up = true → s.clock.coasting = false → s.mode p ≠ 4 → fwf Queue.reset (s.port p).queues = true →
       ∃ t, exec (.attachDiscovery p) s = .next t ∧ (t.port p).attach.step = 1 ∧ (t.port p).attach.since = s.clock.stitch ∧
         (∃ g, ((t.port p).queue 7).frames = ((s.port p).queue 7).frames ++ [g] ∧ g.destination = 0 ∧ g.cls = .index) ∧
         (∀ q, q ≠ p.val → t.port q = s.port q) ∧ t = { s with ports := t.ports, freshCount := t.freshCount }) ∧
     (s.discovers p = false → exec (.attachDiscovery p) s = .next s) ∧
     ((s.port p).attach.step ≠ 0 → (s.port p).attach.since + 64 ≤ s.clock.stitch →
       exec (.attachTimeout p) s = .next
         (s.setPort p { s.port p with attach := { Attach.reset with retryAt := s.clock.stitch + s.idx 0x1015 0 } })) ∧
     (s.clock.stitch < (s.port p).attach.since + 64 → exec (.attachTimeout p) s = .next s) ∧
     (∀ (f : Frame) (rest : List Frame) (h : IndexHeader) (n : Nat), s.served = true → s.switch.replies = f :: rest → f.inPort = p.val →
       f.destination = s.address → f.handles = [] → h = IndexHeader.decode (indexBody (s.frameBytes f)) →
       (s.port p).attach.sequence = h.sequence → s.attaches p = true →
       ((s.port p).attach.step = 4 → h.status = 0 → (s.port p).attach.slot = some n → n < 16384 →
         s.slotFor (s.port p).attach.address = none →
         ∃ t, exec .indexReplyReceive s = .next t ∧ t.idx 0x1020 p = (s.port p).attach.address ∧ t.idx 0x1022 p = 2 ∧
           t.idx (0x4400 + n / 256) (n % 256) = (s.port p).attach.address * 2 ^ 48 + 2 ^ 32 + p ∧
           (t.port p).attach = Attach.reset) ∧
       (∀ r c, (s.port p).attach.step = 1 → readRecords (indexBody (s.frameBytes f)) true h.count 12 = some [r, c] → r.status = 0 →
         c.status = 0 → r.data.length = 8 →
         (Config.certificateAccepted c.data s.dev.rootKey (beNat r.data) = true → s.emptySlot = some n → (s.port p).up = true →
           s.clock.coasting = false → s.mode p ≠ 4 → fwf Queue.reset (s.port p).queues = true →
           ∃ t g, exec .indexReplyReceive s = .next t ∧ (t.port p).attach.step = 4 ∧ (t.port p).attach.slot = some n ∧
             (t.port p).attach.address = s.workerAddress p ∧ t.idx 0x1021 p = beNat r.data ∧
             ((t.port p).queue 7).frames = ((s.port p).queue 7).frames ++ [g] ∧ g.destination = 0 ∧ g.cls = .index) ∧
         (Config.certificateAccepted c.data s.dev.rootKey (beNat r.data) = false →
           ∃ t, exec .indexReplyReceive s = .next t ∧ t.idx 0x1022 p = 3 ∧ (t.port p).attach = Attach.reset)))) ∧
  (∀ (s : State) (v : BitVec 16), Serves s → Canonical s →
     (s.binding.loaded = false → v.toNat = s.address →
       ∃ t, exec (.folioRelease v) s = .next t ∧ t.address = 0 ∧ t.idx 0x1011 0 = 0 ∧ t.idx 0x1016 0 = 0 ∧ t.idx 0x1010 0 = 0 ∧
         (∀ i sub, sub < 256 → i ∉ [0x1002, 0x1010, 0x1011, 0x1016] → t.idx i sub = s.idx i sub) ∧
         t = { s with index := t.index, lastStatus := 0, lastData := [] }) ∧
     (s.binding.loaded = true ∨ v.toNat ≠ s.address → exec (.folioRelease v) s = .next (s.noteAccess 1 [])))

/-- Route slots (R267): an accepted value stands in its slot and nothing else changes; a zero value empties a slot that no
attachment has taken; a refused one changes nothing. Completes routeSlotWrite. The MAC table and VLANs by command (R269, R270): a
static entry replaces any of its VID and address; a delete takes it out; a flush takes out the port's dynamic entries and leaves
static ones; a VLAN takes its member and untagged sets. Completes macAddStatic, macDelete, macFlushDynamic, vlanOperation. Aging
(R270): a dynamic entry that nothing has refreshed for the aging time goes; a static one, a fresh one, and every entry where the
aging time is 0, stays; nothing else changes. Completes macAging. Where a command's condition does not hold it changes nothing:
the model's choice (log entry 5). The noted status and data of the last access are the model's own (log entry 6). The readings it
follows: log entry 10. -/
def Obligations.RoutesAndBridgeTables : Prop :=
  (∀ (s : State) (n : Fin 16384) (v : BitVec 64), Serves s →
     (s.slotOk n v.toNat = true →
       exec (.routeSlotWrite n v) s = .next ((s.idxSet (0x4400 + n.val / 256) (n.val % 256) v.toNat).noteAccess 0 [])) ∧
     (s.slotOk n v.toNat = false → exec (.routeSlotWrite n v) s = .next (s.noteAccess 1 [])) ∧
     (s.slotTaken n = false → s.slotOk n 0 = true)) ∧
  (∀ (s : State) (vid : BitVec 16) (mac : BitVec 48) (port : BitVec 8) (mem unt : BitVec 160), Serves s →
     (1 ≤ vid.toNat → vid.toNat ≤ 4094 → port.toNat ≤ 0x80 →
       (s.macEntry vid.toNat mac.toNat).isSome = true ∨ s.macSetFull vid.toNat mac.toNat = false →
       ∃ t, exec (.macAddStatic vid mac port) s = .next t ∧
         t.macEntry vid.toNat mac.toNat = some ⟨vid.toNat, mac.toNat, port.toNat, true, s.clock.stitch⟩ ∧
         (∀ e, ¬ (e.vid = vid.toNat ∧ e.mac = mac.toNat) → (e ∈ t.switch.macs ↔ e ∈ s.switch.macs)) ∧
         t = { s with switch := { s.switch with macs := t.switch.macs }, lastStatus := 0, lastData := [] }) ∧
     (1 ≤ vid.toNat → vid.toNat ≤ 4094 →
       ∃ t, exec (.macDelete vid mac) s = .next t ∧ t.macEntry vid.toNat mac.toNat = none ∧
         (∀ e, ¬ (e.vid = vid.toNat ∧ e.mac = mac.toNat) → (e ∈ t.switch.macs ↔ e ∈ s.switch.macs)) ∧
         t = { s with switch := { s.switch with macs := t.switch.macs }, lastStatus := 0, lastData := [] }) ∧
     (port.toNat ≤ 0x80 →
       ∃ t, exec (.macFlushDynamic port) s = .next t ∧
         (∀ e, e ∈ t.switch.macs ↔ e ∈ s.switch.macs ∧ (e.static = true ∨ e.port ≠ port.toNat)) ∧
         t = { s with switch := { s.switch with macs := t.switch.macs }, lastStatus := 0, lastData := [] }) ∧
     (1 ≤ vid.toNat → vid.toNat ≤ 4094 → mem.toNat ≤ allPorts → unt.toNat ≤ allPorts →
       exec (.vlanOperation vid mem unt) s = .next { s with
         switch := { s.switch with vlans := fset (0, 0) s.switch.vlans vid.toNat (mem.toNat, unt.toNat) }
         lastStatus := 0, lastData := [] })) ∧
  (∀ (s : State) (vid : BitVec 12) (mac : BitVec 48) (e : MacEntry), s.macEntry vid.toNat mac.toNat = some e →
     (e.static = false → s.idx 0x4012 0 ≠ 0 → e.refreshed + s.idx 0x4012 0 * 781250 ≤ s.clock.stitch →
       ∃ t, exec (.macAging vid mac) s = .next t ∧ e ∉ t.switch.macs ∧ (∀ x, x ≠ e → (x ∈ t.switch.macs ↔ x ∈ s.switch.macs)) ∧
         t = { s with switch := { s.switch with macs := t.switch.macs } }) ∧
     (e.static = true ∨ s.idx 0x4012 0 = 0 ∨ s.clock.stitch < e.refreshed + s.idx 0x4012 0 * 781250 →
       exec (.macAging vid mac) s = .next s))

/-- Policers and shapers (R294, R299): rates and bursts within their bounds are taken; a policer's buckets then stand full; a
queue's tokens are brought up to the present and held to the new cap, and it is placed on the wheel again or, at rate zero, taken
off; frames stay where they are. Completes policerWrite, shaperWrite. Port modes (R327, R385, Table 14.1): an accepted mode takes
the port's link down and those of the ports it had borrowed, frees these, and borrows the ports it needs; any other is refused,
and while a binding is loaded every one is. Completes portModeWrite. The noted status and data of the last access are the model's
own (log entry 6). The readings it follows: log entries 11 and 19. -/
def Obligations.PortsAreConfigured : Prop :=
  (∀ (s : State) (p : PortId) (vc : Fin 4) (v : Fin 8) (x : BitVec 64) (y : BitVec 32), Serves s → Canonical s →
     (bits x.toNat 31 0 ≤ bits x.toNat 63 32 → (bits x.toNat 31 0 = 0 ∨ 10 ≤ bits x.toNat 31 0) →
       (bits x.toNat 63 32 = 0 ∨ 10 ≤ bits x.toNat 63 32) → bits x.toNat 63 32 ≤ 1600000 → fwf Bucket.reset (s.port p).buckets = true →
       ∃ t, exec (.policerWrite p vc false x) s = .next t ∧ t.idx (0x4200 + vc.val) p = x.toNat ∧
         fget Bucket.reset (t.port p).buckets vc.val =
           ⟨if bits x.toNat 31 0 = 0 then 0 else bits (s.idx (0x4204 + vc.val) p) 31 0 * 10000,
             bits (s.idx (0x4204 + vc.val) p) 63 32 * 10000, s.now⟩ ∧
         (∀ q, q ≠ p.val → t.port q = s.port q) ∧ t = { s with index := t.index, ports := t.ports, lastStatus := 0, lastData := [] }) ∧
     (9279 ≤ bits x.toNat 31 0 → bits x.toNat 31 0 ≤ 16777215 → 9279 ≤ bits x.toNat 63 32 → bits x.toNat 63 32 ≤ 16777215 →
       fwf Bucket.reset (s.port p).buckets = true →
       ∃ t, exec (.policerWrite p vc true x) s = .next t ∧ t.idx (0x4204 + vc.val) p = x.toNat ∧
         fget Bucket.reset (t.port p).buckets vc.val =
           ⟨if bits (s.idx (0x4200 + vc.val) p) 31 0 = 0 then 0 else bits x.toNat 31 0 * 10000, bits x.toNat 63 32 * 10000, s.now⟩ ∧
         (∀ q, q ≠ p.val → t.port q = s.port q) ∧ t = { s with index := t.index, ports := t.ports, lastStatus := 0, lastData := [] }) ∧
     (y.toNat = 0 ∨ 10 ≤ y.toNat ∧ y.toNat ≤ 1600000 → fwf Queue.reset (s.port p).queues = true →
       ∃ t, exec (.shaperWrite p v false y) s = .next t ∧ t.idx (0x4138 + v.val) p = y.toNat ∧
         ((t.port p).queue v).frames = ((s.port p).queue v).frames ∧ ((t.port p).queue v).tokenCycle = s.now ∧
         ((t.port p).queue v).tokens = min (tokensNow ((s.port p).queue v) (s.idx (0x4138 + v.val) p) (s.idx (0x4140 + v.val) p) s.now)
           ((s.idx (0x4140 + v.val) p * 10000 + 15 * y.toNat : Nat) : Int) ∧
         ((t.port p).queue v).wheel = wheelAgain (((s.wheelVisit p).port p).queue v) ((t.port p).queue v).tokens y.toNat s.now ∧
         (∀ q, q ≠ p.val → t.port q = s.port q) ∧ t = { s with index := t.index, ports := t.ports, lastStatus := 0, lastData := [] }) ∧
     (y.toNat ≤ 16777215 → fwf Queue.reset (s.port p).queues = true →
       ∃ t, exec (.shaperWrite p v true y) s = .next t ∧ t.idx (0x4140 + v.val) p = y.toNat ∧
         ((t.port p).queue v).frames = ((s.port p).queue v).frames ∧ ((t.port p).queue v).tokenCycle = s.now ∧
         ((t.port p).queue v).tokens = min (tokensNow ((s.port p).queue v) (s.idx (0x4138 + v.val) p) (s.idx (0x4140 + v.val) p) s.now)
           ((y.toNat * 10000 + 15 * s.idx (0x4138 + v.val) p : Nat) : Int) ∧
         (∀ q, q ≠ p.val → t.port q = s.port q) ∧ t = { s with index := t.index, ports := t.ports, lastStatus := 0, lastData := [] })) ∧
  (∀ (s : State) (p : PortId) (m : BitVec 8), Serves s → Canonical s →
     (s.binding.loaded = false → s.modeOk p m.toNat = true →
       ∃ t, exec (.portModeWrite p m) s = .next t ∧ t.lastStatus = 0 ∧ t.mode p = m.toNat ∧
         (∀ q ∈ borrowsOf p m.toNat, t.mode q = 5) ∧ (t.port p).up = false ∧ (t.port p).lanes = Port.reset.lanes ∧
         ∀ q ∈ s.borrowed p, (t.port q).up = false ∧ (q ∉ borrowsOf p m.toNat → t.mode q = 0)) ∧
     (s.binding.loaded = false → s.modeOk p m.toNat = false → exec (.portModeWrite p m) s = .next (s.noteAccess 1 [])) ∧
     (s.binding.loaded = true → exec (.portModeWrite p m) s = .next (s.noteAccess 4 [])))

/-- The pool starts again (R281): an accepted write stops credits and lets lossy frames go, and once the lossless queues are empty
or 1,024 stitches have passed both leaf lists are as at reset, the status word is clear, no leaf is charged any more, and the
reply that was owed is sent. Completes poolReinitialize, poolReinitDrainEnd. Where a command's condition does not hold it changes
nothing: the model's choice (log entry 5). The noted status and data of the last access are the model's own (log entry 6). -/
def Obligations.PoolStartsAgain : Prop :=
  ∀ s : State, Canonical s →
    (Serves s → s.binding.loaded = false → s.switch.reinitSince = none →
      ∃ t, exec .poolReinitialize s = .next t ∧ t.switch.reinitSince = some s.clock.stitch ∧ bit t.switch.poolStatus 29 = true ∧
        (∀ p f, p < 129 → f ∈ (t.port p).waiting → 4 ≤ f.vc) ∧
        (∀ p v, p < 129 → v < 4 → fwf Queue.reset (s.port p).queues = true → ((t.port p).queue v).frames = []) ∧
        t.cores = s.cores ∧ t.ctxs = s.ctxs ∧ t.lastStatus = 0) ∧
    (Serves s → s.binding.loaded = true ∨ s.switch.reinitSince ≠ none →
      exec .poolReinitialize s = .next (s.noteAccess 1 [])) ∧
    (∀ since, s.switch.reinitSince = some since → s.losslessEmpty = true ∨ since + 1024 ≤ s.clock.stitch →
      ∃ t, exec .poolReinitDrainEnd s = .next t ∧ t.switch.reinitSince = none ∧ t.switch.reinitReply = none ∧ t.cores = s.cores ∧
        (s.switch.reinitReply = none → t.switch.onDie = LeafList.reset ∧ t.switch.external = LeafList.reset ∧
          t.switch.counts = [] ∧ t.switch.poolStatus = 0 ∧ t.switch.requests.length = s.switch.requests.length ∧
          (∀ p v, v = 4 ∨ v = 5 ∨ v = 6 ∨ v = 7 → fwf 0 (s.port p).charged = true → (t.port p).charge v = 0)) ∧
        (∀ g, s.switch.reinitReply = some g → g.destination = s.address →
          ∃ l, t.switch.replies = l ++ [g] ∧ l.length = s.switch.replies.length)) ∧
    (∀ since, s.switch.reinitSince = some since → s.losslessEmpty = false → s.clock.stitch < since + 1024 →
      exec .poolReinitDrainEnd s = .next s)

/-- Pool operations by command (R272, R282): a list gives its head where it has a chain, else its next fresh leaf, else the nil
handle; a leaf whose last reference goes becomes the head (last in, first out); a reference adds to the count. Completes
diagAllocOnDie, diagAllocExternal, diagFree, diagRef. -/
def Obligations.LeavesAreTakenAndGivenBack : Prop :=
  ∀ (s : State) (h : BitVec 32) (n : BitVec 8), Serves s → Canonical s → s.binding.loaded = false →
    fwf 0 s.switch.counts = true → s.mem.poolErrors = [] →
    (s.switch.onDie.chain = 0 → s.switch.onDie.fresh < 0x60000 →
      ∃ t, exec .diagAllocOnDie s = .next t ∧ t.idx 0xF041 0 = s.switch.onDie.fresh ∧
        t.switch.onDie = { s.switch.onDie with fresh := s.switch.onDie.fresh + 1 } ∧ t.switch.external = s.switch.external ∧
        t.leafCount s.switch.onDie.fresh = 1 ∧ bit t.switch.poolStatus 31 = true ∧ t.mem = s.mem) ∧
    (0 < s.switch.onDie.chain → ∃ t, exec .diagAllocOnDie s = .next t ∧ t.idx 0xF041 0 = s.switch.onDie.head ∧
      t.switch.onDie.chain = s.switch.onDie.chain - 1 ∧ t.leafCount s.switch.onDie.head = 1) ∧
    (s.switch.onDie.chain = 0 → 0x60000 ≤ s.switch.onDie.fresh →
      ∃ t, exec .diagAllocOnDie s = .next t ∧ t.idx 0xF041 0 = 0xFFFFFFFF ∧ t.switch.onDie = s.switch.onDie) ∧
    (s.switch.external.chain = 0 → s.switch.external.fresh < s.switch.externalSize → s.switch.externalSize ≤ 2 ^ 28 →
      ∃ t, exec .diagAllocExternal s = .next t ∧ t.idx 0xF041 0 = 0x80000000 + s.switch.external.fresh ∧
        t.switch.external = { s.switch.external with fresh := s.switch.external.fresh + 1 } ∧ t.switch.onDie = s.switch.onDie ∧
        t.leafCount (0x80000000 + s.switch.external.fresh) = 1 ∧ t.mem = s.mem) ∧
    (isExternal h.toNat = false → s.leafCount h.toNat ≤ 1 →
      ∃ t, exec (.diagFree h) s = .next t ∧ t.switch.onDie = ⟨h.toNat, s.switch.onDie.chain + 1, s.switch.onDie.fresh⟩ ∧
        t.leafCount h.toNat = (s.leafCount h.toNat + 255) % 256 ∧ t.switch.external = s.switch.external) ∧
    (isExternal h.toNat = true → s.leafCount h.toNat ≤ 1 →
      ∃ t, exec (.diagFree h) s = .next t ∧ t.switch.external = ⟨h.toNat, s.switch.external.chain + 1, s.switch.external.fresh⟩ ∧
        t.leafCount h.toNat = (s.leafCount h.toNat + 255) % 256 ∧ t.switch.onDie = s.switch.onDie) ∧
    (1 < s.leafCount h.toNat → ∃ t, exec (.diagFree h) s = .next t ∧ t.leafCount h.toNat = (s.leafCount h.toNat + 255) % 256 ∧
      t.switch.onDie = s.switch.onDie ∧ t.switch.external = s.switch.external ∧ t.mem = s.mem) ∧
    (∃ t, exec (.diagRef h n) s = .next t ∧ t.leafCount h.toNat = (s.leafCount h.toNat + n.toNat) % 256 ∧
      t.switch.onDie = s.switch.onDie ∧ t.switch.external = s.switch.external ∧ t.mem = s.mem)

/-- Queue sampling (R300, R301): at cycle 0 of a stitch whose number is a multiple of the period every queue's depth and head
delay, as they stood at the start of the cycle, are binned into its histograms, once, and the sample count rises by one; at any
other time nothing changes. Completes queueSample. Histograms and droop minima are cleared by command (R301, R435): every
histogram and the sample count are zero, the four lowest droops are 0xFFFF, and nothing else changes. Completes histogramClear,
droopClear. Where a command's condition does not hold it changes nothing: the model's choice (log entry 5). The noted status and
data of the last access are the model's own (log entry 6). -/
def Obligations.ObservationsAreTakenAndCleared : Prop :=
  (∀ (s : State) (m : FMap (Nat × Nat)),
     (Canonical s → s.clock.phase = .aligned → s.power.clocksStopped = false → s.idx 0x4020 0 ≠ 0 → s.clock.cycle = 0 →
       s.clock.stitch % s.idx 0x4020 0 = 0 → s.switch.sample = some m →
       ∃ t, exec .queueSample s = .next t ∧ bits (t.idx 0x4023 0) 63 0 = min (bits (s.idx 0x4023 0) 63 0 + 1) (2 ^ 64 - 1) ∧
         t = { s with index := t.index, domains := t.domains, switch := { s.switch with sample := none } } ∧
         (∀ p v, p < 129 → v < 8 →
           t.domain (0x4148 + v) p = histAdd (s.domain (0x4148 + v) p) (histBin (fget (0, 0) m (8 * p + v)).1 (bits (s.idx 0x4021 0) 15 8)) ∧
           t.domain (0x4150 + v) p = histAdd (s.domain (0x4150 + v) p) (histBin (fget (0, 0) m (8 * p + v)).2 (bits (s.idx 0x4021 0) 7 0))) ∧
         ∀ i sub, i < 0x4148 ∨ 0x4157 < i → sub < 256 → t.domain i sub = s.domain i sub) ∧
     (s.idx 0x4020 0 = 0 ∨ s.clock.cycle ≠ 0 ∨ s.clock.stitch % s.idx 0x4020 0 ≠ 0 ∨ s.switch.sample = none →
       exec .queueSample s = .next s)) ∧
  (∀ s : State, Serves s → Canonical s →
     (∃ t, exec .histogramClear s = .next t ∧ t.idx 0x4023 0 = 0 ∧
       (∀ i sub, 0x4148 ≤ i → i ≤ 0x4157 → sub < 256 → t.domain i sub = []) ∧
       (∀ i sub, i < 0x4148 ∨ 0x4157 < i → sub < 256 → t.domain i sub = s.domain i sub) ∧
       t = { s with index := t.index, domains := t.domains, lastStatus := 0, lastData := [] }) ∧
     (∃ t, exec .droopClear s = .next t ∧ (∀ q, q < 4 → t.idx 0x9004 q = 0xFFFF) ∧
       (∀ i sub, i ≠ 0x9004 → sub < 256 → t.idx i sub = s.idx i sub) ∧
       t = { s with index := t.index, lastStatus := 0, lastData := [] }))

/-- Scrubbing (R320): a due read of a word that carries an error in one symbol writes it back with a fresh code, and a sound word
stays as it lies; an uncorrectable one stays, is counted and is logged. Either way the pass counts the read and does not read that
word again; no byte of device memory changes as written. Completes scrubRead. The host reaches device memory through 0x7010.00 and
0x7011.00 (R323): a write in the SRAM tiers stores its bytes at that address and no others, a read returns the bytes there and
changes nothing, or is refused where a word is uncorrectable, whose address 0x7012.00 then holds; a write of a protected range is
refused. Completes hostMemoryRead, hostMemoryWrite. Where a command's condition does not hold it changes nothing: the model's
choice (log entry 5). The noted status and data of the last access are the model's own (log entry 6). -/
def Obligations.MemoryIsScrubbedAndReached : Prop :=
  (∀ (s : State) (a pass : Nat), Canonical s → fwf 0 s.mem.scrubbed = true → a % 16 = 0 → a < 0xC80000000 →
     s.clock.phase = .aligned → s.power.clocksStopped = false → s.idx 0x7020 0 ≠ 0 → 0 < s.fabricCycles →
     pass = s.now / (s.idx 0x7020 0 * s.fabricCycles) →
     (s.scrubDone false pass a = true → exec (.scrubRead a) s = .next s) ∧
     (s.scrubDone false pass a = false → s.scrubbed false pass = 0 →
       (s.pattern (a / 16) = 0 → ∃ t, exec (.scrubRead a) s = .next t ∧ t.mem.cells = s.mem.cells ∧ t.mem.errors = s.mem.errors ∧
         t.scrubbed false pass = 1 ∧ t.scrubDone false pass a = true ∧ t.index = s.index ∧ t.cores = s.cores) ∧
       (symbolsHit (s.pattern (a / 16)) = 1 → ∃ t, exec (.scrubRead a) s = .next t ∧ t.pattern (a / 16) = 0 ∧
         (∀ b, t.loadByte b = s.loadByte b) ∧ t.mem.errorLog = s.mem.errorLog ∧ t.scrubbed false pass = 1 ∧ t.scrubDone false pass a = true ∧
         bits (t.idx 0x7001 (tierOf a)) 63 0 = min (bits (s.idx 0x7001 (tierOf a)) 63 0 + 1) (2 ^ 64 - 1)) ∧
       (symbolsHit (s.pattern (a / 16)) = 2 → ∃ t, exec (.scrubRead a) s = .next t ∧ t.mem.cells = s.mem.cells ∧
         t.mem.errors = s.mem.errors ∧ t.scrubbed false pass = 1 ∧ t.scrubDone false pass a = true ∧
         (s.mem.errorLog.length < 256 → t.mem.errorLog.length = s.mem.errorLog.length + 1) ∧
         bits (t.idx 0x7002 (tierOf a)) 63 0 = min (bits (s.idx 0x7002 (tierOf a)) 63 0 + 1) (2 ^ 64 - 1)))) ∧
  (∀ (s : State) (d : Bytes) (n a : Nat), Serves s → Canonical s → a = s.idx 0x7010 0 → a % 8 = 0 →
     (Sound s → d ≠ [] → d.length % 8 = 0 → a + d.length ≤ 0xC80000000 → s.hostProtected a d.length = false →
       ∃ t, exec (.hostMemoryWrite d) s = .next t ∧ t.lastStatus = 0 ∧ (∀ k, k < d.length → t.loadByte (a + k) = d.getD k 0) ∧
         (∀ x, x < a ∨ a + d.length ≤ x → t.loadByte x = s.loadByte x) ∧ t.index = s.index ∧ t.cores = s.cores) ∧
     (0 < d.length → d.length % 8 ≠ 0 ∨ s.hostProtected a d.length = true → a + d.length ≤ 0xC80000000 →
       exec (.hostMemoryWrite d) s = .next (s.noteAccess 1 [])) ∧
     (Sound s → n % 8 = 0 → n ≤ 9176 → a + n ≤ 0xC80000000 →
       exec (.hostMemoryRead n) s = .next (s.noteAccess 0 ((List.range n).map (fun k => s.loadByte (a + k))))) ∧
     (symbolsHit (s.pattern (a / 16)) = 2 → 0 < n → n % 8 = 0 → n ≤ 9176 → a + n ≤ 0xC80000000 →
       ∃ t, exec (.hostMemoryRead n) s = .next t ∧ t.lastStatus = 1 ∧ t.lastData = [] ∧ t.idx 0x7012 0 = a / 16 * 16 ∧
         t.mem.cells = s.mem.cells ∧ t.cores = s.cores))

/-! ### Binding, loading and releasing (chapters 7 and 8) -/

/-- Staging (R195, R197, R310): an image segment stands in the staging region at its offset and extends the staged extent; a
discard zeroes every staged byte; a new staging size moves the staging base below the overflow base and zeroes the staged bytes.
Completes imageSegment, discard, stagingSizeWrite. The noted status and data of the last access are the model's own (log entry 6).
The readings it follows: log entry 28. -/
def Obligations.ImagesAreStaged : Prop :=
  ∀ (s : State) (d : Bytes) (g : BitVec 16), Serves s → Canonical s → s.binding.loaded = false → lpddrBase ≤ s.stagingBase →
    s.stagingBase + s.stagingSize ≤ deviceArea →
    (InLimits s → 9 ≤ d.length → beAt d 0 8 + (d.length - 8) ≤ s.stagingSize →
      ∃ t, exec (.imageSegment d) s = .next t ∧ t.lastStatus = 0 ∧
        (∀ k, k < d.length - 8 → t.loadByte (s.stagingBase + beAt d 0 8 + k) = d.getD (8 + k) 0) ∧
        t.idx 0x5086 0 = max (s.idx 0x5086 0) (beAt d 0 8 + (d.length - 8)) ∧ t.cores = s.cores ∧ t.binding = s.binding) ∧
    (d.length = 8 → beAt d 0 8 ≤ s.stagingSize → exec (.imageSegment d) s = .next (s.noteAccess 0 [])) ∧
    (d.length < 8 ∨ s.stagingSize < beAt d 0 8 + (d.length - 8) → exec (.imageSegment d) s = .next (s.noteAccess 1 [])) ∧
    (∃ t, exec .discard s = .next t ∧ t.idx 0x5086 0 = 0 ∧
      (∀ a, s.stagingBase ≤ a → a < s.stagingBase + s.stagingSize → t.loadByte a = 0) ∧
      (∀ a, a < s.stagingBase → t.loadByte a = s.loadByte a) ∧
      t = { s with index := t.index, mem := t.mem, lastStatus := 0, lastData := [] }) ∧
    (∀ k, k ≤ 64 → s.overflowBase = deviceArea - k * 2 ^ 30 → s.stagingBase = s.overflowBase - s.stagingSize → 16 ≤ g.toNat →
      g.toNat ≤ 256 → s.idx 0x5083 0 ≤ 256 →
      ∃ t, exec (.stagingSizeWrite g) s = .next t ∧ t.idx 0x5083 0 = g.toNat ∧ t.overflowBase = s.overflowBase ∧
        t.stagingBase = s.overflowBase - g.toNat * 2 ^ 30 ∧
        (g.toNat ≠ s.idx 0x5083 0 → t.idx 0x5086 0 = 0 ∧
          ∀ a, t.stagingBase ≤ a → a < t.stagingBase + t.stagingSize → t.loadByte a = 0) ∧
        t = { s with index := t.index, mem := t.mem, lastStatus := 0, lastData := [] })

/-- A load command (R197, R198, R205): a layout fault is refused with code 0x03 and its image offset, an image that fails a check
with that check's code and detail; an image that passes every check and whose sections read is installed, its cores idle, its
digest noted, and one of whose sections a word cannot be read is refused with code 0x16; a load while a binding is loaded, or
without running firmware, is refused by the Index. Completes load. The noted status and data of the last access are the model's
own (log entry 6). The readings it follows: log entries 29 and 30. -/
def Obligations.LoadChecksAndInstalls : Prop :=
  ∀ (s u : State) (b : Bytes) (m : Image) (o : Nat), Serves s → Canonical s → s.stagedImage = (u, b) →
    (s.binding.loaded = false → s.firmwareRunning = true → parseImage b = .error o →
      ∃ t, exec .load s = .next t ∧ t.binding.loaded = false ∧ t.colophonPhase = 2 ∧ t.binding.refusal = 3 ∧
        t.idx 0x5085 0 = o % 2 ^ 64 ∧ t.colophonWord 0x78 = o % 2 ^ 64 ∧ t.cores = s.cores ∧ t.ctxs = s.ctxs ∧
        t.mem.cells = s.mem.cells) ∧
    (∀ code detail, s.binding.loaded = false → s.firmwareRunning = true → parseImage b = .ok m → u.checkImage m = some (code, detail) →
      ∃ t, exec .load s = .next t ∧ t.binding.loaded = false ∧ t.colophonPhase = 2 ∧ t.binding.refusal = code ∧
        t.idx 0x5085 0 = detail % 2 ^ 64 ∧ t.cores = s.cores ∧ t.ctxs = s.ctxs ∧ t.mem.cells = s.mem.cells) ∧
    (s.binding.loaded = false → s.firmwareRunning = true → parseImage b = .ok m → u.checkImage m = none →
      ((u.clearBinding.fillAll m m.stashOf).2 = none →
        ∃ t, exec .load s = .next t ∧ t.lastStatus = 0 ∧ t.binding.loaded = true ∧ t.binding.phase = 3 ∧ t.binding.coresPending = true ∧
          t.domain 0x5084 0 = sha384 m.bytes ∧ t.idx 0x5085 0 = 0 ∧ t.cores = m.coresOf ∧ t.stash = m.stashOf ∧ t.clock.bindingReq = 0) ∧
      (∀ a, (u.clearBinding.fillAll m m.stashOf).2 = some a →
        ∃ t, exec .load s = .next t ∧ t.binding.loaded = false ∧ t.binding.refusal = 0x16 ∧ t.idx 0x5085 0 = a % 2 ^ 64)) ∧
    (s.binding.loaded = true ∨ s.firmwareRunning = false → exec .load s = .next (s.noteAccess 1 []))

/-- R409, whole: a load is refused unless firmware runs, whatever access brings it, and a halt of firmware leaves the binding and
all that runs of it as it was. The noted status and data of the last access are the model's own (log entry 6). -/
def Obligations.LoadsNeedRunningFirmware : Prop :=
  ∀ s : State,
    (Serves s → s.boot.state ≠ 2 → exec .load s = .next (s.noteAccess 1 [])) ∧
    (∀ (s0 : State) (block : Bool) (group : List (Nat × Nat)) (d : Bytes), s.boot.state ≠ 2 → beNat d = 1 →
      s.writeStatus s0 block group 0x5081 0 d ≠ 0) ∧
    (∀ r, ∃ t, exec (.firmwareHalt r) s = .next t ∧ t.binding = s.binding ∧ t.cores = s.cores ∧ t.ctxs = s.ctxs ∧ t.stash = s.stash ∧
      t.mem = s.mem ∧ t.switch = s.switch ∧ t.index = s.index)

/-- The start of a binding's cores (R198): at a boundary at or after the start stitch, every core with a core record runs at its
entry point; a start stitch that has passed sets the late-start bit. Completes coresStart. Release (R199): an accepted release of
a binding whose queues hold nothing stops every core and takes back the step request; an open step fails its unfinished item with
cause 0x0A and its context goes back to idle, its expected sequence as it was (R249); once no started command is left, no binding
is loaded and every context is unbound. Completes bindingRelease, releaseComplete. Where a command's condition does not hold it
changes nothing: the model's choice (log entry 5). The noted status and data of the last access are the model's own (log entry 6).
The readings it follows: log entry 30. -/
def Obligations.BindingsStartAndAreReleased : Prop :=
  (∀ s : State, s.binding.loaded = true → s.binding.coresPending = true → s.binding.heldShadow = false →
     (s.clock.cycle = 0 → s.binding.startStitch ≤ s.clock.stitch →
       ∃ t, exec .coresStart s = .next t ∧ t.binding.coresPending = false ∧
         (∀ c, c < 32 → (s.core c).declared = true → t.core c = { s.core c with run := .running, pc := (s.core c).entry }) ∧
         (∀ c, (s.core c).declared = false → t.core c = s.core c) ∧
         (bit t.binding.flags 19 = true ∨ s.binding.startStitch = 0 ∨ s.binding.startStitch = s.clock.stitch) ∧
         t = { s with cores := t.cores, binding := t.binding } ∧ t.cores.cmds = s.cores.cmds) ∧
     (s.clock.cycle ≠ 0 ∨ s.clock.stitch < s.binding.startStitch → exec .coresStart s = .next s)) ∧
  (∀ s : State,
     (Serves s → Quiet s → s.binding.loaded = true → s.binding.releasing = false →
       ∃ t, exec .bindingRelease s = .next t ∧ t.binding.releasing = true ∧ t.binding.coresPending = false ∧ t.clock.bindingReq = 0 ∧
         (∀ c, c < 32 → (t.core c).run ≠ .running) ∧ (∀ c, (s.core c).run ≠ .running → t.core c = s.core c) ∧
         t = { s with cores := t.cores, binding := t.binding, clock := { s.clock with bindingReq := 0 }, lastStatus := 0, lastData := [] }) ∧
     (∀ n y k, Serves s → Canonical s → Lone n y k s → s.cores.cmds = [k] → s.binding.loaded = true → s.binding.releasing = false →
       (∀ c, (s.core c).run ≠ .running) →
       ∃ t, exec .bindingRelease s = .next t ∧ t.binding.releasing = true ∧ (t.ctx n).state = ctxIdle ∧
         (t.ctx n).expected = y.expected ∧ (t.ctx n).stepCmd = none ∧ t.cmd k.core k.serial = none) ∧
     (Serves s → s.binding.loaded = false → exec .bindingRelease s = .next (s.noteAccess 1 [])) ∧
     (Canonical s → s.binding.releasing = true → s.cores.cmds.any Cmd.started = false →
       ∃ t, exec .releaseComplete s = .next t ∧ t.binding.loaded = false ∧ t.binding.releasing = false ∧
         (∀ n, (t.ctx n).declared = false) ∧ t.cores.regionLoading = [] ∧ t.proof.own = [] ∧ t.proof.partner = []) ∧
     (s.binding.releasing = false ∨ s.cores.cmds.any Cmd.started = true → exec .releaseComplete s = .next s))

/-- Overlays (R192, R193): a load of a declared overlay into a free overlay region begins and notes when; a fixed region or an
overlay not declared for it answers 0x01, a region held or loading 0x02; at the end of the load the overlay's bytes stand in the
region and no fetch waits for it. Completes regionLoad, overlayLoadDone. Where a command's condition does not hold it changes
nothing: the model's choice (log entry 5). The noted status and data of the last access are the model's own (log entry 6). The
readings it follows: log entries 29 and 30. -/
def Obligations.OverlaysAreLoaded : Prop :=
  ∀ (s : State) (k : Fin 256) (o : BitVec 16),
    (Serves s → s.regionStatus k o.toNat = 0 →
      ∃ t, exec (.regionLoad k o) s = .next t ∧ t.lastStatus = 0 ∧
        (fwf (0, 0, 0) s.cores.regionLoading = true →
          fget (0, 0, 0) t.cores.regionLoading k = (o.toNat + 1, s.clock.stitch, s.clock.cycle)) ∧
        t = { s with cores := { s.cores with regionLoading := t.cores.regionLoading }, lastStatus := 0, lastData := [] }) ∧
    (Serves s → s.binding.loaded = false ∨ fget 0 s.cores.regionKind k ≠ 2 ∨ s.overlayFor k o.toNat = none →
      exec (.regionLoad k o) s = .next (s.noteAccess 1 [])) ∧
    (Serves s → s.binding.loaded = true → fget 0 s.cores.regionKind k = 2 → s.overlayFor k o.toNat ≠ none →
      fget (0, 0, 0) s.cores.regionLoading k ≠ (0, 0, 0) → exec (.regionLoad k o) s = .next (s.noteAccess 2 [])) ∧
    (∀ n c off len, s.binding.loaded = true → fget (0, 0, 0) s.cores.regionLoading k = (o.toNat + 1, n, c) →
      s.overlayFor k o.toNat = some (off, len) → fwf (0, 0, 0) s.cores.regionLoading = true → fwf 0xFFFF s.cores.regionOverlay = true →
      ∃ t, exec (.overlayLoadDone k) s = .next t ∧ fget (0, 0, 0) t.cores.regionLoading k = (0, 0, 0) ∧
        fget 0xFFFF t.cores.regionOverlay k = o.toNat ∧ (∀ c, t.core c = s.core c) ∧ t.cores.cmds = s.cores.cmds ∧ t.clock = s.clock ∧
        (Canonical s → Sound s → InLimits s → lpddrBase ≤ s.stagingBase + off → (s.stagingBase + off) % 16 = 0 →
          s.stagingBase + off + len ≤ deviceArea → len ≤ regionBytes →
          ∀ j, j < len → t.loadByte (imemBase + k.val / 64 * 0x800000 + k.val % 64 * regionBytes + j) =
            s.loadByte (s.stagingBase + off + j))) ∧
    (fget (0, 0, 0) s.cores.regionLoading k = (0, 0, 0) → exec (.overlayLoadDone k) s = .next s)

/-- A core is stopped by command (R182): it is stopped with an empty window, its registers and program counter as they were, and a
command of its that has not started is squashed and counted in 0x5069.SS; a core that does not run does not change; any other
value than 0x01 is not a stop. Completes stopCore. A completion ring's consumer index (R185, R186): a value between the consumer
and the producer stands in the ring's header, any other is refused, and so is every one while the consumer is past the producer;
no core changes. Completes consumerIndex. The noted status and data of the last access are the model's own (log entry 6). -/
def Obligations.CoresAndRingsByCommand : Prop :=
  (∀ (s : State) (c : CoreId) (b : Byte), Serves s →
     (Quiet s → (s.core c).run = .running →
       ∃ t, exec (.stopCore c) s = .next t ∧ (t.core c).run = .stopped ∧ (t.core c).window = [] ∧ (t.core c).regs = (s.core c).regs ∧
         (t.core c).pc = (s.core c).pc ∧ (t.core c).stalled = none ∧ (t.core c).halt.getD 1 0 = s.clock.stitch % 2 ^ 64 ∧
         (∀ k, k ≠ c.val → t.core k = s.core k) ∧
         t = { s with cores := t.cores, lastStatus := 0, lastData := [] }) ∧
     (∀ k, Canonical s → s.ctxs = [] → s.cores.cmds = [k] → k.core = c.val → k.phase = .queued → (s.core c).run = .running →
       (s.core c).ringSize = 0 → (s.core c).records = [] →
       ∃ t, exec (.stopCore c) s = .next t ∧ (t.core c).run = .stopped ∧ t.cores.cmds = [] ∧
         bits (t.idx 0x5069 c) 63 0 = min (bits (s.idx 0x5069 c) 63 0 + 1) (2 ^ 64 - 1) ∧ t.mem = s.mem) ∧
     (s.ctxs = [] → (s.core c).run ≠ .running → exec (.stopCore c) s = .next (s.noteAccess 0 [])) ∧
     (b ≠ 1 → exec (.registerWrite 0x5073 (BitVec.ofNat 8 c) [b]) s = .next (s.noteAccess 1 []))) ∧
  (∀ (s : State) (c : CoreId) (v : BitVec 64) (ahead : Nat), Serves s → (s.core c).ringSize ≠ 0 →
     ahead = subMod 64 (s.core c).producer (s.peek64 ((s.core c).ringBase + 8)) →
     (Canonical s → Sound s → (s.core c).ringBase % 64 = 0 → (s.core c).ringBase < 0xC80000000 → ahead < 2 ^ 63 →
       subMod 64 v.toNat (s.peek64 ((s.core c).ringBase + 8)) ≤ ahead →
       ∃ t, exec (.consumerIndex c v) s = .next t ∧ t.peek64 ((s.core c).ringBase + 8) = v.toNat ∧
         t.peek64 (s.core c).ringBase = s.peek64 (s.core c).ringBase ∧ t.cores = s.cores ∧ t.lastStatus = 0 ∧ t.index = s.index) ∧
     (2 ^ 63 ≤ ahead ∨ ahead < subMod 64 v.toNat (s.peek64 ((s.core c).ringBase + 8)) →
       exec (.consumerIndex c v) s = .next (s.noteAccess 1 [])))

/-- Contexts by command (R219, R258): a reset returns a fenced context to idle; an open one fails its unfinished item with cause
0x0A, completes its CSTEP and becomes idle, unclean; a restart of an idle one sets its expected sequence, not clean, with nothing
held ahead; both are refused for a context that is not bound, and a restart for one that is not idle. Completes contextReset,
contextRestart. A run fails by command (R389, R390): with the run's own number, once, while a binding is loaded: the record is
written, every core stops, an open step fails its unfinished item and closes unclean, the colophon's phase is 0x06, and what any
context sends from then on leaves with cause 0x0B; any other number is refused, and a run that has failed does not fail again.
Completes runFail. The noted status and data of the last access are the model's own (log entry 6). The readings it follows: log
entry 24. -/
def Obligations.ContextsAndRunsByCommand : Prop :=
  (∀ (s : State) (x : CtxId) (v : BitVec 32), Serves s → Canonical s →
     ((s.ctx x).declared = true → (s.ctx x).state = ctxFenced →
       exec (.contextReset x) s = .next ((s.setCtx x { s.ctx x with state := ctxIdle }).noteAccess 0 [])) ∧
     (∀ y k, Lone x.val y k s → s.binding.releasing = false →
       ∃ t, exec (.contextReset x) s = .next t ∧ t.lastStatus = 0 ∧ (t.ctx x).state = ctxIdle ∧ (t.ctx x).unclean = true ∧
         (t.ctx x).expected = (y.sequence + 1) % 2 ^ 32 ∧ (t.ctx x).stepCmd = none ∧ t.cmd k.core k.serial = none) ∧
     ((s.ctx x).declared = true → (s.ctx x).state = ctxIdle → exec (.contextReset x) s = .next (s.noteAccess 0 [])) ∧
     ((s.ctx x).declared = true → (s.ctx x).state = ctxIdle →
       ∃ t, exec (.contextRestart x v) s = .next t ∧ t.lastStatus = 0 ∧ (t.ctx x).expected = v.toNat ∧ (t.ctx x).unclean = true ∧
         (t.ctx x).memberFailed = false ∧ (t.ctx x).cursor = 0 ∧ (t.ctx x).lead = [] ∧ (t.ctx x).state = ctxIdle ∧
         (∀ y, y ≠ x.val → t.ctx y = s.ctx y) ∧ t.cores = s.cores) ∧
     ((s.ctx x).declared = false → exec (.contextReset x) s = .next (s.noteAccess 1 []) ∧
       exec (.contextRestart x v) s = .next (s.noteAccess 1 [])) ∧
     ((s.ctx x).state ≠ ctxIdle → exec (.contextRestart x v) s = .next (s.noteAccess 1 []))) ∧
  (∀ (s : State) (v : BitVec 32), Serves s →
     (Quiet s → Canonical s → s.binding.loaded = true → v.toNat ≠ 0 → v.toNat = s.idx 0x8030 0 → s.runFailed = false →
       ∃ t, exec (.runFail v) s = .next t ∧ t.lastStatus = 0 ∧ t.idx 0x8033 0 = 2 ^ 63 + 2 ^ 61 + s.clock.stitch % 2 ^ 48 ∧
         t.binding.phase = 6 ∧ (∀ c, c < 32 → (t.core c).run ≠ .running) ∧ (∀ c, (s.core c).run ≠ .running → t.core c = s.core c) ∧
         (∀ n, n < 4096 → t.leavingCause n = 0x0B) ∧
         t.proof.phase = (if 1 ≤ s.proof.phase ∧ s.proof.phase ≤ 4 then 7 else s.proof.phase) ∧ t.mem = s.mem) ∧
     (∀ n y k, Canonical s → Lone n y k s → s.cores.cmds = [k] → s.binding.loaded = true → s.binding.releasing = false →
       (∀ c, (s.core c).run ≠ .running) → v.toNat ≠ 0 → v.toNat = s.idx 0x8030 0 → s.runFailed = false →
       ∃ t, exec (.runFail v) s = .next t ∧ t.lastStatus = 0 ∧ t.runFailed = true ∧ (t.ctx n).state = ctxIdle ∧
         (t.ctx n).unclean = true ∧ (t.ctx n).expected = (y.sequence + 1) % 2 ^ 32 ∧ t.cmd k.core k.serial = none) ∧
     (s.binding.loaded = true → v.toNat ≠ 0 → v.toNat = s.idx 0x8030 0 → s.runFailed = true →
       exec (.runFail v) s = .next (s.noteAccess 0 [])) ∧
     (s.binding.loaded = false ∨ v.toNat = 0 ∨ v.toNat ≠ s.idx 0x8030 0 → exec (.runFail v) s = .next (s.noteAccess 1 [])))

/-! ### Firmware and attestation (chapter 19) -/

/-- The firmware store by command (R406, R407): a segment stands in the staging half; a discard empties it; a boot command begins
the checks at the next boundary, and firmware that runs is no longer running; all are refused while checks run, and a boot command
while a binding is loaded. Completes firmwareSegment, firmwareDiscard, firmwareBoot. The noted status and data of the last access
are the model's own (log entry 6). The readings it follows: log entry 31. -/
def Obligations.FirmwareIsStagedAndBooted : Prop :=
  ∀ (s : State) (d : Bytes), Serves s →
    (s.boot.state ≠ 1 → 8 ≤ d.length → beAt d 0 8 + (d.length - 8) ≤ 4194304 → s.mem.firmware.length = 2 → s.boot.runningHalf ≤ 1 →
      ∃ t, exec (.firmwareSegment d) s = .next t ∧ t.lastStatus = 0 ∧
        t.firmwareHalf s.stagingHalf =
          (if d.length = 8 then s.firmwareHalf s.stagingHalf else patch (s.firmwareHalf s.stagingHalf) (beAt d 0 8) (d.drop 8)) ∧
        t.firmwareHalf (1 - s.stagingHalf) = s.firmwareHalf (1 - s.stagingHalf) ∧ t.boot = s.boot ∧ t.index = s.index) ∧
    (s.boot.state ≠ 1 → s.mem.firmware.length = 2 → s.boot.runningHalf ≤ 1 →
      ∃ t, exec .firmwareDiscard s = .next t ∧ t.lastStatus = 0 ∧ t.firmwareHalf s.stagingHalf = [] ∧
        t.firmwareHalf (1 - s.stagingHalf) = s.firmwareHalf (1 - s.stagingHalf) ∧ t.boot = s.boot ∧ t.index = s.index) ∧
    (Canonical s → s.boot.state ≠ 1 → s.binding.loaded = false →
      ∃ t, exec .firmwareBoot s = .next t ∧ t.lastStatus = 0 ∧ t.idx 0xA017 0 = 0 ∧ t.idx 0xA018 0 = 0 ∧
        t.firmwareRunning = false ∧ t.firmwareChecking = true ∧
        t.boot = { s.boot with
          state := 1, wasRunning := s.boot.state == 2, recheck := false, stage := 1, due := 200 * (s.reference / 200 + 1) } ∧
        t = { s with boot := t.boot, index := t.index, lastStatus := 0, lastData := [] }) ∧
    (s.boot.state = 1 → exec .firmwareBoot s = .next (s.noteAccess 1 []) ∧ exec .firmwareDiscard s = .next (s.noteAccess 1 []) ∧
      (exec (.firmwareSegment d) s = .next (s.noteAccess 1 []))) ∧
    (s.binding.loaded = true → exec .firmwareBoot s = .next (s.noteAccess 1 []))

/-- The boot checks (Table 19.4, R408). Until a check is due nothing happens. A sound, authorized image of an allowed version goes
on to its digest after one reference cycle for each 8 bytes; a key that no fuse names fails with code 0x02; a digest that agrees
goes on to the signature, one that the allowance rejects fails with 0x04; a signature that verifies passes, one that does not
fails with 0x05, and where firmware ran before, the half that ran is checked again; an image that passed starts at the next
boundary in its half. Completes bootChecksDecided, firmwareDigestDone, signatureCheckDone, firmwareStart. Where a command's
condition does not hold it changes nothing: the model's choice (log entry 5). The readings it follows: log entry 31. -/
def Obligations.BootChecksRunInOrder : Prop :=
  ∀ (s : State) (b : Bytes) (n t0 : Nat), b = s.firmwareHalf s.checkedHalf → n = leAt b 0x10 4 → t0 = s.boot.due →
    s.mem.firmwareErrors = [] →
    (s.reference < t0 → exec .bootChecksDecided s = .next s ∧ exec .firmwareDigestDone s = .next s ∧
      exec .signatureCheckDone s = .next s ∧ exec .firmwareStart s = .next s) ∧
    (s.boot.stage = 1 → t0 ≤ s.reference → firmwareFault b = none →
      (s.dev.fusedFirmwareKeys.any (fun k => k.any (· != 0) && slice k 0 48 == sha384 (slice b (n - 208) 97)) = true →
        s.dev.minSecurityVersion ≤ leAt b 0x0C 4 →
        exec .bootChecksDecided s = .next { s with boot := { s.boot with stage := 2, due := t0 + ceilDiv (n - 208) 8 } }) ∧
      (s.dev.fusedFirmwareKeys.any (fun k => k.any (· != 0) && slice k 0 48 == sha384 (slice b (n - 208) 97)) = false →
        s.boot.wasRunning = false → s.boot.recheck = false → s.boot.reportState ≠ 1 →
        ∃ t, exec .bootChecksDecided s = .next t ∧ t.boot = { s.boot with refusal := 2, state := 3, stage := 0 } ∧ t.mem = s.mem)) ∧
    (s.boot.stage = 2 → t0 ≤ s.reference → (s.entryBytes 0xA013 0).any (· != 0) = false ∨
      s.entryBytes 0xA013 0 = sha384 (b.take (n - 208)) →
      exec .firmwareDigestDone s = .next { s with boot := { s.boot with
        stage := 3, digest := sha384 (b.take (n - 208)), due := max t0 s.boot.engineFree + 204800,
        engineFree := max t0 s.boot.engineFree + 204800 } }) ∧
    (s.boot.stage = 2 → t0 ≤ s.reference → (s.entryBytes 0xA013 0).any (· != 0) = true →
      s.entryBytes 0xA013 0 ≠ sha384 (b.take (n - 208)) → s.boot.wasRunning = false → s.boot.recheck = false →
      s.boot.reportState ≠ 1 →
      ∃ t, exec .firmwareDigestDone s = .next t ∧ t.boot = { s.boot with refusal := 4, state := 3, stage := 0 } ∧ t.mem = s.mem) ∧
    (s.boot.stage = 3 → t0 ≤ s.reference → s.boot.reportState ≠ 1 →
      (ecdsaVerify (slice b (n - 208) 97) s.boot.digest (slice b (n - 96) 96) = true →
        exec .signatureCheckDone s = .next { s with boot := { s.boot with stage := 4, due := 200 * (t0 / 200 + 1) } }) ∧
      (ecdsaVerify (slice b (n - 208) 97) s.boot.digest (slice b (n - 96) 96) = false → s.boot.wasRunning = false →
        s.boot.recheck = false →
        ∃ t, exec .signatureCheckDone s = .next t ∧ t.boot = { s.boot with refusal := 5, state := 3, stage := 0 } ∧ t.mem = s.mem) ∧
      (ecdsaVerify (slice b (n - 208) 97) s.boot.digest (slice b (n - 96) 96) = false → s.boot.wasRunning = true →
        s.boot.recheck = false →
        ∃ t, exec .signatureCheckDone s = .next t ∧
          t.boot = { s.boot with refusal := 5, recheck := true, stage := 1, due := 200 * (t0 / 200 + 1) } ∧ t.mem = s.mem)) ∧
    (s.boot.stage = 4 → t0 ≤ s.reference →
      ∃ t, exec .firmwareStart s = .next t ∧ t.boot.state = 2 ∧ t.boot.stage = 0 ∧ t.boot.runningHalf = s.checkedHalf ∧
        t.boot.everRan = true ∧ t.firmwareRunning = true ∧ t.boot.contexts.map Prod.fst = (List.range 4).map (fun q => leAt b (0x18 + 4 * q) 4) ∧
        t = { s with boot := t.boot, mem := t.mem, domains := t.domains })

/-- A halt of firmware (R411) and attestation (R417): a halt that a running firmware takes notes its reason, and firmware that is
absent requests step 0x02; a nonce is taken with the snapshot of that moment while no report is being signed, and the report is
ready when the engine is done; nothing else changes. Completes firmwareHalt, attestationNonce, reportReady. Where a command's
condition does not hold it changes nothing: the model's choice (log entry 5). The noted status and data of the last access are the
model's own (log entry 6). The readings it follows: log entries 2 and 31. -/
def Obligations.FirmwareHaltsAndReports : Prop :=
  ∀ (s : State) (r : BitVec 8) (nonce : Bytes),
    (s.boot.state = 2 → exec (.firmwareHalt r) s = .next { s with boot := { s.boot with state := 4, haltReason := r.toNat } }) ∧
    (s.boot.state = 2 → s.clock.phase = .aligned → ∃ t, exec (.firmwareHalt r) s = .next t ∧ t.firmwareRunning = false ∧
      2 ≤ t.stepRequested) ∧
    (s.boot.state ≠ 2 → exec (.firmwareHalt r) s = .next s) ∧
    (Serves s → s.boot.reportState ≠ 1 → nonce.length = 32 →
      ∃ t, exec (.attestationNonce nonce) s = .next t ∧ t.boot.nonce = nonce ∧ t.boot.report = s.snapshot nonce ∧ t.boot.reportState = 1 ∧
        t = { s with boot := t.boot, lastStatus := 0, lastData := [] } ∧ t.boot.state = s.boot.state) ∧
    (Serves s → s.boot.reportState = 1 → nonce.length = 32 → exec (.attestationNonce nonce) s = .next (s.noteAccess 1 [])) ∧
    (s.boot.reportState = 1 → s.boot.reportDue ≠ 0 → s.boot.reportDue ≤ s.reference →
      ∃ t, exec .reportReady s = .next t ∧ t.boot.reportState = 2 ∧ t.boot.issued = s.boot.issued + 1 ∧
        t.boot.report.take s.boot.report.length = s.boot.report ∧ t.boot.report.length = s.boot.report.length + 96 ∧
        t = { s with boot := t.boot, freshCount := t.freshCount }) ∧
    (s.reference < s.boot.reportDue → exec .reportReady s = .next s)

/-! ### The control instructions of a core (chapters 6 and 7) -/

/-- Table 6.5: the fifteen scalar operations and the six branch conditions, on 64-bit words. -/
def Obligations.ScalarOperationsAreThoseOfTheTable : Prop :=
  ∀ a b : BitVec 64,
    scalarOp 0x00 a.toNat b.toNat = (a + b).toNat ∧ scalarOp 0x01 a.toNat b.toNat = (a - b).toNat ∧
    scalarOp 0x02 a.toNat b.toNat = (a * b).toNat ∧ scalarOp 0x03 a.toNat b.toNat = (a &&& b).toNat ∧
    scalarOp 0x04 a.toNat b.toNat = (a ||| b).toNat ∧ scalarOp 0x05 a.toNat b.toNat = (a ^^^ b).toNat ∧
    scalarOp 0x06 a.toNat b.toNat = (a <<< (b.toNat % 64)).toNat ∧ scalarOp 0x07 a.toNat b.toNat = (a >>> (b.toNat % 64)).toNat ∧
    scalarOp 0x08 a.toNat b.toNat = (a.sshiftRight (b.toNat % 64)).toNat ∧
    scalarOp 0x09 a.toNat b.toNat = (if a.toInt ≤ b.toInt then a else b).toNat ∧
    scalarOp 0x0A a.toNat b.toNat = (if a.toInt ≤ b.toInt then b else a).toNat ∧
    scalarOp 0x0B a.toNat b.toNat = min a.toNat b.toNat ∧ scalarOp 0x0C a.toNat b.toNat = max a.toNat b.toNat ∧
    scalarOp 0x0D a.toNat b.toNat = (if a.toInt < b.toInt then 1 else 0) ∧
    scalarOp 0x0E a.toNat b.toNat = (if a.toNat < b.toNat then 1 else 0) ∧
    (branchTaken 0 a.toNat b.toNat = true ↔ a = b) ∧ (branchTaken 1 a.toNat b.toNat = true ↔ a ≠ b) ∧
    (branchTaken 2 a.toNat b.toNat = true ↔ a.toInt < b.toInt) ∧ (branchTaken 3 a.toNat b.toNat = true ↔ b.toInt ≤ a.toInt) ∧
    (branchTaken 4 a.toNat b.toNat = true ↔ a < b) ∧ (branchTaken 5 a.toNat b.toNat = true ↔ b ≤ a)

/-- NOP, SOP, LDI and RDQ (R144, R174): the core goes on at the next instruction; the last three write rd, and a write of register
0 is discarded. Nothing else changes. Completes nop, sop, ldi, rdq. -/
def Obligations.RegisterInstructionsWriteTheirRegister : Prop :=
  ∀ (s f : State) (c : CoreId) (w : Nat), fwf 0 (s.core c).regs = true →
    (Takes s c 0x00 w f → ∃ t, exec (.nop c) s = .next t ∧ OnlyCore c f t ∧ GoesOn c ((s.core c).pc + 1) w s t ∧
      (t.core c).regs = (s.core c).regs ∧ (t.core c).descs = (s.core c).descs ∧ (t.core c).sigs = (s.core c).sigs) ∧
    (Takes s c 0x04 w f → wSub w % 128 ≤ 0x0E →
      ∃ t, exec (.sop c) s = .next t ∧ OnlyCore c f t ∧ GoesOn c ((s.core c).pc + 1) w s t ∧
        RegSet c (wRd w) (scalarOp (wSub w % 128) ((s.core c).reg (wRa w))
          (if bit (wSub w) 7 then wImm w else (s.core c).reg (wRb w)) % 2 ^ 64) s t ∧
        (t.core c).descs = (s.core c).descs ∧ (t.core c).sigs = (s.core c).sigs) ∧
    (Takes s c 0x05 w f → ∃ t, exec (.ldi c) s = .next t ∧ OnlyCore c f t ∧ GoesOn c ((s.core c).pc + 1) w s t ∧
      RegSet c (wRd w) (wImm w) s t ∧ (t.core c).descs = (s.core c).descs ∧ (t.core c).sigs = (s.core c).sigs) ∧
    (∀ u, Takes s c 0x0A w f → u = (if bit (wAux w) 8 then (s.core c).reg (wRa w) % 256 else wAux w % 256) →
      ∃ t, exec (.rdq c) s = .next t ∧ OnlyCore c f t ∧ GoesOn c ((s.core c).pc + 1) w s t ∧
      RegSet c (wRd w) (if s.present u = false then 0 else (64 * 2 ^ 56 + (s.queueOf c u).length * 2 ^ 48 +
        (64 - (s.queueOf c u).length) * 2 ^ 40 + ((s.queueOf c u).filter s.heldCmd).length * 2 ^ 32 +
        fget 0 (s.core c).completions u) % 2 ^ 64) s t ∧
      (t.core c).descs = (s.core c).descs ∧ (t.core c).sigs = (s.core c).sigs)

/-- JMP and BR (R145, R189): a target within the core's fetch regions is the next program counter; one outside them halts the core
with reason 0x03 and the target; a branch not taken goes on at the next instruction. Completes jmp, br. -/
def Obligations.JumpsStayInTheRegions : Prop :=
  ∀ (s f : State) (c : CoreId) (w x : Nat),
    (Takes s c 0x02 w f → x = ((s.core c).reg (wRa w) + wImm w) % 2 ^ 64 →
      ((s.core c).inRegions x = true → ∃ t, exec (.jmp c) s = .next t ∧ OnlyCore c f t ∧ GoesOn c x w s t ∧
        (t.core c).regs = (s.core c).regs ∧ (t.core c).descs = (s.core c).descs ∧ (t.core c).sigs = (s.core c).sigs) ∧
      ((s.core c).inRegions x = false → Quiet s → ∃ t, exec (.jmp c) s = .next t ∧ OnlyCore c f t ∧ Halts c 0x03 x s t)) ∧
    (Takes s c 0x03 w f → wSub w ≤ 5 →
      (branchTaken (wSub w) ((s.core c).reg (wRa w)) ((s.core c).reg (wRb w)) = true → (s.core c).inRegions (wImm w) = true →
        ∃ t, exec (.br c) s = .next t ∧ OnlyCore c f t ∧ GoesOn c (wImm w) w s t ∧ (t.core c).regs = (s.core c).regs ∧
          (t.core c).descs = (s.core c).descs ∧ (t.core c).sigs = (s.core c).sigs) ∧
      (branchTaken (wSub w) ((s.core c).reg (wRa w)) ((s.core c).reg (wRb w)) = true → (s.core c).inRegions (wImm w) = false → Quiet s →
        ∃ t, exec (.br c) s = .next t ∧ OnlyCore c f t ∧ Halts c 0x03 (wImm w) s t) ∧
      (branchTaken (wSub w) ((s.core c).reg (wRa w)) ((s.core c).reg (wRb w)) = false →
        ∃ t, exec (.br c) s = .next t ∧ OnlyCore c f t ∧ GoesOn c ((s.core c).pc + 1) w s t ∧ (t.core c).regs = (s.core c).regs ∧
          (t.core c).descs = (s.core c).descs ∧ (t.core c).sigs = (s.core c).sigs))

/-- LDS and STS (R145, R304, R312): a load takes eight bytes, or one accumulator entry, into rd; a store puts rb into the eight
bytes at its address and nowhere else; a misaligned address halts with reason 0x07 and the address. Completes lds, sts. -/
def Obligations.ScalarLoadsAndStores : Prop :=
  ∀ (s f : State) (c : CoreId) (w a : Nat), (s.core c).runAhead = false → a = ((s.core c).reg (wRa w) + wImm w) % 2 ^ 64 →
    fwf 0 (s.core c).regs = true → Canonical s → InLimits s →
    (Takes s c 0x06 w f → a % 8 = 0 → f.inData a 8 = true → f.pattern (a / 16) = 0 → windowAt a = none →
      ∃ t, exec (.lds c) s = .next t ∧ OnlyCore c f t ∧ GoesOn c ((s.core c).pc + 1) w s t ∧ RegSet c (wRd w) (f.peek64 a) s t) ∧
    (∀ u r k, Takes s c 0x06 w f → a % 8 = 0 → windowAt a = some (u, r, k) → s.present u = true → s.rowWritten u r = false →
      ∃ t, exec (.lds c) s = .next t ∧ OnlyCore c f t ∧ GoesOn c ((s.core c).pc + 1) w s t ∧
        RegSet c (wRd w) (f.acc u r k % 2 ^ 64) s t) ∧
    (Takes s c 0x06 w f → a % 8 ≠ 0 → Quiet s → ∃ t, exec (.lds c) s = .next t ∧ OnlyCore c f t ∧ Halts c 0x07 a s t) ∧
    (Takes s c 0x07 w f → Sound s → a % 8 = 0 → f.inData a 8 = true → a + 8 ≤ deviceArea →
      f.spanWeights ((a : Int), (a : Int) + 8) = false →
      ∃ t, exec (.sts c) s = .next t ∧ GoesOn c ((s.core c).pc + 1) w s t ∧ (t.core c).regs = (s.core c).regs ∧
        (∀ k, k ≠ c.val → t.core k = s.core k) ∧ t.peek64 a = (s.core c).reg (wRb w) % 2 ^ 64 ∧
        (∀ x, canon x < a ∨ a + 8 ≤ canon x → t.loadByte x = s.loadByte x) ∧ t.index = f.index ∧ t.clock = s.clock) ∧
    (∀ u r k, Takes s c 0x07 w f → a % 8 = 0 → windowAt a = some (u, r, k) → s.present u = true → s.rowWritten u r = false →
      ∃ t, exec (.sts c) s = .next t ∧ GoesOn c ((s.core c).pc + 1) w s t ∧ (t.core c).regs = (s.core c).regs ∧
        t.acc u r k = (s.core c).reg (wRb w) % 2 ^ 36 ∧ t.mem.cells = s.mem.cells) ∧
    (Takes s c 0x07 w f → a % 8 ≠ 0 → Quiet s → ∃ t, exec (.sts c) s = .next t ∧ OnlyCore c f t ∧ Halts c 0x07 a s t)

/-- LDD and SETD (R146): a descriptor takes the 160 bytes at its address, or one base or trip count; every other descriptor and
every register stays. Completes ldd, setd. -/
def Obligations.DescriptorsAreSet : Prop :=
  ∀ (s f : State) (c : CoreId) (w v : Nat), fwf 0 (s.core c).descs = true → v = ((s.core c).reg (wRa w) + wImm w) % 2 ^ 64 →
    wSub w ≤ 63 →
    (Takes s c 0x08 w f → (s.core c).runAhead = false → v % 16 = 0 → f.inData v 160 = true → Sound f → InLimits f →
      ∃ t, exec (.ldd c) s = .next t ∧ OnlyCore c f t ∧ GoesOn c ((s.core c).pc + 1) w s t ∧ (t.core c).regs = (s.core c).regs ∧
        fget 0 (t.core c).descs (wSub w) = leNat ((List.range 160).map (fun k => f.loadByte (v + k))) ∧
        ∀ k, k ≠ wSub w → fget 0 (t.core c).descs k = fget 0 (s.core c).descs k) ∧
    (∀ i, Takes s c 0x09 w f → i = wAux w % 16 → i ≤ 9 → (i ≤ 3 → v < 2 ^ 48) → (3 < i → v < 2 ^ 24) →
      ∃ t, exec (.setd c) s = .next t ∧ OnlyCore c f t ∧ GoesOn c ((s.core c).pc + 1) w s t ∧ (t.core c).regs = (s.core c).regs ∧
        (∀ k, k ≠ wSub w → fget 0 (t.core c).descs k = fget 0 (s.core c).descs k) ∧
        (∀ d d', d = fget 0 (s.core c).descs (wSub w) → d' = fget 0 (t.core c).descs (wSub w) →
          (i ≤ 3 → dBase d' i = v ∧ (∀ g, g ≤ 3 → g ≠ i → dBase d' g = dBase d g) ∧ ∀ l, l ≤ 5 → dTrip d' l = dTrip d l) ∧
          (3 < i → dTrip d' (i - 4) = v ∧ (∀ l, l ≤ 5 → l ≠ i - 4 → dTrip d' l = dTrip d l) ∧ ∀ g, g ≤ 3 → dBase d' g = dBase d g)))

/-- SYNC, WAITC, WAITST, SIG and END (R147, R148, R177, R178, R180): a point enters the window; a SIG is recorded with the
commands and points before it; a WAITST that is the oldest point and past its deadline halts the core with 0x0B; END ends a core
whose window is empty. Completes sync, waitc, waitst, sig, endCore. -/
def Obligations.PointsEnterTheWindow : Prop :=
  ∀ (s f : State) (c : CoreId) (w : Nat),
    (Takes s c 0x0B w f → ∃ t, exec (.sync c) s = .next t ∧ OnlyCore c f t ∧ Points c w (.sync (wAux w % 256)) s t) ∧
    (Takes s c 0x0D w f → ∃ t, exec (.waitc c) s = .next t ∧ OnlyCore c f t ∧
      Points c w (.waitc (wSub w) ((s.core c).reg (wRa w))) s t) ∧
    (Takes s c 0x0E w f → bit (wAux w) 16 = false ∨ (s.core c).window ≠ [] ∨
        s.clock.stitch ≤ (s.core c).reg (wRa w) + wAux w % 65536 →
      ∃ t, exec (.waitst c) s = .next t ∧ OnlyCore c f t ∧
        Points c w (.waitst ((s.core c).reg (wRa w)) (bit (wAux w) 16) (wAux w % 65536)) s t) ∧
    (Takes s c 0x0E w f → Quiet s → bit (wAux w) 16 = true → (s.core c).window = [] →
        (s.core c).reg (wRa w) + wAux w % 65536 < s.clock.stitch →
      ∃ t, exec (.waitst c) s = .next t ∧ OnlyCore c f t ∧ Halts c 0x0B (s.clock.stitch % 2 ^ 64) s t) ∧
    (Takes s c 0x0C w f → ∃ t, exec (.sig c) s = .next t ∧ OnlyCore c f t ∧ GoesOn c ((s.core c).pc + 1) w s t ∧
      (t.core c).sigs = (s.core c).sigs ++ [⟨wSub w, (s.core c).serial, (s.core c).syncIssued⟩] ∧
      (t.core c).regs = (s.core c).regs ∧ (t.core c).descs = (s.core c).descs) ∧
    (Takes s c 0x01 w f → (s.core c).window = [] → ∃ t, exec (.endCore c) s = .next t ∧ OnlyCore c f t ∧
      t.core c = { s.core c with run := .ended, refs := [], pc := (s.core c).pc + 1 }) ∧
    (Takes s c 0x01 w f → (s.core c).window ≠ [] → ∃ t, exec (.endCore c) s = .next t ∧ OnlyCore c f t ∧ Points c w .endPoint s t)

/-- The commit of the oldest point (R177, R178): where its condition holds it leaves the window with what follows it up to the
next point; an END ends the core; where its condition does not hold nothing changes. Completes syncPointCommit. SIG_APPLY (R147,
R178): the oldest recorded SIG of a core adds one to its sync counter once the points and commands before it are done. Completes
sigApply. Where a command's condition does not hold it changes nothing: the model's choice (log entry 5). -/
def Obligations.PointsAndSigsTakeEffectInOrder : Prop :=
  (∀ (s : State) (c : CoreId) (e : WinEntry) (rest : List WinEntry), (s.core c).window = e :: rest → (s.core c).run = .running →
     (s.pointHolds c e = true → e.point = some .endPoint → ∃ t, exec (.syncPointCommit c) s = .next t ∧ OnlyCore c s t ∧
       (t.core c).run = .ended ∧ (t.core c).window = [] ∧ (t.core c).syncDone = (s.core c).syncDone + 1 ∧
       (t.core c).regs = (s.core c).regs ∧ (t.core c).pc = (s.core c).pc) ∧
     (s.pointHolds c e = true → e.point ≠ some .endPoint → (∀ r, (rest.dropWhile (fun r => r.point.isNone)).head? = some r → s.late r.point = false) →
       ∃ t, exec (.syncPointCommit c) s = .next t ∧ OnlyCore c s t ∧
       (t.core c).run = .running ∧ (t.core c).window = rest.dropWhile (fun r => r.point.isNone) ∧
       (t.core c).syncDone = (s.core c).syncDone + 1 ∧ (t.core c).regs = (s.core c).regs ∧ (t.core c).pc = (s.core c).pc ∧
       (t.core c).sigs = (s.core c).sigs) ∧
     (s.pointHolds c e = false → exec (.syncPointCommit c) s = .next s) ∧
     (∀ u, e.point = some (.sync u) → (s.pointHolds c e = true ↔
       ∀ k ∈ s.cores.cmds, k.core = c.val → k.serial < e.serial → u = 0xFF ∨ k.unit = u → k.phase = .done)) ∧
     (∀ n v, e.point = some (.waitc n v) → (s.pointHolds c e = true ↔ v ≤ fget 0 s.cores.syncs n)) ∧
     (∀ n d g, e.point = some (.waitst n d g) → (s.pointHolds c e = true ↔ n ≤ s.clock.stitch))) ∧
  (∀ (s : State) (c : CoreId) (g : SigRec) (rest : List SigRec), (s.core c).sigs = g :: rest →
     ((s.core c).declared = true → g.behind ≤ (s.core c).syncDone →
       (∀ k ∈ s.cores.cmds, k.core = c.val → k.serial < g.serial → k.phase = .done) → s.proofing = false →
       fwf 0 s.cores.syncs = true →
       ∃ t, exec (.sigApply c) s = .next t ∧ fget 0 t.cores.syncs g.counter = min (fget 0 s.cores.syncs g.counter + 1) (2 ^ 64 - 1) ∧
         (∀ n, n ≠ g.counter → fget 0 t.cores.syncs n = fget 0 s.cores.syncs n) ∧ t.core c = { s.core c with sigs := rest } ∧
         (∀ j, j ≠ c.val → t.core j = s.core j) ∧ t.cores.cmds = s.cores.cmds ∧ t.mem = s.mem ∧ t.ctxs = s.ctxs) ∧
     ((s.core c).syncDone < g.behind → exec (.sigApply c) s = .next s))

/-- IDXR and IDXW (R149, R349): a read puts the entry's value in rd and 0 in rb; a refused one leaves rd and puts 1 in rb; an
accepted write of an entry that has no behaviour of its own sets it and puts 0 in rd; a refused write puts 1 in rd and changes
nothing else; while a landed request waits, neither executes. g is the state once the word is fetched, with its region held.
Completes idxr, idxw. PSTATE (R360, R410): on a principal core, while firmware runs, it requests one of the three CORE steps; a
subordinate core halts with 0x0C. Completes pstate. Where a command's condition does not hold it changes nothing: the model's
choice (log entry 5). The readings it follows: log entry 28. -/
def Obligations.CoresReachTheIndexAndTheStep : Prop :=
  (∀ (s f g : State) (c : CoreId) (w v : Nat), (s.core c).runAhead = false → fwf 0 (s.core c).regs = true → Canonical s →
     g = f.setCore c (f.core c).holdRegion →
     (s.switch.requests = [] →
       (Takes s c 0x0F w f → g.coreRead (wEntry w).1 (wEntry w).2 = some v → wRd w ≠ 0 → wRb w ≠ 0 → wRd w ≠ wRb w →
         ∃ t, exec (.idxr c) s = .next t ∧ OnlyCore c f t ∧ GoesOn c ((s.core c).pc + 1) w s t ∧ (t.core c).reg (wRd w) = v % 2 ^ 64 ∧
           (t.core c).reg (wRb w) = 0 ∧ ∀ k, k ≠ wRd w → k ≠ wRb w → (t.core c).reg k = (s.core c).reg k) ∧
       (Takes s c 0x0F w f → g.coreRead (wEntry w).1 (wEntry w).2 = none →
         ∃ t, exec (.idxr c) s = .next t ∧ OnlyCore c f t ∧ GoesOn c ((s.core c).pc + 1) w s t ∧ RegSet c (wRb w) 1 s t) ∧
       (Takes s c 0x10 w f → c.val % 8 < 2 → g.coreWrite (wEntry w).1 (wEntry w).2 ((s.core c).reg (wRa w)) = none →
         ∃ t, exec (.idxw c) s = .next t ∧ OnlyCore c f t ∧ GoesOn c ((s.core c).pc + 1) w s t ∧ RegSet c (wRd w) 1 s t) ∧
       (∀ d, Takes s c 0x10 w f → c.val % 8 < 2 → Plain (wEntry w).1 (wEntry w).2 →
         g.coreWrite (wEntry w).1 (wEntry w).2 ((s.core c).reg (wRa w)) = some d →
         ∃ t, exec (.idxw c) s = .next t ∧ GoesOn c ((s.core c).pc + 1) w s t ∧ RegSet c (wRd w) 0 s t ∧
           t.idx (wEntry w).1 (wEntry w).2 = beNat d ∧ (∀ k, k ≠ c.val → t.core k = s.core k) ∧ t.mem = f.mem ∧ t.ports = s.ports)) ∧
     (s.switch.requests ≠ [] → Takes s c 0x0F w f → exec (.idxr c) s = .next s) ∧
     (s.switch.requests ≠ [] → Takes s c 0x10 w f → c.val % 8 < 2 → exec (.idxw c) s = .next s) ∧
     (Takes s c 0x10 w f → 2 ≤ c.val % 8 → Quiet s → ∃ t, exec (.idxw c) s = .next t ∧ OnlyCore c f t ∧ Halts c 0x0C 0 s t)) ∧
  (∀ (s f : State) (c : CoreId) (w : Nat), Takes s c 0x11 w f → (s.core c).runAhead = false →
     (c.val % 8 < 2 → wSub w ≤ 2 → ∃ t, exec (.pstate c) s = .next t ∧ GoesOn c ((s.core c).pc + 1) w s t ∧
       (t.core c).regs = (s.core c).regs ∧ t.clock = { s.clock with bindingReq := if s.boot.state = 2 then wSub w else s.clock.bindingReq } ∧
       (∀ k, k ≠ c.val → t.core k = s.core k) ∧ t.power = s.power) ∧
     (2 ≤ c.val % 8 → Quiet s → ∃ t, exec (.pstate c) s = .next t ∧ OnlyCore c f t ∧ Halts c 0x0C 0 s t))

/-- Halts of a fetch (R15, R138, R190): an opcode that Table 6.1 does not list halts with 0x01; a word that reads uncorrectable
with 0x0A and the program counter; a set reserved bit of a control word with 0x02 and its position; an index outside the fetch
regions with 0x03 and the index. A core that cannot fetch does nothing. Completes illegalOpcode, uncorrectableInstructionFetch.
Where a command's condition does not hold it changes nothing: the model's choice (log entry 5). -/
def Obligations.FetchesHalt : Prop :=
  ∀ (s f : State) (c : CoreId) (w : Nat), s.fetches c = true → Quiet s →
    ((s.core c).inRegions (s.core c).pc = true → s.fetchWord c = (f, w, false) → wOp w ∉ opcodes →
      ∃ t, exec (.illegalOpcode c) s = .next t ∧ OnlyCore c f t ∧ Halts c 0x01 0 s t) ∧
    ((s.core c).inRegions (s.core c).pc = true → s.fetchWord c = (f, w, true) →
      ∃ t, exec (.uncorrectableInstructionFetch c) s = .next t ∧ Halts c 0x0A (s.core c).pc s t ∧ t.mem = f.mem ∧ t.index = f.index) ∧
    ((s.core c).inRegions (s.core c).pc = true → s.fetchWord c = (f, w, false) → wOp w = 0x00 → bit w 96 = true →
      ∃ t, exec (.nop c) s = .next t ∧ OnlyCore c f t ∧ Halts c 0x02 96 s t) ∧
    ((s.core c).inRegions (s.core c).pc = false → (s.core c).pc < 2 ^ 64 →
      ∃ t, exec (.nop c) s = .next t ∧ OnlyCore c s t ∧ Halts c 0x03 (s.core c).pc s t) ∧
    (∀ d : CoreId, s.fetches d = false → exec (.nop d) s = .next s ∧ exec (.illegalOpcode d) s = .next s ∧
      exec (.uncorrectableInstructionFetch d) s = .next s)

/-! ### Commands and units (chapters 3 to 7) -/

/-- Issue (R139, R142, R245): a command that passes every check enters its queue with copies of its descriptors and the values it
takes from registers, and a send takes group, sequence and position from its context, whose cursor advances. Where the queue is
full a principal core stalls with the command and a subordinate core halts with 0x04; a stalled core issues once an entry is free.
Completes prod, wout, vop, vred, cstep, csub, copy, fsend, queueStallRelease. Where a command's condition does not hold it changes
nothing: the model's choice (log entry 5). -/
def Obligations.CommandsEnterTheirQueues : Prop :=
  ∀ (s f : State) (c : CoreId) (w d a : Nat) (h : Header), h = header (s.core c) w → d = fget 0 (s.core c).descs h.desc →
    ((s.queueOf c h.unit).length < 64 →
      (Takes s c 0x20 w f → a = (if pfAuxOn w then fget 0 (s.core c).descs (pfAux w) else 0) → f.prodChecks c w h d a = none →
        ∃ t, exec (.prod c) s = .next t ∧ Issues c w (Cmd.make c w h d a [(s.core c).reg (pfTheta w) % 2 ^ 32]) f t) ∧
      (Takes s c 0x21 w f → wfDest w ≠ 3 → f.woutChecks c w h d = none →
        ∃ t, exec (.wout c) s = .next t ∧ Issues c w (Cmd.make c w h d 0 []) f t) ∧
      (Takes s c 0x30 w f → a = (if vfAuxOn w then fget 0 (s.core c).descs (vfAux w) else 0) → f.vopChecks w h d a = none →
        ∃ t, exec (.vop c) s = .next t ∧ Issues c w (Cmd.make c w h d a []) f t) ∧
      (Takes s c 0x31 w f → f.vredChecks w h d = none →
        ∃ t, exec (.vred c) s = .next t ∧ Issues c w (Cmd.make c w h d 0 []) f t) ∧
      (Takes s c 0x50 w f → f.cstepChecks w h = none →
        ∃ t, exec (.cstep c) s = .next t ∧ Issues c w (Cmd.make c w h d 0 [fieldOrReg (s.core c) w 83 52 51 50 46]) f t) ∧
      (Takes s c 0x51 w f → f.csubChecks w h d = none →
        ∃ t, exec (.csub c) s = .next t ∧ Issues c w (Cmd.make c w h d 0 []) f t) ∧
      (Takes s c 0x60 w f → f.copyChecks w h d = none →
        ∃ t, exec (.copy c) s = .next t ∧ Issues c w (Cmd.make c w h d 0 []) f t) ∧
      (∀ (y : Ctx) (tag n : Nat), Canonical s → y = s.ctx tag →
        (Takes s c 0x61 w f → tag = ffTag w → n = itemCount d → f.fsendChecks w h d = none →
          ∃ t, exec (.fsend c) s = .next t ∧
            t.cores.cmds = s.cores.cmds ++ [{ Cmd.make c w h d 0 [y.group, y.current, y.cursor] with
              serial := (s.core c).serial, behind := (s.core c).syncIssued, order := s.cores.nextOrder }] ∧
            t.ctx tag = { y with cursor := (y.cursor + n) % 65536 } ∧ (∀ x, x ≠ tag → t.ctx x = s.ctx x) ∧
            (t.core c).pc = (s.core c).pc + 1 ∧ (t.core c).serial = (s.core c).serial + 1 ∧ t.clock = s.clock ∧ t.mem = f.mem) ∧
        (Takes s c 0x21 w f → wfDest w = 3 → tag = wfTag w → n = (if wfCols w = 0 then 0 else itemCount d) → f.woutChecks c w h d = none →
          ∃ t, exec (.wout c) s = .next t ∧
            t.cores.cmds = s.cores.cmds ++ [{ Cmd.make c w h d 0 [y.group, y.current, y.cursor] with
              serial := (s.core c).serial, behind := (s.core c).syncIssued, order := s.cores.nextOrder }] ∧
            t.ctx tag = { y with cursor := (y.cursor + n) % 65536 } ∧ (∀ x, x ≠ tag → t.ctx x = s.ctx x) ∧
            (t.core c).pc = (s.core c).pc + 1 ∧ (t.core c).serial = (s.core c).serial + 1 ∧ t.clock = s.clock ∧ t.mem = f.mem))) ∧
    (64 ≤ (s.queueOf c h.unit).length → Takes s c 0x60 w f → f.copyChecks w h d = none →
      (c.val % 8 < 2 → ∃ t, exec (.copy c) s = .next t ∧ OnlyCore c f t ∧
        t.core c = { s.core c with stalled := some (Cmd.make c w h d 0 []) }) ∧
      (2 ≤ c.val % 8 → ∃ t, exec (.copy c) s = .next t ∧ (t.core c).run = .halted ∧ bits ((t.core c).halt.getD 0 0) 63 56 = 0x04 ∧
        (t.core c).pc = (s.core c).pc ∧ ∀ j, j ≠ c.val → (t.core j).run = (s.core j).run)) ∧
    (∀ k : Cmd, (s.core c).stalled = some k → (s.core c).run = .running → k.core = c.val →
      ((s.queueOf c k.unit).length < 64 → k.opcode / 16 ≠ 4 → isSend k.opcode k.word = false →
        ∃ t, exec (.queueStallRelease c) s = .next t ∧ Issues c k.word k s t) ∧
      (64 ≤ (s.queueOf c k.unit).length → exec (.queueStallRelease c) s = .next s)) ∧
    ((s.core c).stalled = none → exec (.queueStallRelease c) s = .next s)

/-- CLAIM, REL, OPEN and PUB (R119, R121, R128, R130, R164): one that is first in its queue and not run ahead is recorded at once
and done; one behind another, or run ahead, waits in its queue. Completes claim, rel, openSet, pub. -/
def Obligations.StashCommandsAreRecorded : Prop :=
  ∀ (s f : State) (c : CoreId) (w d v m n : Nat) (h : Header) (first : Bool), h = header (s.core c) w →
    d = fget 0 (s.core c).descs h.desc → (s.queueOf c h.unit).length < 64 → m = h.microBatch → n = s.slotOf m →
    fwf Slot.reset s.stash.slots = true → fwf WeightSet.reset s.stash.sets = true →
    first = (!(s.cores.cmds.any (fun k => k.core == c.val && k.unit == h.unit && k.unstarted)) &&
      decide ((s.core c).syncIssued ≤ (s.core c).syncDone)) →
    (Takes s c 0x40 w f → v = fieldOrReg (s.core c) w 95 64 63 62 58 → f.claimChecks w h v = none →
      (first = true → ∃ t, exec (.claim c) s = .next t ∧ t.slot n = { s.slot n with claim := some (m, v, none) } ∧
        (∀ k, k ≠ n → t.slot k = s.slot k) ∧ t.stash.sets = s.stash.sets ∧ Done c (s.core c).serial t ∧
        (t.core c).pc = (s.core c).pc + 1 ∧ (t.core c).serial = (s.core c).serial + 1 ∧ (∀ j, j ≠ c.val → t.core j = s.core j) ∧
        t.ctxs = s.ctxs ∧ t.clock = s.clock) ∧
      (first = false → ∃ t, exec (.claim c) s = .next t ∧ Issues c w (Cmd.make c w h d 0 [v]) f t)) ∧
    (Takes s c 0x41 w f → f.relChecks w h = none →
      (first = true → ∃ t, exec (.rel c) s = .next t ∧
        t.slot n = (if (s.slot n).state = 1 ∧ (s.slot n).owner = m then { s.slot n with state := 2, release := s.cores.nextOrder }
          else { s.slot n with claim := (s.slot n).claim.map (fun q => (q.1, q.2.1, some s.cores.nextOrder)) }) ∧
        (∀ k, k ≠ n → t.slot k = s.slot k) ∧ t.stash.sets = s.stash.sets ∧ Done c (s.core c).serial t ∧
        (t.core c).pc = (s.core c).pc + 1 ∧ (∀ j, j ≠ c.val → t.core j = s.core j) ∧ t.ctxs = s.ctxs ∧ t.clock = s.clock) ∧
      (first = false → ∃ t, exec (.rel c) s = .next t ∧ Issues c w (Cmd.make c w h d 0 []) f t)) ∧
    (Takes s c 0x42 w f → v = fieldOrReg (s.core c) w 87 56 55 54 50 → f.openChecks w h v = none →
      (first = true → ∃ t, exec (.openSet c) s = .next t ∧
        t.wset (bits w 95 88) = { s.wset (bits w 95 88) with openState := 1 } ∧
        (∀ k, k ≠ bits w 95 88 → t.wset k = s.wset k) ∧ t.stash.slots = s.stash.slots ∧ Done c (s.core c).serial t ∧
        (t.core c).pc = (s.core c).pc + 1 ∧ (∀ j, j ≠ c.val → t.core j = s.core j) ∧ t.ctxs = s.ctxs ∧ t.clock = s.clock) ∧
      (first = false → ∃ t, exec (.openSet c) s = .next t ∧ Issues c w (Cmd.make c w h d 0 [v]) f t)) ∧
    (Takes s c 0x43 w f → f.pubChecks w h = none →
      (first = true → ∃ t, exec (.pub c) s = .next t ∧
        t.wset (bits w 95 88) = { s.wset (bits w 95 88) with publish := some s.cores.nextOrder } ∧
        (∀ k, k ≠ bits w 95 88 → t.wset k = s.wset k) ∧ t.stash.slots = s.stash.slots ∧ Done c (s.core c).serial t ∧
        (t.core c).pc = (s.core c).pc + 1 ∧ (∀ j, j ≠ c.val → t.core j = s.core j) ∧ t.ctxs = s.ctxs ∧ t.clock = s.clock) ∧
      (first = false → ∃ t, exec (.pub c) s = .next t ∧ Issues c w (Cmd.make c w h d 0 []) f t))

/-- The start of commands (R94, R106, R116, R120, R127, R177, R426): a unit starts a queued command only where it is not run
ahead, its claim and its open are granted, the tiles it reads are written, its turn in its tie group has come and its unit has
room; the one next served runs. A product that would pass the load level without notice is held and notice is given; a held
product starts when the notice has lasted long enough. Completes commandStart, noticeExpiry. Where a command's condition does not
hold it changes nothing: the model's choice (log entry 5). The readings it follows: log entry 15. -/
def Obligations.UnitsStartCommands : Prop :=
  ∀ (s : State) (u : BitVec 8) (c : Cmd) (rest : List Cmd) (n : Nat), s.power.clocksStopped = false →
    (∀ k ∈ s.startable u.toNat, k ∈ s.cores.cmds ∧ k.unit = u.toNat ∧ k.phase = .queued ∧ s.heldCmd k = false ∧
      s.tileReady k = true ∧ s.tieReady k = true ∧ s.unitFree k = true ∧
      (k.awaitsClaim = true → k.microBatch = noBatch ∨ s.granted k.microBatch = true) ∧
      (∀ v, k.storesInto = some v → (s.wset v).openState = 2)) ∧
    (s.startable u.toNat = [] → exec (.commandStart u) s = .next s) ∧
    (s.startable u.toNat = c :: rest → (∀ h ∈ s.power.held, ¬ (h.1 = c.core ∧ h.2.1 = c.serial)) →
      (c.opcode = 0x21 ∨ c.opcode = 0x30 ∨ c.opcode = 0x31 ∨ c.opcode = 0x60 →
        exec (.commandStart u) s = .next { s with cores := { s.cores with
          served := fset 31 s.cores.served c.unit c.core
          cmds := s.cores.cmds.map (fun x => if x.core == c.core && x.serial == c.serial then
            { c with phase := .running, waited := false } else x) } }) ∧
      (c.opcode = 0x20 →
        n = s.streaming (quireOf c.unit) + (if (s.runningOn c.unit).any (fun k => k.opcode == 0x20) then 0 else 1) →
        (n ≤ s.idx 0x9010 0 → ∃ t, exec (.commandStart u) s = .next t ∧ t.cores.cores = s.cores.cores ∧
          t.cores.served = fset 31 s.cores.served c.unit c.core ∧
          t.cores.cmds = s.cores.cmds.map (fun x => if x.core == c.core && x.serial == c.serial then
            { c with phase := .running, waited := false } else x) ∧
          t = { s with cores := t.cores }) ∧
        (s.idx 0x9010 0 < n → s.power.loadNotice = false → Canonical s →
          ∃ t, exec (.commandStart u) s = .next t ∧ t.cores = s.cores ∧
          t.power = { s.power with held := s.power.held ++ [(c.core, c.serial, s.now)], loadNotice := true, noticeSince := s.now } ∧
          bits (t.idx 0x9012 0) 63 0 = min (bits (s.idx 0x9012 0) 63 0 + 1) (2 ^ 64 - 1) ∧ t = { s with power := t.power, index := t.index }))) ∧
    (s.noticed = false → exec .noticeExpiry s = .next s) ∧
    (s.noticed = true → c ∈ s.startable u.toNat → u.toNat < 0x30 → c.opcode = 0x20 → s.power.held = [(c.core, c.serial, n)] →
      (∀ k ∈ s.cores.cmds, k.core = c.core → k.serial = c.serial → k = c) →
      ∃ t, exec .noticeExpiry s = .next t ∧ t.power.held = [] ∧ t.clock = s.clock ∧ t.mem = s.mem ∧ t.cores.cores = s.cores.cores ∧
        ∀ k ∈ t.cores.cmds, k.core = c.core → k.serial = c.serial → k.phase = .running)

/-- Units at work (R85, R98, R116, R155, R159, R213): a pass swap runs the next pass of the product that streams and stores
nothing in memory. An item of an unmasked write-out of one row is converted and stored at its address and nowhere else, or in its
stash tile; it goes to its context with its check, where the context is open or fails it, and else it waits; or it leaves as a
frame. Where no such command runs nothing changes. Completes passSwap, woutItem. Completion (R173, R179, R184, R185): a product,
write-out or send whose work is done leaves its queue and the core's count of its unit rises, at once where the core has no ring;
otherwise its record is written at the producer's place once the ring has room, with the header's producer word, and a summary
record frees the command's entry. Completes commandComplete, completionRecordWrite. Where a command's condition does not hold it
changes nothing: the model's choice (log entry 5). The readings it follows: log entries 32, 40 and 44. -/
def Obligations.UnitsCarryAndCompleteCommands : Prop :=
  (∀ (s v : State) (u : BitVec 8) (c : Cmd) (a row cause : Nat) (codes : List Nat) (bs : Bytes) (k : Counts) (r : State × Cmd), s.power.clocksStopped = false →
     ((s.runningOn u.toNat).find? Cmd.streams = some c →
       ∃ t, exec (.passSwap u) s = .next t ∧ (∀ k ∈ t.cores.cmds, k.core = c.core → k.serial = c.serial → k.next = c.next + 1) ∧
         (∀ k, ¬ (k.core = c.core ∧ k.serial = c.serial) → (k ∈ t.cores.cmds ↔ k ∈ s.cores.cmds)) ∧
         t.cores.cores = s.cores.cores ∧ t.mem.cells = s.mem.cells ∧ t.ctxs = s.ctxs ∧ t.clock = s.clock ∧ t.stash = s.stash) ∧
     ((s.runningOn u.toNat).find? Cmd.streams = none → exec (.passSwap u) s = .next s) ∧
     ((s.runningOn u.toNat).find? (fun k => k.opcode == 0x21) = some c → woutIdle c.word c.primary = false →
       wfMask c.word = 0 → dTrip c.primary 0 = 1 → c.next < itemCount c.primary → s.pairActive = false →
       row = (dAddr c.primary c.primary 0 c.next).toNat → s.rowPoison c.unit row = false →
       codes = (List.range (wfCols c.word)).map (fun j =>
         (((fmtElt (wfFmt c.word)).getD .fp32).convert (accValue (s.acc c.unit row (wfCol c.word + j)))).1) →
       k = (List.range (wfCols c.word)).foldl (fun n j =>
         n.add (((fmtElt (wfFmt c.word)).getD .fp32).convert (accValue (s.acc c.unit row (wfCol c.word + j)))).2) Counts.zero →
       bs = packCodes (fmtBits (wfFmt c.word)) codes →
       (wfDest c.word = 0 → Canonical s → Sound s → InLimits s → a = (dAddr c.primary c.primary 1 c.next).toNat → a + bs.length ≤ 0xC80000000 →
         ∃ t, exec (.woutItem u) s = .next t ∧ (∀ k, k < bs.length → t.loadByte (a + k) = bs.getD k 0) ∧
           (∀ x, canon x < deviceArea → x < a ∨ a + bs.length ≤ x → t.loadByte x = s.loadByte x) ∧
           (∀ k ∈ t.cores.cmds, k.core = c.core → k.serial = c.serial → k.next = c.next + 1) ∧ t.cores.cores = s.cores.cores ∧
           t.ctxs = s.ctxs ∧ t.clock = s.clock ∧ t.binding = s.binding ∧ t.mem.accumulators = s.mem.accumulators) ∧
       (wfDest c.word = 1 → ∃ t, exec (.woutItem u) s = .next t ∧
         t.mem = (s.writeTile c.microBatch (wfTile c.word + c.next) (wfComp c.word) (wfFmt c.word) c.unit [codes]).mem ∧
         (∀ k ∈ t.cores.cmds, k.core = c.core → k.serial = c.serial → k.next = c.next + 1) ∧ t.cores.cores = s.cores.cores ∧
         t.ctxs = s.ctxs ∧ t.clock = s.clock) ∧
       (wfDest c.word = 2 →
         (s.contributeAcross (wfTile c.word) c.next 0 bs = none →
           exec (.woutItem u) s = .next { s.setCmd { c with waited := true } with dev := s.dev, pending := s.pending }) ∧
         (s.contributeAcross (wfTile c.word) c.next 0 bs = some (v, cause) →
           r = (if cause = 0 then v.itemOk c c.next (crc32c bs) k else v.itemFailed c c.next cause k) →
           exec (.woutItem u) s = .next { (r.1.setCmd { r.2 with next := c.next + 1, waited := false }).settle none with
             dev := s.dev, pending := s.pending })) ∧
       (wfDest c.word = 3 → exec (.woutItem u) s = .next { ((s.setCmd { c with next := c.next + 1 }).sendItem { c with next := c.next + 1 } c.next
         (wfCols c.word) bs false k).settle none with dev := s.dev, pending := s.pending })) ∧
     ((s.runningOn u.toNat).find? (fun k => k.opcode == 0x21) = none → exec (.woutItem u) s = .next s)) ∧
  (∀ (s : State) (c : CoreId) (serial : BitVec 32) (k : Cmd) (n unit items : Nat) (summary : Bool) (bs : Bytes), (s.core c).declared = true →
     (s.power.clocksStopped = false →
       s.cores.cmds.find? (fun k => k.core == c.val && k.serial % 2 ^ 32 == serial.toNat && k.phase == .running) = some k →
       items = (if k.opcode = 0x21 ∧ woutIdle k.word k.primary = true then 0 else itemCount k.primary) →
       (k.opcode = 0x20 ∧ (prodIdle k.word k.primary = true ∨ passesOf k.primary ≤ k.next) ∨
         k.opcode = 0x21 ∧ items ≤ k.next ∧ (wfDest k.word = 3 → items ≤ k.sentItems.length) ∨
         k.opcode = 0x61 ∧ items ≤ k.sentItems.length) →
       (s.core c).ringSize = 0 → (s.core c).records = [] → fwf 0 (s.core c).completions = true →
       ∃ t, exec (.commandComplete c serial) s = .next t ∧
         t.cores.cmds = s.cores.cmds.filter (fun x => !(x.core == c.val && x.serial == k.serial)) ∧
         fget 0 (t.core c).completions k.unit = (fget 0 (s.core c).completions k.unit + 1) % 2 ^ 32 ∧
         (∀ j, j ≠ k.unit → fget 0 (t.core c).completions j = fget 0 (s.core c).completions j) ∧
         (∀ j, j ≠ c.val → t.core j = s.core j) ∧ (t.core c).pc = (s.core c).pc ∧ (t.core c).regs = (s.core c).regs ∧ t.mem = s.mem ∧
         t.ctxs = s.ctxs ∧ t.clock = s.clock ∧ t.stash = s.stash) ∧
     (s.cores.cmds.find? (fun k => k.core == c.val && k.serial % 2 ^ 32 == serial.toNat && k.phase == .running) = none →
       exec (.commandComplete c serial) s = .next s) ∧
     ((s.core c).records = [(n, unit, summary, bs)] → s.ringFull c = false → bs.length = 64 → Canonical s → Sound s → InLimits s →
       (s.core c).ringBase % 64 = 0 → 1 ≤ (s.core c).ringSize → (s.core c).ringBase + 64 + 64 * (s.core c).ringSize ≤ 0xC80000000 →
       ∃ t, exec (.completionRecordWrite c) s = .next t ∧ (t.core c).records = [] ∧
         (t.core c).producer = ((s.core c).producer + 1) % 2 ^ 64 ∧ t.peek64 (s.core c).ringBase = ((s.core c).producer + 1) % 2 ^ 64 ∧
         (∀ j, j < 64 → t.loadByte ((s.core c).ringBase + 64 + 64 * ((s.core c).producer % (s.core c).ringSize) + j) = bs.getD j 0) ∧
         (∀ x, canon x < deviceArea → x < (s.core c).ringBase ∨ (s.core c).ringBase + 8 ≤ x →
           x < (s.core c).ringBase + 64 + 64 * ((s.core c).producer % (s.core c).ringSize) ∨
             (s.core c).ringBase + 64 + 64 * ((s.core c).producer % (s.core c).ringSize) + 64 ≤ x → t.loadByte x = s.loadByte x) ∧
         t.cores.cmds = (if summary then s.cores.cmds.filter (fun x => !(x.core == c.val && x.serial == n)) else s.cores.cmds) ∧
         (∀ j, j ≠ c.val → t.core j = s.core j) ∧ t.ctxs = s.ctxs ∧ t.clock = s.clock) ∧
     (s.ringFull c = true → exec (.completionRecordWrite c) s = .next s))

/-- The stash controller (R119, R121, R128, R130): a claim that can be granted holds its slot and pins the current buffer of every
updated set; a release frees the slot once every earlier command of the micro-batch is done; an open is granted once its target
has no pins; a publish makes the target current at the next version, at most 2^32 - 1. What is not ready does not change.
Completes claimGrant, releaseEffect, openGrant, publishEffect. Where a command's condition does not hold it changes nothing: the
model's choice (log entry 5). -/
def Obligations.TheStashControllerGrants : Prop :=
  ∀ (s : State) (m : BitVec 32) (w : BitVec 8) (n v order : Nat) (r : Option Nat), n = s.slotOf m.toNat → s.stash.slotCount ≠ 0 →
    fwf Slot.reset s.stash.slots = true → fwf WeightSet.reset s.stash.sets = true →
    ((s.slot n).claim = some (m.toNat, v, r) →
      (s.grantable v (s.slot n) = true → ∃ t, exec (.claimGrant m) s = .next t ∧ (t.slot n).owner = m.toNat ∧
        (t.slot n).state = (if r.isSome then 2 else 1) ∧ (t.slot n).claim = none ∧ (t.slot n).release = r.getD 0 ∧
        (∀ k, k ≠ n → t.slot k = s.slot k) ∧
        (∀ k, (s.wset k).updated = true → (k, (s.wset k).current) ∈ (t.slot n).pins ∧
          t.wset k = (s.wset k).setPins (s.wset k).current ((s.wset k).pinsOf (s.wset k).current + 1)) ∧
        (∀ k, (s.wset k).updated = false → t.wset k = s.wset k) ∧ t = { s with stash := t.stash }) ∧
      (s.grantable v (s.slot n) = false → exec (.claimGrant m) s = .next s)) ∧
    ((s.slot n).state = 2 → (s.slot n).owner = m.toNat →
      ((∀ c ∈ s.cores.cmds, c.order < (s.slot n).release → c.phase = .done ∨
          ((c.microBatch = m.toNat → c.namesStash = false) ∧ s.reaches c (s.heldAreas m.toNat) = false)) →
        ∃ t, exec (.releaseEffect m) s = .next t ∧ t.slot n = { s.slot n with state := 0, pins := [], release := 0 } ∧
        (∀ k, k ≠ n → t.slot k = s.slot k) ∧ ((s.slot n).pins = [] → t.stash.sets = s.stash.sets) ∧
        (∀ k b, (s.slot n).pins = [(k, b)] → t.wset k = (s.wset k).setPins b ((s.wset k).pinsOf b - 1) ∧
          ∀ j, j ≠ k → t.wset j = s.wset j) ∧ t = { s with stash := t.stash }) ∧
      (∀ c ∈ s.cores.cmds, c.order < (s.slot n).release → c.phase ≠ .done →
        (c.microBatch = m.toNat ∧ c.namesStash = true) ∨ s.reaches c (s.heldAreas m.toNat) = true →
        exec (.releaseEffect m) s = .next s)) ∧
    ((s.wset w.toNat).openState = 1 → (s.wset w.toNat).pinsOf (s.wset w.toNat).target = 0 →
      ∃ t, exec (.openGrant w) s = .next t ∧ t.wset w.toNat = { s.wset w.toNat with openState := 2, storeFailed := false } ∧
        (∀ k, k ≠ w.toNat → t.wset k = s.wset k) ∧ t = { s with stash := t.stash }) ∧
    ((s.wset w.toNat).openState ≠ 1 ∨ (s.wset w.toNat).pinsOf (s.wset w.toNat).target ≠ 0 → exec (.openGrant w) s = .next s) ∧
    ((s.wset w.toNat).publish = some order → (s.wset w.toNat).openState = 2 →
      (∀ c ∈ s.cores.cmds, c.storesInto = some w.toNat → c.order < order → c.phase = .done) →
      ∃ t, exec (.publishEffect w) s = .next t ∧
        t.wset w.toNat = { s.wset w.toNat with
          current := (s.wset w.toNat).target, version := min ((s.wset w.toNat).version + 1) (2 ^ 32 - 1), openState := 0,
          publish := none, tainted := (s.wset w.toNat).storeFailed, storeFailed := false } ∧
        (∀ k, k ≠ w.toNat → t.wset k = s.wset k) ∧ t.stash.slots = s.stash.slots ∧ t.cores = s.cores ∧ t.mem = s.mem ∧
        ((s.wset w.toNat).storeFailed = false → t = { s with stash := t.stash })) ∧
    ((s.wset w.toNat).publish = none ∨ (s.wset w.toNat).openState ≠ 2 → exec (.publishEffect w) s = .next s) ∧
    ((s.wset w.toNat).publish = some order → (∃ c ∈ s.cores.cmds, c.storesInto = some w.toNat ∧ c.order < order ∧ c.phase ≠ .done) →
      exec (.publishEffect w) s = .next s)

/-! ### The Collator (chapters 9 and 10) -/

/-- Steps of a context (R213 to R217, R240, R250, R251, R255, R256): a CSTEP with the expected sequence number opens its step and
takes the lead fragments held for it, with any other it fences the context. Of fragments, one of no context is dropped and
counted, one of a fenced context is dropped as late, an ahead one is held in lead leaves, a sound one of the open step is
absorbed; one that waited for lead or spill leaves gets them at its retry. At the deadline an open step of one item closes, its
member failed and named. Every other context stands. Completes cstepStart, fragmentArrive, stepDeadline, leadRetry, spillRetry.
Where a command's condition does not hold it changes nothing: the model's choice (log entry 5). The readings it follows: log
entries 32, 46 and 47. -/
def Obligations.ContextsRunTheirSteps : Prop :=
  ∀ (s u v : State) (x : CtxId) (y : Ctx) (q : QuireId) (f : Frame) (b : Contribution) (it : Item) (k a : Nat), Canonical s → y = s.ctx x →
    (∀ c, Still s → y.declared = true → y.state = ctxIdle → y.memberFailed = false → s.nextStep x = some c →
      c.values.headD 0 = y.expected → cfItems c.word ≠ 0 →
      ((∀ l ∈ y.lead, l.sequence ≠ y.expected) → ∃ t, exec (.cstepStart x) s = .next t ∧
        t.ctx x = { y with
          pendingCmd := none, state := ctxOpen, sequence := y.expected, count := cfItems c.word, items := [], started := s.clock.stitch,
          finishes := [], consts := (t.ctx x).consts, stepCmd := some (c.core, c.serial) } ∧
        (∀ z, z ≠ x.val → t.ctx z = s.ctx z) ∧ (∀ k ∈ t.cores.cmds, k.core = c.core → k.serial = c.serial → k.phase = .running) ∧
        t.cores.cores = s.cores.cores ∧ t.clock = s.clock) ∧
      (∀ l, y.lead = [l] → l.sequence = y.expected → y.win ≠ 0 → ∃ t, exec (.cstepStart x) s = .next t ∧ (t.ctx x).lead = [])) ∧
    (∀ c, y.declared = true → y.state = ctxIdle → y.stepCmd = none → s.nextStep x = some c → c.values.headD 0 ≠ y.expected →
      cfItems c.word ≠ 0 → y.lead = [] → s.pairActive = false →
      ∃ t, exec (.cstepStart x) s = .next t ∧ t.ctx x = { y with pendingCmd := none, state := ctxFenced } ∧
        (∀ z, z ≠ x.val → t.ctx z = s.ctx z) ∧ t.clock = s.clock) ∧
    (y.state = ctxOpen → exec (.cstepStart x) s = .next s) ∧
    (s.switch.fragments.find? (fun e => e.1 == q.val) = none → exec (.fragmentArrive q) s = .next s) ∧
    (s.switch.fragments.find? (fun e => e.1 == q.val) = some (q.val, f) →
      u = { s with switch := { s.switch with fragments := s.switch.fragments.erase (q.val, f) } } →
      (Still s → s.groupCtx f.group = none → ∃ t, exec (.fragmentArrive q) s = .next t ∧ t.switch.fragments = u.switch.fragments ∧
        bits (t.idx 0x6007 0) 63 0 = min (bits (s.idx 0x6007 0) 63 0 + 1) (2 ^ 64 - 1) ∧ t.ctxs = s.ctxs ∧ t.cores = s.cores) ∧
      (Still s → s.groupCtx f.group = some x.val → y.state = ctxFenced →
        ∃ t, exec (.fragmentArrive q) s = .next t ∧ t.switch.fragments = u.switch.fragments ∧
        bits (t.idx (0x6120 + x.val / 256) (x.val % 256)) 63 32 =
          min (bits (s.idx (0x6120 + x.val / 256) (x.val % 256)) 63 32 + 1) (2 ^ 32 - 1) ∧ t.ctxs = s.ctxs ∧ t.cores = s.cores) ∧
      (Still s → Ahead x y q f k u → ∃ t hs, exec (.fragmentArrive q) s = .next t ∧ t.switch.fragments = u.switch.fragments ∧
        hs.length = k ∧ t.ctx x = { y with lead := y.lead ++ [leadOf q f hs u] } ∧ (∀ z, z ≠ x.val → t.ctx z = s.ctx z) ∧
        t.switch.stalled = s.switch.stalled ∧ t.cores = s.cores) ∧
      (StillBut x s → OnTime x y q f b u → v = (u.readFragment q f).1 →
        it = (if y.keepsStates then v.loadStates (0x80 + y.slice) (y.item b.position) b.offset b.count else (v, y.item b.position, false)).2.1 →
        (y.keepsStates = true → (v.loadStates (0x80 + y.slice) (y.item b.position) b.offset b.count).2.2 = false) →
        (y.item b.position).opened = true → Adds y it b s.now → ∃ t, exec (.fragmentArrive q) s = .next t ∧
          t.switch.fragments = u.switch.fragments ∧ t.ctx x = { y.setItem b.position (y.absorbInto it b s.now) with
            finishes := fset 0 y.finishes b.source (max (fget 0 y.finishes b.source) (b.landed + 1)) } ∧
          (∀ z, z ≠ x.val → t.ctx z = s.ctx z) ∧ t.switch.stalled = s.switch.stalled ∧ t.cores = s.cores)) ∧
    (∀ c d, d = s.idx (0x6140 + x.val / 256) (x.val % 256) →
      (d = 0 ∨ y.state ≠ ctxOpen ∨ s.clock.stitch < y.started + d → exec (.stepDeadline x) s = .next s) ∧
      (Lone x y c s → s.binding.releasing = false → d ≠ 0 → y.started + d ≤ s.clock.stitch →
        a = (if y.sealed then (match y.members.find? (fun m => (y.finishOf m.address).isNone) with
          | some m => m.address
          | none => (y.latest.map (·.1)).getD 0) else 0) →
        ∃ t, exec (.stepDeadline x) s = .next t ∧ (t.ctx x).state = ctxIdle ∧ (t.ctx x).memberFailed = true ∧
          (t.ctx x).expected = (y.sequence + 1) % 2 ^ 32 ∧ (t.ctx x).stepCmd = none ∧ (t.ctx x).count = 0 ∧ (t.ctx x).unclean = true ∧
          t.idx (0x6150 + x.val / 256) (x.val % 256) = a * 2 ^ 48 + 2 ^ 47 + (2 ^ 32 - 1) ∧ t.cmd c.core c.serial = none ∧
          t.clock = s.clock ∧ ∀ z, z ≠ x.val → t.ctx z = s.ctx z)) ∧
    (s.switch.stalled = [(q.val, true, f)] → u = { s with switch := { s.switch with stalled := [] } } → Still s → Ahead x y q f k u →
      ∃ t hs, exec (.leadRetry q) s = .next t ∧ t.switch.stalled = [] ∧ hs.length = k ∧
        t.ctx x = { y with lead := y.lead ++ [leadOf q f hs u] } ∧ (∀ z, z ≠ x.val → t.ctx z = s.ctx z) ∧ t.cores = s.cores) ∧
    (Still s → (∀ e ∈ s.switch.stalled, ¬ (e.1 = q.val ∧ e.2.1 = true)) → exec (.leadRetry q) s = .next s) ∧
    (s.switch.stalled = [(q.val, false, f)] → u = { s with switch := { s.switch with stalled := [] } } → StillBut x s →
      (∀ e ∈ s.ctxs, e.2.lead = []) → OnTime x y q f b u → (y.item b.position).opened = false → (y.item b.position).leaves = [] →
      y.win ≤ y.openItems → y.itemLeaves ≤ s.freeCount true → s.switch.external.fresh ≤ s.switch.externalSize →
      Adds y { y.item b.position with opened := true, spilled := true } b s.now →
      ∃ t hs, exec (.spillRetry q) s = .next t ∧ t.switch.stalled = [] ∧ hs.length = y.itemLeaves ∧
        t.ctx x = { y.setItem b.position (y.absorbInto { y.item b.position with opened := true, spilled := true, leaves := hs } b s.now) with
          finishes := fset 0 y.finishes b.source (max (fget 0 y.finishes b.source) (b.landed + 1)) } ∧
        (∀ z, z ≠ x.val → t.ctx z = s.ctx z) ∧ t.cores = s.cores) ∧
    (Still s → (∀ e ∈ s.switch.stalled, ¬ (e.1 = q.val ∧ e.2.1 = false)) → (∀ e ∈ s.ctxs, e.2.lead = []) →
      exec (.spillRetry q) s = .next s)

/-! ### Proof mode (chapters 17 and 18) -/

/-- Digests (R381, R382, R383): the records of the stitches before are sent in one frame on the proof port; a bad frame is counted
and dropped, a good one notes when it came and takes its records; a record unmatched at its bound and a silent partner are
divergences; a clear empties the record. Completes digestSend, digestReceive, lagExpiry, streamLost, divergenceClear. Where a
command's condition does not hold it changes nothing: the model's choice (log entry 5). The noted status and data of the last
access are the model's own (log entry 6). The readings it follows: log entry 32. -/
def Obligations.DigestsAreExchanged : Prop :=
  ∀ (s u : State) (c : CoreId) (n i : BitVec 32) (f : Frame) (rest : List Frame) (d : Digest) (ds : List Digest) (bs : Bytes),
    Canonical s → (s.pairActive = true → s.proof.sentStitch < s.clock.stitch →
      ((s.port s.proofPort).up = false → exec .digestSend s = .next { s with proof := { s.proof with
        outbox := s.proof.outbox.filter (fun d => decide (s.clock.stitch ≤ d.stitch)), sentStitch := s.clock.stitch } }) ∧
      (ProofLinkOpen s → ds = s.proof.outbox.filter (fun d => decide (d.stitch < s.clock.stitch)) → ds.length ≤ 511 →
        ∃ t g, exec .digestSend s = .next t ∧ ((t.port s.proofPort).queue 6).frames = ((s.port s.proofPort).queue 6).frames ++ [g] ∧
          g.bytes = (s.fragment (s.proofHeader 0xFFFFFFFF (s.clock.stitch - 1) 0 (ds.length + 1) true)
            (s.streamWord (s.clock.stitch - 1) ds.length ++ ds.flatMap Digest.encode)).bytes ∧
          t.proof.outbox = s.proof.outbox.filter (fun d => decide (s.clock.stitch ≤ d.stitch)) ∧
          t.proof.sentStitch = s.clock.stitch ∧ (∀ p, p ≠ s.proofPort → t.port p = s.port p) ∧ t.cores = s.cores ∧ t.mem = s.mem)) ∧
    (s.pairActive = false ∨ s.clock.stitch ≤ s.proof.sentStitch → exec .digestSend s = .next s) ∧
    (s.switch.proofFrames = f :: rest → u = { s with switch := { s.switch with proofFrames := rest } } → bs = (u.readProofFrame f).2.2.1 →
      ((u.readProofFrame f).2.2.2 = false ∨ leAt bs 2 2 + 1 ≠ (u.readProofFrame f).2.1.count →
        ∃ t, exec .digestReceive s = .next t ∧ t.switch.proofFrames = rest ∧ t.proof = { s.proof with mirror := t.proof.mirror } ∧
        bits (t.idx 0x8023 0) 63 32 = min (bits (s.idx 0x8023 0) 63 32 + 1) (2 ^ 32 - 1) ∧ t.cores = s.cores) ∧
      ((u.readProofFrame f).2.2.2 = true → leAt bs 2 2 + 1 = (u.readProofFrame f).2.1.count →
        leAt bs 4 4 = beAt (s.domain 0x5084 0) 0 4 → s.pairActive = true →
        (s.comparing = false → ∃ t, exec .digestReceive s = .next t ∧ t.switch.proofFrames = rest ∧
          t.proof = { s.proof with gotFrame := true, lost := false, lastFrame := s.clock.stitch, mirror := t.proof.mirror } ∧
          t.cores = s.cores) ∧
        (s.comparing = true → leAt bs 2 2 = 1 → d = Digest.decode (slice bs 16 16) (leAt bs 8 8) →
          (∀ e, e ∈ s.proof.own ∨ e ∈ s.proof.partner → e.sameKey d = false) → (false, d.core, d.serial, d.item) ∉ s.proof.seen →
          (d.core, d.serial, d.item) ∉ s.proof.lagged → s.pendingRecords < 65536 →
          ∃ t, exec .digestReceive s = .next t ∧ t.switch.proofFrames = rest ∧ t.cores = s.cores ∧
          t.proof = { s.proof with
            gotFrame := true, lost := false, lastFrame := s.clock.stitch, mirror := t.proof.mirror
            partner := s.proof.partner ++ [d] }))) ∧
    (s.proof.own = d :: ds → d.core = c.val → d.serial = n.toNat → d.item = i.toNat → s.idx 0x8013 0 ≠ 0 → s.comparing = true →
      d.stitch + s.idx 0x8013 0 ≤ s.clock.stitch →
      ∃ t, exec (.lagExpiry c n i) s = .next t ∧ t.proof.own = ds ∧ t.proof.lagged = s.proof.lagged ++ [(c.val, n.toNat, i.toNat)] ∧
        bits (t.idx 0x8022 0) 31 16 = min (bits (s.idx 0x8022 0) 31 16 + 1) (2 ^ 16 - 1) ∧
        t.proof.records.length = (if s.proof.records.length < 256 then s.proof.records.length + 1 else s.proof.records.length) ∧ t.cores = s.cores) ∧
    (s.idx 0x8013 0 = 0 ∨ s.comparing = false → exec (.lagExpiry c n i) s = .next s) ∧
    (s.pairActive = true → s.idx 0x8013 0 ≠ 0 → s.proof.lastFrame + s.idx 0x8013 0 ≤ s.clock.stitch → s.proof.lost = false →
      s.recording = true →
      ∃ t, exec .streamLost s = .next t ∧ t.proof.lost = true ∧
        bits (t.idx 0x8022 0) 15 0 = min (bits (s.idx 0x8022 0) 15 0 + 1) (2 ^ 16 - 1) ∧
        t.proof.phase = (if s.idx 0x8010 0 = 2 ∧ s.proofing = true ∧ 1 ≤ s.proof.phase ∧ s.proof.phase ≤ 4 then 7 else s.proof.phase) ∧
        t.cores = s.cores) ∧
    (s.idx 0x8013 0 = 0 ∨ s.pairActive = false → exec .streamLost s = .next s) ∧
    (Serves s → ∃ t, exec .divergenceClear s = .next t ∧ t.lastStatus = 0 ∧ t.proof = { s.proof with records := [] } ∧ t.idx 0x8021 0 = 0 ∧
      t.idx 0x8022 0 = 0 ∧ t.cores = s.cores ∧ t.mem = s.mem)

/-- The state copy on the leading folio and the switch (R394 to R397): a start of the copy that R394 allows begins it anew, any
other is refused; block by block the copy goes on to its end; the shadow applies a block or words at their address, keeps the
state table, and abandons at a gap; a switch record loads the sync counters and the shadow's cores start at their entry points at
the next boundary. Completes stateCopyStart, copyBlockSend, copyRecordApply, switchRecordApply, shadowCoresStart. Where a
command's condition does not hold it changes nothing: the model's choice (log entry 5). The noted status and data of the last
access are the model's own (log entry 6). The readings it follows: log entry 32. -/
def Obligations.StateIsCopiedAndSwitched : Prop :=
  ∀ (s u : State) (r : CopyRecord) (bs : Bytes) (e : Nat × Nat),
    (Serves s → s.copyAllowed = true → exec .stateCopyStart s = .next ({ s with proof := { s.proof with
      phase := 2, copyOrdinal := 0, applyOrdinal := 0, copyCursor := 0, mirror := [], handoverAt := none } }.noteAccess 0 [])) ∧
    (Serves s → s.copyAllowed = false → exec .stateCopyStart s = .next (s.noteAccess 1 [])) ∧
    (s.idx 0x8010 0 = 1 → s.pairActive = true → s.proof.phase = 2 ∨ s.proof.phase = 3 → s.proof.mirror = [] →
      (s.stateBlocks.length ≤ s.proof.copyCursor →
        exec .copyBlockSend s = .next { s with proof := { s.proof with phase := 3 } }) ∧
      (s.proof.copyCursor < s.stateBlocks.length → ∃ t, exec .copyBlockSend s = .next t ∧ t.proof.copyCursor = s.proof.copyCursor + 1 ∧
        t.proof.copyOrdinal = s.proof.copyOrdinal + 1 ∧
        t.proof.phase = (if s.stateBlocks.length ≤ s.proof.copyCursor + 1 then 3 else s.proof.phase) ∧ t.cores = s.cores ∧
        t.mem = s.mem) ∧
      (s.stateBlocks[s.proof.copyCursor]? = some e → bs = (s.readBlock e.1 (e.2 / 16)).2 → ProofLinkOpen s →
        ∃ t g, exec .copyBlockSend s = .next t ∧ ((t.port s.proofPort).queue 6).frames = ((s.port s.proofPort).queue 6).frames ++ [g] ∧
          g.bytes = (s.fragment (s.proofHeader 0xFFFFFFFE s.proof.copyOrdinal 0 (1 + bs.length / 16) true)
            (leBytes 16 (1 * 2 ^ 124 + e.1 % 2 ^ 48 * 2 ^ 64 + bs.length * 2 ^ 48 + s.proof.copyOrdinal % 2 ^ 48) ++ bs)).bytes)) ∧
    (s.idx 0x8010 0 ≠ 1 ∨ s.pairActive = false → exec .copyBlockSend s = .next s) ∧
    (s.copyKind < 4 → s.takeCopy = some (u, r) → u.copying = true → r.sound = true → r.ordinal ≠ 0 →
      (r.ordinal = u.proof.applyOrdinal → u.proof.phase = 2 ∨ u.proof.phase = 3 → r.kind = 1 ∨ r.kind = 2 → Canonical u → Sound u → InLimits u →
        r.address + r.data.length ≤ 0xC80000000 →
        ∃ t, exec .copyRecordApply s = .next t ∧ t.proof.applyOrdinal = u.proof.applyOrdinal + 1 ∧ t.proof.phase = u.proof.phase ∧
          (∀ k, k < r.data.length → t.loadByte (r.address + k) = r.data.getD k 0) ∧
          (∀ x, canon x < deviceArea → x < r.address ∨ r.address + r.data.length ≤ x → t.loadByte x = u.loadByte x) ∧ t.cores = u.cores) ∧
      (r.ordinal = u.proof.applyOrdinal → u.proof.phase = 2 ∨ u.proof.phase = 3 → r.kind = 3 →
        ∃ t, exec .copyRecordApply s = .next t ∧ t.cores = u.cores ∧ t.mem = u.mem ∧
          t.proof = { u.proof with
            applyOrdinal := u.proof.applyOrdinal + 1, phase := 3
            stateTable := fsetRun 0 u.proof.stateTable r.address (r.data.map BitVec.toNat) }) ∧
      (r.ordinal ≠ u.proof.applyOrdinal → u.proof.phase ≠ 0 → u.proof.phase ≠ 7 →
        exec .copyRecordApply s = .next { u with proof := { u.proof with phase := 7 }, dev := s.dev, pending := s.pending })) ∧
    (s.copyKind = 4 → s.takeCopy = some (u, r) → u.copying = true → r.sound = true → r.ordinal ≠ 0 →
      r.ordinal = u.proof.applyOrdinal → u.proof.phase = 3 → u.idx 0x8041 0 ≠ 0 → fwf 0 u.cores.syncs = true →
      ∃ t, exec .switchRecordApply s = .next t ∧ t.proof.phase = 4 ∧ t.proof.clean = 0 ∧ t.proof.steps = [] ∧
        t.proof.coresAt = some (u.clock.stitch + 1) ∧ (∀ c, c < 256 → fget 0 t.cores.syncs c = u.tableWord c % 2 ^ 64) ∧ t.mem = u.mem ∧
        t.clock = u.clock) ∧
    (s.copyKind ≠ 4 → exec .switchRecordApply s = .next s) ∧
    (∀ n, s.proof.coresAt = some n →
      (n ≤ s.clock.stitch → s.runFailed = false → s.power.clocksStopped = false →
        ∃ t, exec .shadowCoresStart s = .next t ∧ t.proof.coresAt = none ∧
          (∀ c, c < 32 → (s.core c).declared = true → t.core c = { s.core c with run := .running, pc := (s.core c).entry }) ∧
          (∀ c, (s.core c).declared = false → t.core c = s.core c) ∧ t.mem = s.mem ∧ t.clock = s.clock) ∧
      (s.clock.stitch < n → exec .shadowCoresStart s = .next s))

/-- Proof steps and handover (R398, R399): a judged step that has diverged ends the run of clean ones, and K of them promote the
shadow; at its notice the leading folio fixes the count at which the roles change; the shadow takes that count, or sends its
notice again. Completes stepJudgement, promotionNotice, handoverConfirmation. Where a command's condition does not hold it changes
nothing: the model's choice (log entry 5). -/
def Obligations.ProofStepsAreJudged : Prop :=
  ∀ (s u : State) (r : CopyRecord) (b : List Nat) (bad : Bool) (rest : List (List Nat × Bool)) (k c here : Nat),
    (s.idx 0x8010 0 = 2 → s.pairActive = true → s.proof.phase = 4 → s.proof.steps = (b, bad) :: rest →
      k = (if bad then 0 else s.proof.clean + 1) →
      (∀ d, d ∈ s.proof.own ∨ d ∈ s.proof.partner → b.getD d.core 0 ≤ d.serial) →
      (k < s.idx 0x8041 0 → exec .stepJudgement s = .next { s with proof := { s.proof with steps := rest, clean := k } }) ∧
      (s.idx 0x8041 0 ≤ k → s.idx 0x8042 0 = 0 → Quiet s → ∃ t, exec .stepJudgement s = .next t ∧ t.proof.phase = 5 ∧ t.proof.clean = k ∧
        t.proof.steps = rest ∧ t.proof.coresAt = none ∧ (∀ c, c < 32 → (t.core c).run ≠ .running) ∧ t.mem = s.mem) ∧
      (s.idx 0x8041 0 ≤ k → s.idx 0x8042 0 ≠ 0 → ∃ t, exec .stepJudgement s = .next t ∧ t.proof = { s.proof with
        phase := 5, clean := k, steps := rest, copyOrdinal := s.proof.copyOrdinal + 1 } ∧ t.cores = s.cores ∧ t.mem = s.mem)) ∧
    (∀ d ∈ s.proof.own, s.proof.steps = (b, bad) :: rest → d.serial < b.getD d.core 0 → exec .stepJudgement s = .next s) ∧
    (s.copyKind = 5 → s.takeCopy = some (u, r) → u.idx 0x8010 0 = 1 → u.pairActive = true → u.proofing = true → u.proof.phase = 4 →
      r.sound = true → c = (fget 0 u.cores.syncs u.proofCounter + 1) % 2 ^ 32 →
      ∃ t, exec .promotionNotice s = .next t ∧ t.proof.handoverAt = some c ∧ t.proof.phase = 4 ∧
        t.proof.copyOrdinal = u.proof.copyOrdinal + 1 ∧ t.cores = u.cores ∧ t.mem = u.mem) ∧
    (s.copyKind ≠ 5 → exec .promotionNotice s = .next s) ∧
    (s.copyKind = 6 → s.takeCopy = some (u, r) → u.copying = true → u.proof.phase = 5 → r.sound = true → c = r.address % 2 ^ 32 →
      here = fget 0 u.cores.syncs u.proofCounter % 2 ^ 32 →
      (2 ^ 31 ≤ subMod 32 here c → ∃ t, exec .handoverConfirmation s = .next t ∧ t.proof = { u.proof with handoverAt := some c } ∧
        t.cores = u.cores ∧ t.ports = u.ports) ∧
      (subMod 32 here c < 2 ^ 31 → ∃ t, exec .handoverConfirmation s = .next t ∧ t.proof.handoverAt = u.proof.handoverAt ∧
        t.proof.copyOrdinal = u.proof.copyOrdinal + 1 ∧ t.cores = u.cores)) ∧
    (s.copyKind ≠ 6 → exec .handoverConfirmation s = .next s)

/-! ### Numbers (chapters 2 and 3) -/

/-- Rounding is to nearest with ties to even; converting a value that a format holds back into it gives its code and counts
nothing, but for the code 0x80 that MXINT8 never writes; an infinity keeps its sign and a NaN becomes the canonical one; the sum
of a Collator element is the same in any order of its contributions, and as FP32 it never flushes. The readings it follows: log
entry 32. -/
def Obligations.NumbersRoundAndConvert : Prop :=
  (∀ (m k : Nat) (e s : Int), e ≤ s → k = (s - e).toNat →
    2 * ((roundAt m e s * 2 ^ k : Nat) - (m : Int)).natAbs ≤ 2 ^ k ∧
      (2 * ((roundAt m e s * 2 ^ k : Nat) - (m : Int)).natAbs = 2 ^ k → roundAt m e s % 2 = 0)) ∧
  (∀ (t : Elt) (c : Nat), c < 2 ^ t.width → ¬ (t = .mxint8 ∧ c = 0x80) →
    t.convert (t.decode c) = (if t.decode c = .nan then (t.nanCode, .nan) else (c, .none))) ∧
  (∀ (x y : List Val) (e : Elem), x.Perm y → x.foldl collateAdd e = y.foldl collateAdd e) ∧
  (∀ e : Elem, (Elt.fp32.convert (collateValue e).1).2 ≠ .flushed)
end

