-- ==== Sys2Proof/Laws/Closed.lean ====
section
/-!
SUPPORT. Sys2Proof/Laws/Closed.lean: an invariant is proved of the few primitive updates of the state, once; the files
ClosedCore to ClosedStep carry it through every operation, command and step.
-/
namespace Sys2Proof.Machine

structure Closed (P : State → Prop) : Prop where
  plain : ∀ {t : State} {p fc ls ld dv sw co st bi ma pr} {pw : Power}, P t → pw.tripped = t.power.tripped →
    pw.clocksStopped = t.power.clocksStopped → pw.railsAbsent = t.power.railsAbsent → pw.thermTripN = t.power.thermTripN →
    pw.sensors = t.power.sensors →
    P (State.mk p fc ls ld dv t.index t.domains t.clock pw t.ports sw t.mem co st bi t.ctxs ma pr t.boot)
  memPlain : ∀ {s : State} {m : Memory}, P s → m.cells = s.mem.cells → m.errors = s.mem.errors → m.leafErrors = s.mem.leafErrors →
    m.accumulators = s.mem.accumulators → m.poison = s.mem.poison → P { s with mem := m }
  memWrite : ∀ {s : State} {a d w p}, P s → P { s with mem := (s.mem.setBytes a d).setPattern w p }
  memPattern : ∀ {s : State} {w p}, P s → P { s with mem := s.mem.setPattern w p }
  idxSet : ∀ {s : State} {i sub v}, P s → P (s.idxSet i sub v)
  idxClear : ∀ {s : State} {p}, P s → P (s.idxClear p)
  domainSet : ∀ {s : State} {i sub v}, P s → P (s.domainSet i sub v)
  domainKeep : ∀ {s : State} {p}, P s → P { s with domains := fkeep p s.domains }
  setPort : ∀ {s : State} {p x}, P s → x.up = (s.port p).up → P (s.setPort p x)
  lower : ∀ {s : State} {p x}, P s → x.up = false → P (s.setPort p x)
  setCtx : ∀ {s : State} {p x}, P s → P (s.setCtx p x)
  noCtxs : ∀ {s : State}, P s → P { s with ctxs := [] }
  setAcc : ∀ {s : State} {u r c v}, P s → P (s.setAcc u r c v)
  setRowPoison : ∀ {s : State} {u r b}, P s → P (s.setRowPoison u r b)
  noAcc : ∀ {s : State}, P s → P { s with mem := { s.mem with accumulators := [], poison := [] } }
  setLeafPattern : ∀ {s : State} {h w p}, P s → P (s.setLeafPattern h w p)
  clearMem : ∀ {s : State} {a n}, P s → P (s.clearMem a n)

  request : ∀ {t : State} {n}, P t → n ≤ 2 → P { t with clock := { t.clock with bindingReq := n } }

def Res (P : State → Prop) (o : Out) : Prop := ∀ t, o = .next t → P t

/-- What the boot checks and reports, and the commands that reach them, must keep beside the primitive updates. -/
structure Booted (P : State → Prop) : Prop extends Closed P where
  lock : ∀ {s : State}, P s → P { s with boot := { s.boot with locked := true } }
  bootCommand : ∀ {s : State}, P s → P (State.bootCommand s)
  takeNonce : ∀ {s : State} {a1 : Bytes}, P s → P (State.takeNonce s a1)
  execBootChecksDecided : ∀ {s : State}, P s → Res P (Sys2Proof.Machine.execBootChecksDecided s)
  execFirmwareDigestDone : ∀ {s : State}, P s → Res P (Sys2Proof.Machine.execFirmwareDigestDone s)
  execSignatureCheckDone : ∀ {s : State}, P s → Res P (Sys2Proof.Machine.execSignatureCheckDone s)
  execFirmwareStart : ∀ {s : State}, P s → Res P (Sys2Proof.Machine.execFirmwareStart s)
  execFirmwareHalt : ∀ {a0 : BitVec 8} {s : State}, P s → Res P (Sys2Proof.Machine.execFirmwareHalt a0 s)
  execReportReady : ∀ {s : State}, P s → Res P (Sys2Proof.Machine.execReportReady s)

/-- What start-up, the boundary, coasting and the trip must keep beside the primitive updates. -/
structure Clocked (P : State → Prop) : Prop extends Closed P where
  raiseLink : ∀ {s : State} {a1 : Nat}, P s → P (State.raiseLink s a1)
  coast : ∀ {s : State} {a1 : Nat}, s.clock.phase = .aligned → P s → P (State.coast s a1)
  afterGroup : ∀ {s : State} {a1 : Bool}, P s → P (State.afterGroup s a1)
  tripIfHot : ∀ {s : State}, P s → P (State.tripIfHot s)
  tick : ∀ {s : State}, P s → P (Sys2Proof.Machine.tick s)
  execResetAssert : ∀ {s : State}, P s → Res P (Sys2Proof.Machine.execResetAssert s)
  execResetRelease : ∀ {s : State}, P s → Res P (Sys2Proof.Machine.execResetRelease s)
  execSignalDetect : ∀ {s : State}, P s → Res P (Sys2Proof.Machine.execSignalDetect s)
  execClockRecoveryLock : ∀ {a0 : Nat} {s : State}, P s → Res P (Sys2Proof.Machine.execClockRecoveryLock a0 s)
  execOscillatorStable : ∀ {a0 : Nat} {s : State}, P s → Res P (Sys2Proof.Machine.execOscillatorStable a0 s)
  execReferenceLock : ∀ {a0 : Nat} {s : State}, P s → Res P (Sys2Proof.Machine.execReferenceLock a0 s)
  execDomainLock : ∀ {a0 : Nat} {s : State}, P s → Res P (Sys2Proof.Machine.execDomainLock a0 s)
  execEchoReplyReceive : ∀ {a0 : Nat} {s : State}, P s → Res P (Sys2Proof.Machine.execEchoReplyReceive a0 s)
  execReleaseBoundary : ∀ {a0 : Nat} {s : State}, P s → Res P (Sys2Proof.Machine.execReleaseBoundary a0 s)
  execAlignmentCheckEnd : ∀ {a0 : Bool} {s : State}, P s → Res P (Sys2Proof.Machine.execAlignmentCheckEnd a0 s)
  execReferenceLoss : ∀ {a0 : LossCause} {s : State}, P s → Res P (Sys2Proof.Machine.execReferenceLoss a0 s)
  execDrainComplete : ∀ {s : State}, P s → Res P (Sys2Proof.Machine.execDrainComplete s)
  execSignalReturn : ∀ {s : State}, P s → Res P (Sys2Proof.Machine.execSignalReturn s)
  execStitchMarkReceive : ∀ {a0 : BitVec 96} {a1 : Nat} {s : State}, P s → Res P (Sys2Proof.Machine.execStitchMarkReceive a0 a1 s)
  execThrottleEscalate : ∀ {s : State}, P s → Res P (Sys2Proof.Machine.execThrottleEscalate s)
  execThrottleRelease : ∀ {s : State}, P s → Res P (Sys2Proof.Machine.execThrottleRelease s)
  execStitchBoundary : ∀ {a0 : List QuireReading} {s : State}, P s → Res P (Sys2Proof.Machine.execStitchBoundary a0 s)
  execTripClockStop : ∀ {s : State}, P s → Res P (Sys2Proof.Machine.execTripClockStop s)
  execCoreRailsRemoved : ∀ {s : State}, P s → Res P (Sys2Proof.Machine.execCoreRailsRemoved s)

/-- Everything that a command or a cycle may do keeps P. -/
structure Free (P : State → Prop) : Prop extends Booted P, Clocked P

/-- P says nothing about the boot state. -/
structure BootFree (P : State → Prop) : Prop extends Closed P where
  boot : ∀ {t : State} {p fc ls ld dv sw co st bi ma pr bo} {pw : Power}, P t → pw.tripped = t.power.tripped →
    pw.clocksStopped = t.power.clocksStopped → pw.railsAbsent = t.power.railsAbsent → pw.thermTripN = t.power.thermTripN →
    pw.sensors = t.power.sensors →
    P (State.mk p fc ls ld dv t.index t.domains t.clock pw t.ports sw t.mem co st bi t.ctxs ma pr bo)

/-- P says nothing about pins, the clock and which links are up, and holds at reset and after a restart. -/
structure ClockFree (P : State → Prop) : Prop extends Closed P where
  anyPort : ∀ {s : State} {p x}, P s → P (s.setPort p x)
  clock : ∀ {t : State} {p fc ls ld dv cl pw sw co st bi ma pr}, P t →
    P (State.mk p fc ls ld dv t.index t.domains cl pw t.ports sw t.mem co st bi t.ctxs ma pr t.boot)
  reset : P State.reset
  attemptMem : ∀ {s : State}, P s → P { State.reset with mem := s.mem }
  restartMem : ∀ {s : State}, P s → P { State.reset with mem := { Memory.reset with cells := s.freezeColophon.cells, errors := s.mem.errors } }

structure Opt (P : State → Prop) (o : Option State) : Prop where
  get : ∀ t, o = some t → P t
structure Opt1 {α : Type} (P : State → Prop) (o : Option (State × α)) : Prop where
  get : ∀ t, o = some t → P t.1

theorem setQueue_up (x : Port) (v : Nat) (q : Queue) : (x.setQueue v q).up = x.up := rfl

theorem portFold_up {α : Type} (l : List α) (g : Port → α → Port) (x : Port) (h : ∀ y a, (g y a).up = y.up) :
    (l.foldl g x).up = x.up := by
  induction l generalizing x with
  | nil => rfl
  | cons a t ih => exact (ih _).trans (h _ _)

variable {P : State → Prop}

theorem P_ite {c : Prop} [Decidable c] {a b : State} (ha : P a) (hb : P b) : P (if c then a else b) := by split <;> assumption
theorem P_ite1 {α : Type} {c : Prop} [Decidable c] {a b : State × α} (ha : P a.1) (hb : P b.1) : P (if c then a else b).1 := by split <;> assumption
theorem P_foldl {α : Type} {l : List α} {g : State → α → State} {t : State} (ht : P t) (h : ∀ s a, P s → P (g s a)) : P (l.foldl g t) := by
  induction l generalizing t with
  | nil => exact ht
  | cons x xs ih => exact ih (h _ _ ht)
theorem P_foldl1 {α β : Type} {l : List α} {g : State × β → α → State × β} {t : State × β} (ht : P t.1) (h : ∀ s a, P s.1 → P (g s a).1) : P (l.foldl g t).1 := by
  induction l generalizing t with
  | nil => exact ht
  | cons x xs ih => exact ih (h _ _ ht)
theorem P_of_eq {α : Type} {o : State × α} {t : State} {a : α} (he : o = (t, a)) (h : P o.1) : P t := by subst he; exact h
theorem P_ends {s t : State} (C : Closed P) (h : P t) : Res P (s.ends t) := by
  intro u hu
  cases hu
  exact C.plain h rfl rfl rfl rfl rfl
theorem P_none : Opt P none := ⟨fun _ h => nomatch h⟩
theorem P_some {t : State} (h : P t) : Opt P (some t) := ⟨fun _ e => by cases e; exact h⟩
theorem P_ofSome {o : Option State} {t : State} (he : o = some t) (h : Opt P o) : P t := h.get t he
theorem P_optIte {c : Prop} [Decidable c] {a b : Option State} (ha : Opt P a) (hb : Opt P b) : Opt P (if c then a else b) := by split <;> assumption
theorem P_none1 {α : Type} : Opt1 P (none : Option (State × α)) := ⟨fun _ h => nomatch h⟩
theorem P_some1 {α : Type} {t : State} {a : α} (h : P t) : Opt1 P (some (t, a)) := ⟨fun _ e => by cases e; exact h⟩
theorem P_ofSome1 {α : Type} {o : Option (State × α)} {t : State} {a : α} (he : o = some (t, a)) (h : Opt1 P o) : P t := h.get (t, a) he
theorem P_optIte1 {α : Type} {c : Prop} [Decidable c] {a b : Option (State × α)} (ha : Opt1 P a) (hb : Opt1 P b) : Opt1 P (if c then a else b) := by split <;> assumption
theorem P_getD1 {α : Type} {o : Option (State × α)} {d : State × α} (ho : Opt1 P o) (hd : P d.1) : P (o.getD d).1 := by
  cases o with
  | none => exact hd
  | some x => exact ho.get x rfl
theorem Closed.pool (C : Closed P) {s : State} {sw : Switch} {m : Memory} (h : P s) (h1 : m.cells = s.mem.cells) (h2 : m.errors = s.mem.errors)
    (h3 : m.leafErrors = s.mem.leafErrors) (h4 : m.accumulators = s.mem.accumulators) (h5 : m.poison = s.mem.poison) :
    P { s with switch := sw, mem := m } :=
  C.memPlain (s := { s with switch := sw }) (C.plain h rfl rfl rfl rfl rfl) h1 h2 h3 h4 h5

end Sys2Proof.Machine
end

