-- ==== Sys2Proof/Laws/ClosedCore.lean ====
section
/-!
SUPPORT. Sys2Proof/Laws/ClosedCore.lean: what every predicate closed under the primitive updates keeps: the shared operations, the cores, the control instructions and command issue.
-/
namespace Sys2Proof.Machine

set_option maxRecDepth 8000

variable {P : State → Prop}

theorem Closed.crosses (C : Closed P) {s : State} (h : P s) : P (State.crosses s).2 := by
  unfold State.crosses
  repeat' (first
    | with_reducible assumption
    | (fail_if_no_progress with_reducible refine C.plain ?_ rfl rfl rfl rfl rfl)
    | split)

theorem Closed.idxBump (C : Closed P) {s : State} {a1 : Nat} {a2 : Nat} {a3 : Nat} {a4 : Nat} {a5 : Nat} (h : P s) : P (State.idxBump s a1 a2 a3 a4 a5) := by
  unfold State.idxBump
  repeat' (first
    | with_reducible assumption
    | with_reducible apply C.idxSet)

theorem Closed.count (C : Closed P) {s : State} {a1 : Nat} {a2 : Nat} {a3 : Nat} (h : P s) : P (State.count s a1 a2 a3) := by
  unfold State.count
  repeat' (first
    | with_reducible assumption
    | with_reducible apply C.idxBump)

theorem Closed.setCore (C : Closed P) {s : State} {a1 : Nat} {a2 : Core} (h : P s) : P (State.setCore s a1 a2) := by
  unfold State.setCore
  repeat' (first
    | with_reducible assumption
    | (fail_if_no_progress with_reducible refine C.plain ?_ rfl rfl rfl rfl rfl))

theorem Closed.colophonSet (C : Closed P) {s : State} {a1 : Nat} {a2 : Nat} (h : P s) : P (State.colophonSet s a1 a2) := by
  unfold State.colophonSet
  repeat' (first
    | with_reducible assumption
    | (fail_if_no_progress with_reducible refine C.plain ?_ rfl rfl rfl rfl rfl))

theorem Closed.colophonAdd (C : Closed P) {s : State} {a1 : Nat} {a2 : Nat} (h : P s) : P (State.colophonAdd s a1 a2) := by
  unfold State.colophonAdd
  repeat' (first
    | with_reducible assumption
    | with_reducible apply C.colophonSet)

theorem Closed.colophonFlag (C : Closed P) {s : State} {a1 : Nat} (h : P s) : P (State.colophonFlag s a1) := by
  unfold State.colophonFlag
  repeat' (first
    | with_reducible assumption
    | with_reducible apply P_ite
    | (fail_if_no_progress with_reducible refine C.plain ?_ rfl rfl rfl rfl rfl))

theorem Closed.logError (C : Closed P) {s : State} {a1 : Nat} {a2 : ReadSource} {a3 : Nat} {a4 : Nat} (h : P s) : P (State.logError s a1 a2 a3 a4) := by
  unfold State.logError
  split
  · exact C.memPlain h rfl rfl rfl rfl rfl
  · exact C.idxBump h

theorem Closed.countRead (C : Closed P) {s : State} {a1 : Bool} {a2 : Nat} {a3 : Nat} (h : P s) : P (State.countRead s a1 a2 a3) := by
  unfold State.countRead
  repeat' (first
    | with_reducible assumption
    | with_reducible apply C.count
    | with_reducible apply C.idxBump
    | split)

theorem Closed.accountRead (C : Closed P) {s : State} {a1 : WordRead} {a2 : ReadSource} {a3 : Nat} {a4 : Nat} {a5 : Nat} (h : P s) : P (State.accountRead s a1 a2 a3 a4 a5) := by
  unfold State.accountRead
  repeat' (first
    | with_reducible assumption
    | with_reducible apply C.countRead
    | with_reducible apply C.logError
    | split)

theorem Closed.readWord (C : Closed P) {s : State} {a1 : Nat} {a2 : ReadSource} {a3 : Nat} (h : P s) : P (State.readWord s a1 a2 a3).1 := by
  unfold State.readWord
  repeat' (first
    | with_reducible assumption
    | with_reducible apply C.accountRead
    | with_reducible apply C.crosses
    | with_reducible apply P_ite1
    | split)

theorem Closed.readWords (C : Closed P) {s : State} {a1 : ReadSource} {a2 : Nat} {a3 : Nat} {a4 : Nat} {a5 : Bytes} {a6 : Option Nat} (h : P s) : P (State.readWords s a1 a2 a3 a4 a5 a6).1 := by
  induction a3 generalizing s a4 a5 a6 with
  | zero => exact h
  | succ k ih => exact ih (C.readWord h)

theorem Closed.readMem (C : Closed P) {s : State} {a1 : Nat} {a2 : Nat} {a3 : ReadSource} {a4 : Nat} (h : P s) : P (State.readMem s a1 a2 a3 a4).1 := by
  unfold State.readMem
  repeat' (first
    | with_reducible assumption
    | with_reducible apply C.readWords
    | with_reducible apply P_ite1)

theorem Closed.noteMirror (C : Closed P) {s : State} {a1 : Nat} {a2 : Bytes} (h : P s) : P (State.noteMirror s a1 a2) := by
  unfold State.noteMirror
  repeat' (first
    | with_reducible assumption
    | with_reducible apply P_ite
    | (fail_if_no_progress with_reducible refine C.plain ?_ rfl rfl rfl rfl rfl))

theorem Closed.writeWord (C : Closed P) {s : State} {a1 : Nat} {a2 : Nat} {a3 : Bytes} {a4 : Nat} (h : P s) : P (State.writeWord s a1 a2 a3 a4) := by
  unfold State.writeWord
  repeat' (first
    | with_reducible assumption
    | with_reducible apply C.crosses
    | with_reducible apply C.noteMirror
    | with_reducible apply C.readWord
    | with_reducible apply P_ite
    | with_reducible refine C.memWrite ?_
    | split)

theorem Closed.writeWords (C : Closed P) {s : State} {a1 : Nat} {a2 : Nat} {a3 : Nat} {a4 : Nat} {a5 : Bytes} (h : P s) : P (State.writeWords s a1 a2 a3 a4 a5) := by
  induction a2 generalizing s a3 a4 a5 with
  | zero => exact h
  | succ k ih =>
    unfold State.writeWords
    dsimp only
    split
    · exact h
    · exact ih (C.writeWord h)

theorem Closed.writeMem (C : Closed P) {s : State} {a1 : Nat} {a2 : Bytes} {a3 : Nat} (h : P s) : P (State.writeMem s a1 a2 a3) := by
  unfold State.writeMem
  repeat' (first
    | with_reducible assumption
    | with_reducible apply C.writeWords)

theorem Closed.poisonMem (C : Closed P) {s : State} {a1 : Nat} {a2 : Nat} (h : P s) : P (State.poisonMem s a1 a2) := by
  unfold State.poisonMem
  repeat' (first
    | with_reducible assumption
    | with_reducible refine P_foldl ?_ (fun _ _ _ => ?_)
    | with_reducible refine C.memPattern ?_)

theorem Closed.writeBack (C : Closed P) {s : State} {a1 : Nat} {a2 : Bytes} {a3 : Nat} (h : P s) : P (State.writeBack s a1 a2 a3).1 := by
  unfold State.writeBack
  repeat' (first
    | with_reducible assumption
    | with_reducible apply C.writeMem)

theorem Closed.checkStored (C : Closed P) {s : State} {a1 : List (Nat × Nat)} {a2 : Bytes} {a3 : Bytes} (h : P s) : P (State.checkStored s a1 a2 a3).1 := by
  unfold State.checkStored
  repeat' (first
    | with_reducible assumption
    | with_reducible apply C.poisonMem
    | with_reducible apply P_ite1
    | with_reducible refine P_foldl ?_ (fun _ _ _ => ?_))

theorem Closed.poke64 (C : Closed P) {s : State} {a1 : Nat} {a2 : Nat} (h : P s) : P (State.poke64 s a1 a2) := by
  unfold State.poke64
  repeat' (first
    | with_reducible assumption
    | with_reducible apply C.writeMem)

theorem Closed.noteShare (C : Closed P) {s : State} {a1 : Nat} (h : P s) : P (State.noteShare s a1) := by
  unfold State.noteShare
  repeat' (first
    | with_reducible assumption
    | (fail_if_no_progress with_reducible refine C.plain ?_ rfl rfl rfl rfl rfl))

theorem Closed.readLeafWord (C : Closed P) {s : State} {a1 : Nat} {a2 : Nat} {a3 : ReadSource} {a4 : Nat} (h : P s) : P (State.readLeafWord s a1 a2 a3 a4).1 := by
  unfold State.readLeafWord
  repeat' (first
    | with_reducible assumption
    | with_reducible apply C.accountRead
    | split
    | dsimp only)

theorem Closed.readLeaf (C : Closed P) {s : State} {a1 : Nat} {a2 : Nat} {a3 : ReadSource} {a4 : Nat} (h : P s) : P (State.readLeaf s a1 a2 a3 a4).1 := by
  unfold State.readLeaf
  repeat' (first
    | with_reducible assumption
    | with_reducible apply C.readMem
    | with_reducible apply C.noteShare
    | with_reducible apply C.readLeafWord
    | with_reducible apply P_ite1
    | with_reducible refine P_foldl1 ?_ (fun _ _ _ => ?_))

theorem Closed.writeLeaf (C : Closed P) {s : State} {a1 : Nat} {a2 : Nat} {a3 : Bytes} (h : P s) : P (State.writeLeaf s a1 a2 a3) := by
  unfold State.writeLeaf
  repeat' (first
    | with_reducible assumption
    | with_reducible apply C.writeMem
    | with_reducible apply C.noteShare
    | with_reducible apply C.setLeafPattern
    | with_reducible apply C.readLeafWord
    | with_reducible apply P_ite
    | with_reducible refine P_foldl ?_ (fun _ _ _ => ?_)
    | (fail_if_no_progress with_reducible refine C.plain ?_ rfl rfl rfl rfl rfl))

theorem Closed.draw (C : Closed P) {s : State} (h : P s) : P (State.draw s).2 := by
  unfold State.draw
  repeat' (first
    | with_reducible assumption
    | (fail_if_no_progress with_reducible refine C.plain ?_ rfl rfl rfl rfl rfl))

theorem Closed.ends (C : Closed P) {s : State} {s2 : State} (h : P s) (h2 : P s2) : Res P (State.ends s s2) := by
  exact P_ends C h2

theorem Closed.setCmd (C : Closed P) {s : State} {a1 : Cmd} (h : P s) : P (State.setCmd s a1) := by
  unfold State.setCmd
  repeat' (first
    | with_reducible assumption
    | (fail_if_no_progress with_reducible refine C.plain ?_ rfl rfl rfl rfl rfl))

theorem Closed.dropCmd (C : Closed P) {s : State} {a1 : Nat} {a2 : Nat} (h : P s) : P (State.dropCmd s a1 a2) := by
  unfold State.dropCmd
  repeat' (first
    | with_reducible assumption
    | (fail_if_no_progress with_reducible refine C.plain ?_ rfl rfl rfl rfl rfl))

theorem Closed.recordDone (C : Closed P) {s : State} {a1 : Nat} {a2 : Nat} {a3 : Nat} {a4 : Bool} (h : P s) : P (State.recordDone s a1 a2 a3 a4) := by
  unfold State.recordDone
  repeat' (first
    | with_reducible assumption
    | with_reducible apply C.dropCmd
    | with_reducible apply C.setCore
    | with_reducible apply P_ite)

theorem Closed.writeRecord (C : Closed P) {s : State} {a1 : Nat} (h : P s) : P (State.writeRecord s a1) := by
  unfold State.writeRecord
  repeat' (first
    | with_reducible assumption
    | with_reducible apply C.crosses
    | with_reducible apply C.recordDone
    | with_reducible apply C.setCore
    | with_reducible apply C.writeMem
    | with_reducible apply C.poke64
    | split
    | dsimp only)

theorem Closed.writeRecords (C : Closed P) {s : State} {a1 : Nat} {a2 : Nat} (h : P s) : P (State.writeRecords s a1 a2) := by
  induction a2 generalizing s with
  | zero => exact h
  | succ k ih => exact ih (C.writeRecord h)

theorem Closed.pushRecord (C : Closed P) {s : State} {a1 : Nat} {a2 : Nat} {a3 : Nat} {a4 : Bool} {a5 : Bytes} (h : P s) : P (State.pushRecord s a1 a2 a3 a4 a5) := by
  unfold State.pushRecord
  repeat' (first
    | with_reducible assumption
    | with_reducible apply C.recordDone
    | with_reducible apply C.setCore
    | with_reducible apply P_ite)

theorem Closed.finishCmd (C : Closed P) {s : State} {a1 : Cmd} {a2 : Nat} {a3 : Nat} (h : P s) : P (State.finishCmd s a1 a2 a3) := by
  unfold State.finishCmd
  repeat' (first
    | with_reducible assumption
    | with_reducible apply C.setCmd
    | with_reducible apply C.pushRecord
    | with_reducible apply C.writeRecords
    | with_reducible apply C.colophonAdd
    | with_reducible apply C.count
    | with_reducible apply C.colophonFlag
    | with_reducible apply P_ite
    | with_reducible refine P_foldl ?_ (fun _ _ _ => ?_))

theorem Closed.squash (C : Closed P) {s : State} {a1 : Cmd} (h : P s) : P (State.squash s a1) := by
  unfold State.squash
  repeat' (first
    | with_reducible assumption
    | with_reducible apply C.setCtx
    | with_reducible apply C.finishCmd
    | with_reducible apply P_ite
    | (fail_if_no_progress with_reducible refine C.plain ?_ rfl rfl rfl rfl rfl))

theorem Closed.squashAll (C : Closed P) {s : State} {a1 : Nat} (h : P s) : P (State.squashAll s a1) := by
  unfold State.squashAll
  repeat' (first
    | with_reducible assumption
    | with_reducible apply C.squash
    | with_reducible refine P_foldl ?_ (fun _ _ _ => ?_))

theorem Closed.ceases (C : Closed P) {s : State} {a1 : Nat} {a2 : CoreRun} {a3 : Nat} {a4 : Nat} {a5 : Nat} {a6 : Nat} {a7 : Nat} {a8 : Nat} {a9 : Nat} {a10 : Nat} (h : P s) : P (State.ceases s a1 a2 a3 a4 a5 a6 a7 a8 a9 a10) := by
  unfold State.ceases
  repeat' (first
    | with_reducible assumption
    | with_reducible apply C.setCore
    | with_reducible apply C.squashAll)

theorem Closed.haltCore (C : Closed P) {s : State} {a1 : Nat} {a2 : Halt} {a3 : Nat} {a4 : Nat} {a5 : Nat} {a6 : Nat} (h : P s) : P (State.haltCore s a1 a2 a3 a4 a5 a6) := by
  unfold State.haltCore
  repeat' (first
    | with_reducible assumption
    | with_reducible apply C.ceases)

theorem Closed.stopCore (C : Closed P) {s : State} {a1 : Nat} (h : P s) : P (State.stopCore s a1) := by
  unfold State.stopCore
  repeat' (first
    | with_reducible assumption
    | with_reducible apply C.ceases
    | with_reducible apply P_ite)

theorem Closed.stopCores (C : Closed P) {s : State} (h : P s) : P (State.stopCores s) := by
  unfold State.stopCores
  repeat' (first
    | with_reducible assumption
    | with_reducible apply C.stopCore
    | with_reducible refine P_foldl ?_ (fun _ _ _ => ?_))

theorem Closed.fetchWord (C : Closed P) {s : State} {a1 : Nat} (h : P s) : P (State.fetchWord s a1).1 := by
  have e : ∀ (t : State) (n : Nat) (b : Bool), P t → P (t, n, b).1 := fun _ _ _ ht => ht
  exact e _ _ _ (C.readWord h)

theorem Closed.advance (C : Closed P) {s : State} {a1 : Nat} {a2 : Nat} {a3 : Nat} {a4 : Option SyncKind} (h : P s) : P (State.advance s a1 a2 a3 a4) := by
  unfold State.advance
  repeat' (first
    | with_reducible assumption
    | with_reducible apply C.setCore)

theorem Closed.onInstr (C : Closed P) {s : State} {a1 : Nat} {a2 : Nat} {a3 : Bool} {a4 : State → Nat → State} (h : P s) (h5 : ∀ x0 x1, P x0 → P (a4 x0 x1)) : P (State.onInstr s a1 a2 a3 a4) := by
  unfold State.onInstr
  repeat' (first
    | with_reducible assumption
    | with_reducible apply C.haltCore
    | with_reducible apply C.fetchWord
    | with_reducible apply C.setCore
    | with_reducible apply h5
    | with_reducible apply P_ite)

theorem Closed.orHalt (C : Closed P) {s : State} {a1 : Nat} {a2 : Nat} {a3 : Nat} {a4 : Nat} {a5 : Option Halt} {a6 : State → State} (h : P s) (h7 : ∀ x0, P x0 → P (a6 x0)) : P (State.orHalt s a1 a2 a3 a4 a5 a6) := by
  unfold State.orHalt
  repeat' (first
    | with_reducible assumption
    | with_reducible apply C.haltCore
    | with_reducible apply h7
    | split)

theorem Closed.setRegGo (C : Closed P) {s : State} {a1 : Nat} {a2 : Nat} {a3 : Nat} {a4 : Nat} (h : P s) : P (State.setRegGo s a1 a2 a3 a4) := by
  unfold State.setRegGo
  repeat' (first
    | with_reducible assumption
    | with_reducible apply C.advance
    | with_reducible apply C.setCore)

theorem Closed.execNop (C : Closed P) {a0 : CoreId} {s : State} (h : P s) : Res P (Sys2Proof.Machine.execNop a0 s) := by
  unfold Sys2Proof.Machine.execNop
  repeat' (first
    | with_reducible assumption
    | with_reducible apply C.ends
    | with_reducible apply C.onInstr
    | with_reducible apply C.orHalt
    | with_reducible apply C.advance
    | intro _)

theorem Closed.execEndCore (C : Closed P) {a0 : CoreId} {s : State} (h : P s) : Res P (Sys2Proof.Machine.execEndCore a0 s) := by
  unfold Sys2Proof.Machine.execEndCore
  repeat' (first
    | with_reducible assumption
    | with_reducible apply C.ends
    | with_reducible apply C.onInstr
    | with_reducible apply C.orHalt
    | with_reducible apply C.setCore
    | with_reducible apply C.advance
    | with_reducible apply P_ite
    | intro _)

theorem Closed.jump (C : Closed P) {s : State} {a1 : Nat} {a2 : Nat} {a3 : Nat} (h : P s) : P (State.jump s a1 a2 a3) := by
  unfold State.jump
  repeat' (first
    | with_reducible assumption
    | with_reducible apply C.orHalt
    | with_reducible apply C.advance
    | intro _)

theorem Closed.execJmp (C : Closed P) {a0 : CoreId} {s : State} (h : P s) : Res P (Sys2Proof.Machine.execJmp a0 s) := by
  unfold Sys2Proof.Machine.execJmp
  repeat' (first
    | with_reducible assumption
    | with_reducible apply C.ends
    | with_reducible apply C.onInstr
    | with_reducible apply C.orHalt
    | with_reducible apply C.jump
    | intro _)

theorem Closed.execBr (C : Closed P) {a0 : CoreId} {s : State} (h : P s) : Res P (Sys2Proof.Machine.execBr a0 s) := by
  unfold Sys2Proof.Machine.execBr
  repeat' (first
    | with_reducible assumption
    | with_reducible apply C.ends
    | with_reducible apply C.onInstr
    | with_reducible apply C.orHalt
    | with_reducible apply C.jump
    | with_reducible apply C.advance
    | with_reducible apply P_ite
    | intro _)

theorem Closed.execSop (C : Closed P) {a0 : CoreId} {s : State} (h : P s) : Res P (Sys2Proof.Machine.execSop a0 s) := by
  unfold Sys2Proof.Machine.execSop
  repeat' (first
    | with_reducible assumption
    | with_reducible apply C.ends
    | with_reducible apply C.onInstr
    | with_reducible apply C.orHalt
    | with_reducible apply C.setRegGo
    | intro _)

theorem Closed.execLdi (C : Closed P) {a0 : CoreId} {s : State} (h : P s) : Res P (Sys2Proof.Machine.execLdi a0 s) := by
  unfold Sys2Proof.Machine.execLdi
  repeat' (first
    | with_reducible assumption
    | with_reducible apply C.ends
    | with_reducible apply C.onInstr
    | with_reducible apply C.orHalt
    | with_reducible apply C.setRegGo
    | intro _)

theorem Closed.execLds (C : Closed P) {a0 : CoreId} {s : State} (h : P s) : Res P (Sys2Proof.Machine.execLds a0 s) := by
  unfold Sys2Proof.Machine.execLds
  repeat' (first
    | with_reducible assumption
    | with_reducible apply C.ends
    | with_reducible apply C.onInstr
    | with_reducible apply C.orHalt
    | with_reducible apply C.setRegGo
    | with_reducible apply C.readMem
    | intro _
    | split
    | dsimp only)

theorem Closed.execSts (C : Closed P) {a0 : CoreId} {s : State} (h : P s) : Res P (Sys2Proof.Machine.execSts a0 s) := by
  unfold Sys2Proof.Machine.execSts
  repeat' (first
    | with_reducible assumption
    | with_reducible apply C.ends
    | with_reducible apply C.onInstr
    | with_reducible apply C.orHalt
    | with_reducible apply C.advance
    | with_reducible apply C.setAcc
    | with_reducible apply C.writeMem
    | intro _
    | split)

theorem Closed.execLdd (C : Closed P) {a0 : CoreId} {s : State} (h : P s) : Res P (Sys2Proof.Machine.execLdd a0 s) := by
  unfold Sys2Proof.Machine.execLdd
  repeat' (first
    | with_reducible assumption
    | with_reducible apply C.ends
    | with_reducible apply C.onInstr
    | with_reducible apply C.orHalt
    | with_reducible apply C.readMem
    | with_reducible apply C.advance
    | with_reducible apply C.setCore
    | intro _
    | split
    | dsimp only)

theorem Closed.execSetd (C : Closed P) {a0 : CoreId} {s : State} (h : P s) : Res P (Sys2Proof.Machine.execSetd a0 s) := by
  unfold Sys2Proof.Machine.execSetd
  repeat' (first
    | with_reducible assumption
    | with_reducible apply C.ends
    | with_reducible apply C.onInstr
    | with_reducible apply C.orHalt
    | with_reducible apply C.advance
    | with_reducible apply C.setCore
    | intro _)

theorem Closed.execRdq (C : Closed P) {a0 : CoreId} {s : State} (h : P s) : Res P (Sys2Proof.Machine.execRdq a0 s) := by
  unfold Sys2Proof.Machine.execRdq
  repeat' (first
    | with_reducible assumption
    | with_reducible apply C.ends
    | with_reducible apply C.onInstr
    | with_reducible apply C.orHalt
    | with_reducible apply C.setRegGo
    | intro _)

theorem Closed.execSync (C : Closed P) {a0 : CoreId} {s : State} (h : P s) : Res P (Sys2Proof.Machine.execSync a0 s) := by
  unfold Sys2Proof.Machine.execSync
  repeat' (first
    | with_reducible assumption
    | with_reducible apply C.ends
    | with_reducible apply C.onInstr
    | with_reducible apply C.orHalt
    | with_reducible apply C.advance
    | intro _)

theorem Closed.execSig (C : Closed P) {a0 : CoreId} {s : State} (h : P s) : Res P (Sys2Proof.Machine.execSig a0 s) := by
  unfold Sys2Proof.Machine.execSig
  repeat' (first
    | with_reducible assumption
    | with_reducible apply C.ends
    | with_reducible apply C.onInstr
    | with_reducible apply C.orHalt
    | with_reducible apply C.advance
    | with_reducible apply C.setCore
    | intro _)

theorem Closed.execWaitc (C : Closed P) {a0 : CoreId} {s : State} (h : P s) : Res P (Sys2Proof.Machine.execWaitc a0 s) := by
  unfold Sys2Proof.Machine.execWaitc
  repeat' (first
    | with_reducible assumption
    | with_reducible apply C.ends
    | with_reducible apply C.onInstr
    | with_reducible apply C.orHalt
    | with_reducible apply C.advance
    | intro _)

theorem Closed.judge (C : Closed P) {s : State} {a1 : Nat} (h : P s) : P (State.judge s a1) := by
  unfold State.judge
  repeat' (first
    | with_reducible assumption
    | with_reducible apply C.haltCore
    | with_reducible apply C.setCore
    | split
    | dsimp only)

theorem Closed.execWaitst (C : Closed P) {a0 : CoreId} {s : State} (h : P s) : Res P (Sys2Proof.Machine.execWaitst a0 s) := by
  unfold Sys2Proof.Machine.execWaitst
  repeat' (first
    | with_reducible assumption
    | with_reducible apply C.ends
    | with_reducible apply C.onInstr
    | with_reducible apply C.orHalt
    | with_reducible apply C.advance
    | with_reducible apply C.judge
    | with_reducible apply P_ite
    | intro _)

theorem Closed.commit (C : Closed P) {s : State} {a1 : Nat} (h : P s) : P (State.commit s a1) := by
  unfold State.commit
  repeat' (first
    | with_reducible assumption
    | with_reducible apply C.setCore
    | with_reducible apply C.judge
    | split
    | dsimp only)

theorem Closed.execSyncPointCommit (C : Closed P) {a0 : CoreId} {s : State} (h : P s) : Res P (Sys2Proof.Machine.execSyncPointCommit a0 s) := by
  unfold Sys2Proof.Machine.execSyncPointCommit
  repeat' (first
    | with_reducible assumption
    | with_reducible apply C.ends
    | with_reducible apply C.commit
    | split)

theorem Closed.onFetch (C : Closed P) {s : State} {a1 : Nat} {a2 : State → Nat → Bool → State} (h : P s) (h3 : ∀ x0 x1 x2, P x0 → P (a2 x0 x1 x2)) : P (State.onFetch s a1 a2) := by
  unfold State.onFetch
  repeat' (first
    | with_reducible assumption
    | with_reducible apply C.fetchWord
    | with_reducible apply h3
    | with_reducible apply P_ite)

theorem Closed.execIllegalOpcode (C : Closed P) {a0 : CoreId} {s : State} (h : P s) : Res P (Sys2Proof.Machine.execIllegalOpcode a0 s) := by
  unfold Sys2Proof.Machine.execIllegalOpcode
  repeat' (first
    | with_reducible assumption
    | with_reducible apply C.ends
    | with_reducible apply C.onFetch
    | with_reducible apply C.orHalt
    | with_reducible apply P_ite
    | intro _)

theorem Closed.execUncorrectableInstructionFetch (C : Closed P) {a0 : CoreId} {s : State} (h : P s) : Res P (Sys2Proof.Machine.execUncorrectableInstructionFetch a0 s) := by
  unfold Sys2Proof.Machine.execUncorrectableInstructionFetch
  repeat' (first
    | with_reducible assumption
    | with_reducible apply C.ends
    | with_reducible apply C.onFetch
    | with_reducible apply C.draw
    | with_reducible apply C.orHalt
    | with_reducible apply P_ite
    | intro _)

theorem Closed.setSlot (C : Closed P) {s : State} {a1 : Nat} {a2 : Slot} (h : P s) : P (State.setSlot s a1 a2) := by
  unfold State.setSlot
  repeat' (first
    | with_reducible assumption
    | (fail_if_no_progress with_reducible refine C.plain ?_ rfl rfl rfl rfl rfl))

theorem Closed.setWset (C : Closed P) {s : State} {a1 : Nat} {a2 : WeightSet} (h : P s) : P (State.setWset s a1 a2) := by
  unfold State.setWset
  repeat' (first
    | with_reducible assumption
    | (fail_if_no_progress with_reducible refine C.plain ?_ rfl rfl rfl rfl rfl))

theorem Closed.recordStash (C : Closed P) {s : State} {a1 : Cmd} (h : P s) : P (State.recordStash s a1) := by
  unfold State.recordStash
  repeat' (first
    | with_reducible assumption
    | with_reducible apply C.setSlot
    | with_reducible apply C.setWset
    | with_reducible apply C.finishCmd
    | with_reducible apply P_ite
    | split)

theorem Closed.accept (C : Closed P) {s : State} {a1 : Cmd} (h : P s) : P (State.accept s a1) := by
  unfold State.accept
  repeat' (first
    | with_reducible assumption
    | with_reducible apply C.setCtx
    | with_reducible apply C.setCore
    | with_reducible apply C.recordStash
    | with_reducible apply P_ite
    | (fail_if_no_progress with_reducible refine C.plain ?_ rfl rfl rfl rfl rfl))

theorem Closed.issue (C : Closed P) {s : State} {a1 : Nat} {a2 : Nat} {a3 : Header} {a4 : Nat} {a5 : Nat} {a6 : List Nat} {a7 : Option Halt} (h : P s) : P (State.issue s a1 a2 a3 a4 a5 a6 a7) := by
  unfold State.issue
  repeat' (first
    | with_reducible assumption
    | with_reducible apply C.orHalt
    | with_reducible apply C.advance
    | with_reducible apply C.accept
    | with_reducible apply C.setCore
    | with_reducible apply P_ite
    | intro _)

theorem Closed.onCommand (C : Closed P) {s : State} {a1 : CoreId} {a2 : Nat} {a3 : Core → Nat → List Nat} {a4 : State → Nat → Header → Nat → Nat → List Nat → Option Halt} {a5 : Nat → Option Nat} (h : P s) : P (State.onCommand s a1 a2 a3 a4 a5) := by
  unfold State.onCommand
  repeat' (first
    | with_reducible assumption
    | with_reducible apply C.onInstr
    | with_reducible apply C.issue
    | intro _)

theorem Closed.execProd (C : Closed P) {a0 : CoreId} {s : State} (h : P s) : Res P (Sys2Proof.Machine.execProd a0 s) := by
  unfold Sys2Proof.Machine.execProd
  repeat' (first
    | with_reducible assumption
    | with_reducible apply C.ends
    | with_reducible apply C.onCommand)

theorem Closed.execWout (C : Closed P) {a0 : CoreId} {s : State} (h : P s) : Res P (Sys2Proof.Machine.execWout a0 s) := by
  unfold Sys2Proof.Machine.execWout
  repeat' (first
    | with_reducible assumption
    | with_reducible apply C.ends
    | with_reducible apply C.onCommand)

theorem Closed.execVop (C : Closed P) {a0 : CoreId} {s : State} (h : P s) : Res P (Sys2Proof.Machine.execVop a0 s) := by
  unfold Sys2Proof.Machine.execVop
  repeat' (first
    | with_reducible assumption
    | with_reducible apply C.ends
    | with_reducible apply C.onCommand)

theorem Closed.execVred (C : Closed P) {a0 : CoreId} {s : State} (h : P s) : Res P (Sys2Proof.Machine.execVred a0 s) := by
  unfold Sys2Proof.Machine.execVred
  repeat' (first
    | with_reducible assumption
    | with_reducible apply C.ends
    | with_reducible apply C.onCommand)

theorem Closed.execClaim (C : Closed P) {a0 : CoreId} {s : State} (h : P s) : Res P (Sys2Proof.Machine.execClaim a0 s) := by
  unfold Sys2Proof.Machine.execClaim
  repeat' (first
    | with_reducible assumption
    | with_reducible apply C.ends
    | with_reducible apply C.onCommand)

theorem Closed.execRel (C : Closed P) {a0 : CoreId} {s : State} (h : P s) : Res P (Sys2Proof.Machine.execRel a0 s) := by
  unfold Sys2Proof.Machine.execRel
  repeat' (first
    | with_reducible assumption
    | with_reducible apply C.ends
    | with_reducible apply C.onCommand)

theorem Closed.execOpenSet (C : Closed P) {a0 : CoreId} {s : State} (h : P s) : Res P (Sys2Proof.Machine.execOpenSet a0 s) := by
  unfold Sys2Proof.Machine.execOpenSet
  repeat' (first
    | with_reducible assumption
    | with_reducible apply C.ends
    | with_reducible apply C.onCommand)

theorem Closed.execPub (C : Closed P) {a0 : CoreId} {s : State} (h : P s) : Res P (Sys2Proof.Machine.execPub a0 s) := by
  unfold Sys2Proof.Machine.execPub
  repeat' (first
    | with_reducible assumption
    | with_reducible apply C.ends
    | with_reducible apply C.onCommand)

theorem Closed.execCstep (C : Closed P) {a0 : CoreId} {s : State} (h : P s) : Res P (Sys2Proof.Machine.execCstep a0 s) := by
  unfold Sys2Proof.Machine.execCstep
  repeat' (first
    | with_reducible assumption
    | with_reducible apply C.ends
    | with_reducible apply C.onCommand)

theorem Closed.execCsub (C : Closed P) {a0 : CoreId} {s : State} (h : P s) : Res P (Sys2Proof.Machine.execCsub a0 s) := by
  unfold Sys2Proof.Machine.execCsub
  repeat' (first
    | with_reducible assumption
    | with_reducible apply C.ends
    | with_reducible apply C.onCommand)

theorem Closed.execCopy (C : Closed P) {a0 : CoreId} {s : State} (h : P s) : Res P (Sys2Proof.Machine.execCopy a0 s) := by
  unfold Sys2Proof.Machine.execCopy
  repeat' (first
    | with_reducible assumption
    | with_reducible apply C.ends
    | with_reducible apply C.onCommand)

theorem Closed.execFsend (C : Closed P) {a0 : CoreId} {s : State} (h : P s) : Res P (Sys2Proof.Machine.execFsend a0 s) := by
  unfold Sys2Proof.Machine.execFsend
  repeat' (first
    | with_reducible assumption
    | with_reducible apply C.ends
    | with_reducible apply C.onCommand)

theorem Closed.execQueueStallRelease (C : Closed P) {a0 : CoreId} {s : State} (h : P s) : Res P (Sys2Proof.Machine.execQueueStallRelease a0 s) := by
  unfold Sys2Proof.Machine.execQueueStallRelease
  repeat' (first
    | with_reducible assumption
    | with_reducible apply C.ends
    | with_reducible apply C.advance
    | with_reducible apply C.accept
    | with_reducible apply C.setCore
    | split)

end Sys2Proof.Machine
end

