-- ==== Sys2Proof/Laws/ClosedPool.lean ====
section
/-!
SUPPORT. Sys2Proof/Laws/ClosedPool.lean: the same of the leaf pool, frames, Index frames and routes.
-/
namespace Sys2Proof.Machine

set_option maxRecDepth 8000

variable {P : State → Prop}

theorem Closed.setLeafList (C : Closed P) {s : State} {a1 : Bool} {a2 : LeafList} (h : P s) : P (State.setLeafList s a1 a2) := by
  unfold State.setLeafList
  repeat' (first
    | with_reducible assumption
    | with_reducible apply P_ite
    | (fail_if_no_progress with_reducible refine C.plain ?_ rfl rfl rfl rfl rfl))

theorem Closed.setLeafCount (C : Closed P) {s : State} {a1 : Nat} {a2 : Nat} (h : P s) : P (State.setLeafCount s a1 a2) := by
  unfold State.setLeafCount
  repeat' (first
    | with_reducible assumption
    | (fail_if_no_progress with_reducible refine C.pool ?_ rfl rfl rfl rfl rfl))

theorem Closed.poolWritten (C : Closed P) {s : State} {a1 : Nat} (h : P s) : P (State.poolWritten s a1) := by
  unfold State.poolWritten
  repeat' (first
    | with_reducible assumption
    | (fail_if_no_progress with_reducible refine C.memPlain ?_ rfl rfl rfl rfl rfl))

theorem Closed.poolFlag (C : Closed P) {s : State} {a1 : Nat} (h : P s) : P (State.poolFlag s a1) := by
  unfold State.poolFlag
  repeat' (first
    | with_reducible assumption
    | with_reducible apply P_ite
    | (fail_if_no_progress with_reducible refine C.plain ?_ rfl rfl rfl rfl rfl))

theorem Closed.poolRead (C : Closed P) {s : State} {a1 : Nat} {a2 : Nat} (h : P s) : P (State.poolRead s a1 a2) := by
  unfold State.poolRead
  repeat' (first
    | with_reducible assumption
    | with_reducible apply C.poolFlag
    | with_reducible apply C.accountRead
    | with_reducible apply P_ite)

theorem Closed.readLink (C : Closed P) {s : State} {a1 : Nat} (h : P s) : P (State.readLink s a1).1 := by
  unfold State.readLink
  repeat' (first
    | with_reducible assumption
    | with_reducible apply C.readLeaf
    | with_reducible apply C.poolFlag
    | with_reducible apply P_ite1)

theorem Closed.alloc (C : Closed P) {s : State} {a1 : Bool} (h : P s) : P (State.alloc s a1).1 := by
  unfold State.alloc
  repeat' (first
    | with_reducible assumption
    | with_reducible apply C.poolRead
    | with_reducible apply C.readLink
    | with_reducible apply C.setLeafList
    | with_reducible apply C.setLeafCount
    | with_reducible apply C.poolWritten
    | with_reducible apply P_ite1)

theorem Closed.refLeaf (C : Closed P) {s : State} {a1 : Nat} {a2 : Nat} (h : P s) : P (State.refLeaf s a1 a2) := by
  unfold State.refLeaf
  repeat' (first
    | with_reducible assumption
    | with_reducible apply C.setLeafCount
    | with_reducible apply C.poolRead)

theorem Closed.freeLeaf (C : Closed P) {s : State} {a1 : Nat} (h : P s) : P (State.freeLeaf s a1).1 := by
  unfold State.freeLeaf
  repeat' (first
    | with_reducible assumption
    | with_reducible apply C.setLeafCount
    | with_reducible apply C.poolRead
    | with_reducible apply C.writeLeaf
    | with_reducible apply C.poolWritten
    | with_reducible apply C.setLeafList
    | with_reducible apply P_ite1)

theorem Closed.chargePort (C : Closed P) {s : State} {a1 : Nat} {a2 : Nat} {a3 : Nat} (h : P s) : P (State.chargePort s a1 a2 a3) := by
  unfold State.chargePort
  repeat' (first
    | with_reducible assumption
    | with_reducible apply C.setPort
    | with_reducible rfl)

theorem Closed.creditFreed (C : Closed P) {s : State} {a1 : Nat} {a2 : Nat} {a3 : Nat} (h : P s) : P (State.creditFreed s a1 a2 a3) := by
  unfold State.creditFreed
  repeat' (first
    | with_reducible assumption
    | with_reducible apply C.setPort
    | with_reducible rfl)

theorem Closed.creditReturn (C : Closed P) {s : State} {a1 : Nat} {a2 : Nat} {a3 : Nat} (h : P s) : P (State.creditReturn s a1 a2 a3) := by
  unfold State.creditReturn
  repeat' (first
    | with_reducible assumption
    | with_reducible apply C.creditFreed
    | with_reducible apply C.setPort
    | with_reducible rfl)

theorem Closed.allocLossy (C : Closed P) {s : State} (h : P s) : P (State.allocLossy s).1 := by
  unfold State.allocLossy
  repeat' (first
    | with_reducible assumption
    | with_reducible apply C.alloc
    | with_reducible apply P_ite1)

theorem Closed.allocMany (C : Closed P) {a0 : State → State × Option Nat} {a1 : Nat} {s : State} {a3 : List Nat} (h : P s) (h1 : ∀ x0, P x0 → P (a0 x0).1) : P (State.allocMany a0 a1 s a3).1 := by
  induction a1 generalizing s a3 with
  | zero => exact h
  | succ k ih =>
    unfold State.allocMany
    split
    · exact ih (P_of_eq (by assumption) (h1 _ h))
    · exact P_foldl (P_of_eq (by assumption) (h1 _ h)) (fun s a hs => C.freeLeaf hs)

theorem Closed.freeLeaves (C : Closed P) {s : State} {a1 : List Nat} (h : P s) : P (State.freeLeaves s a1) := by
  unfold State.freeLeaves
  repeat' (first
    | with_reducible assumption
    | with_reducible apply C.freeLeaf
    | with_reducible refine P_foldl ?_ (fun _ _ _ => ?_))

theorem Closed.linkChain (C : Closed P) {s : State} {a1 : List Nat} (h : P s) : P (State.linkChain s a1) := by
  induction a1 generalizing s with
  | nil => exact h
  | cons x xs ih => exact ih (C.plain h rfl rfl rfl rfl rfl)

theorem Closed.creditCopy (C : Closed P) {s : State} {a1 : Frame} (h : P s) : P (State.creditCopy s a1) := by
  unfold State.creditCopy
  repeat' (first
    | with_reducible assumption
    | with_reducible apply C.creditFreed
    | with_reducible apply C.creditReturn
    | (fail_if_no_progress with_reducible refine C.plain ?_ rfl rfl rfl rfl rfl)
    | split)

theorem Closed.freeFrame (C : Closed P) {s : State} {a1 : Frame} (h : P s) : P (State.freeFrame s a1) := by
  unfold State.freeFrame
  repeat' (first
    | with_reducible assumption
    | with_reducible apply C.creditCopy
    | with_reducible apply C.freeLeaves)

theorem Closed.refFrame (C : Closed P) {s : State} {a1 : Frame} {a2 : Nat} (h : P s) : P (State.refFrame s a1 a2) := by
  unfold State.refFrame
  repeat' (first
    | with_reducible assumption
    | with_reducible apply C.refLeaf
    | with_reducible apply P_ite
    | with_reducible refine P_foldl ?_ (fun _ _ _ => ?_)
    | (fail_if_no_progress with_reducible refine C.plain ?_ rfl rfl rfl rfl rfl))

theorem Closed.fillLeaves (C : Closed P) {s : State} {a1 : List Nat} {a2 : Bytes} (h : P s) : P (State.fillLeaves s a1 a2) := by
  induction a1 generalizing s a2 with
  | nil => exact h
  | cons x xs ih => exact ih (C.writeLeaf h)

theorem Closed.readFrom (C : Closed P) {s : State} {a1 : ReadSource} {a2 : Nat} {a3 : List Nat} {a4 : Nat} {a5 : Bytes} {a6 : Bool} (h : P s) : P (State.readFrom s a1 a2 a3 a4 a5 a6).1 := by
  induction a3 generalizing s a4 a5 a6 with
  | nil => exact h
  | cons x xs ih => exact ih (C.readLeaf h)

theorem Closed.readFrame (C : Closed P) {s : State} {a1 : ReadSource} {a2 : Nat} {a3 : Frame} (h : P s) : P (State.readFrame s a1 a2 a3).1 := by
  unfold State.readFrame
  repeat' (first
    | with_reducible assumption
    | with_reducible apply C.readFrom
    | with_reducible apply P_ite1)

theorem Closed.clearStaged (C : Closed P) {s : State} (h : P s) : P (State.clearStaged s) := by
  unfold State.clearStaged
  repeat' (first
    | with_reducible assumption
    | with_reducible apply C.idxSet
    | with_reducible apply C.clearMem)

theorem Closed.carve (C : Closed P) {s : State} {a1 : Nat} {a2 : Nat} (h : P s) : P (State.carve s a1 a2) := by
  unfold State.carve
  repeat' (first
    | with_reducible assumption
    | with_reducible apply C.clearMem
    | with_reducible apply C.idxSet
    | with_reducible apply C.clearStaged
    | with_reducible apply P_ite)

theorem Closed.poolReset (C : Closed P) {s : State} (h : P s) : P (State.poolReset s) := by
  unfold State.poolReset
  repeat' (first
    | with_reducible assumption
    | (fail_if_no_progress with_reducible refine C.pool ?_ rfl rfl rfl rfl rfl))

theorem Closed.chargesBack (C : Closed P) {s : State} (h : P s) : P (State.chargesBack s) := by
  unfold State.chargesBack
  repeat' (first
    | with_reducible assumption
    | with_reducible apply C.creditReturn
    | with_reducible refine P_foldl ?_ (fun _ _ _ => ?_))

theorem Closed.retagQueue (C : Closed P) {s : State} {a1 : Nat} {a2 : Nat} (h : P s) : P (State.retagQueue s a1 a2) := by
  unfold State.retagQueue
  repeat' (first
    | with_reducible assumption
    | with_reducible apply C.setPort
    | with_reducible exact setQueue_up _ _ _
    | split
    | dsimp only)

theorem Closed.retag (C : Closed P) {s : State} {a1 : Nat} (h : P s) : P (State.retag s a1) := by
  unfold State.retag
  repeat' (first
    | with_reducible assumption
    | with_reducible apply C.retagQueue
    | with_reducible refine P_foldl ?_ (fun _ _ _ => ?_))

theorem Closed.enqueue (C : Closed P) {s : State} {a1 : Nat} {a2 : Frame} (h : P s) : P (State.enqueue s a1 a2).1 := by
  unfold State.enqueue
  repeat' (first
    | with_reducible assumption
    | with_reducible apply C.count
    | with_reducible apply C.freeFrame
    | with_reducible apply C.retag
    | with_reducible apply C.setPort
    | with_reducible apply P_ite1
    | with_reducible exact setQueue_up _ _ _)

theorem Closed.wheelVisit (C : Closed P) {s : State} {a1 : Nat} (h : P s) : P (State.wheelVisit s a1) := by
  unfold State.wheelVisit
  repeat' (first
    | with_reducible assumption
    | with_reducible apply C.setPort
    | with_reducible apply C.retag
    | with_reducible refine P_foldl ?_ (fun _ _ _ => ?_)
    | with_reducible exact setQueue_up _ _ _
    | split
    | dsimp only)

theorem Closed.mirrorSession (C : Closed P) {s : State} {a1 : Nat} {a2 : Capture} (h : P s) : P (State.mirrorSession s a1 a2) := by
  unfold State.mirrorSession
  repeat' (first
    | with_reducible assumption
    | with_reducible apply C.count
    | with_reducible apply C.writeMem
    | with_reducible apply C.poke64
    | with_reducible apply P_ite
    | (fail_if_no_progress with_reducible refine C.plain ?_ rfl rfl rfl rfl rfl))

theorem Closed.mirror (C : Closed P) {s : State} {a1 : Capture} (h : P s) : P (State.mirror s a1) := by
  unfold State.mirror
  repeat' (first
    | with_reducible assumption
    | with_reducible apply C.mirrorSession
    | with_reducible refine P_foldl ?_ (fun _ _ _ => ?_))

theorem Closed.mirrorIngress (C : Closed P) {s : State} {a1 : Frame} {a2 : Nat} (h : P s) : P (State.mirrorIngress s a1 a2) := by
  unfold State.mirrorIngress
  repeat' (first
    | with_reducible assumption
    | with_reducible apply C.mirror)

theorem Closed.transmit (C : Closed P) {s : State} {a1 : Nat} {a2 : Nat} {a3 : Frame} {a4 : List Frame} (h : P s) : P (State.transmit s a1 a2 a3 a4) := by
  unfold State.transmit
  repeat' (first
    | with_reducible assumption
    | with_reducible apply C.readFrame
    | with_reducible apply C.retag
    | with_reducible apply C.setPort
    | with_reducible apply C.mirror
    | with_reducible exact setQueue_up _ _ _)

theorem Closed.requestSequence (C : Closed P) {s : State} (h : P s) : P (State.requestSequence s).2 := by
  unfold State.requestSequence
  repeat' (first
    | with_reducible assumption
    | with_reducible apply C.draw)

theorem Closed.indexRequest (C : Closed P) {s : State} {a1 : Nat} {a2 : Nat} {a3 : List IndexRecord} (h : P s) : P (State.indexRequest s a1 a2 a3).1 := by
  unfold State.indexRequest
  repeat' (first
    | with_reducible assumption
    | with_reducible apply C.requestSequence)

theorem Closed.sendReply (C : Closed P) {s : State} {a1 : Nat} {a2 : Frame} (h : P s) : P (State.sendReply s a1 a2) := by
  unfold State.sendReply
  repeat' (first
    | with_reducible assumption
    | with_reducible apply C.enqueue
    | with_reducible apply P_ite
    | (fail_if_no_progress with_reducible refine C.plain ?_ rfl rfl rfl rfl rfl))

theorem Closed.deliverCompute (C : Closed P) {s : State} {a1 : Frame} (h : P s) : P (State.deliverCompute s a1) := by
  unfold State.deliverCompute
  repeat' (first
    | with_reducible assumption
    | with_reducible apply C.count
    | with_reducible apply C.freeFrame
    | (fail_if_no_progress with_reducible refine C.plain ?_ rfl rfl rfl rfl rfl)
    | split)

theorem Closed.sendFrame (C : Closed P) {s : State} {a1 : Frame} (h : P s) : P (State.sendFrame s a1).1 := by
  unfold State.sendFrame
  repeat' (first
    | with_reducible assumption
    | with_reducible apply C.enqueue
    | with_reducible apply C.deliverCompute
    | with_reducible apply C.count
    | with_reducible apply C.freeFrame
    | split)

end Sys2Proof.Machine
end

