-- ==== Sys2Proof/Laws/ClosedUnits.lean ====
section
/-!
SUPPORT. Sys2Proof/Laws/ClosedUnits.lean: the same of the units, the Collator and the failure of work.
-/
namespace Sys2Proof.Machine

set_option maxRecDepth 8000

variable {P : State → Prop}

theorem Closed.readTile (C : Closed P) {s : State} {a1 : Nat} {a2 : Nat} {a3 : Nat} (h : P s) : P (State.readTile s a1 a2 a3).1 := by
  unfold State.readTile
  repeat' (first
    | with_reducible assumption
    | with_reducible apply C.readMem
    | with_reducible apply P_ite1)

theorem Closed.writeTile (C : Closed P) {s : State} {a1 : Nat} {a2 : Nat} {a3 : Nat} {a4 : Nat} {a5 : Nat} {a6 : List (List Nat)} (h : P s) : P (State.writeTile s a1 a2 a3 a4 a5 a6) := by
  unfold State.writeTile
  repeat' (first
    | with_reducible assumption
    | with_reducible apply C.writeMem
    | with_reducible apply C.setSlot
    | with_reducible apply C.count)

theorem Closed.readStationary (C : Closed P) {s : State} {a1 : Cmd} {a2 : Nat} {a3 : Nat} (h : P s) : P (State.readStationary s a1 a2 a3).1 := by
  unfold State.readStationary
  repeat' (first
    | with_reducible assumption
    | with_reducible apply C.readMem
    | with_reducible refine P_foldl1 ?_ (fun _ _ _ => ?_))

theorem Closed.readAux (C : Closed P) {s : State} {a1 : Cmd} {a2 : Nat} {a3 : Nat} {a4 : Nat} {a5 : Nat} (h : P s) : P (State.readAux s a1 a2 a3 a4 a5).1 := by
  unfold State.readAux
  repeat' (first
    | with_reducible assumption
    | with_reducible apply C.readMem
    | with_reducible refine P_foldl1 ?_ (fun _ _ _ => ?_))

theorem Closed.readAuxData (C : Closed P) {s : State} {a1 : Cmd} {a2 : Nat} {a3 : Nat} (h : P s) : P (State.readAuxData s a1 a2 a3).1 := by
  unfold State.readAuxData
  repeat' (first
    | with_reducible assumption
    | with_reducible apply C.readAux
    | with_reducible apply C.readMem
    | with_reducible apply P_ite1)

theorem Closed.readVector (C : Closed P) {s : State} {a1 : Cmd} {a2 : Nat} {a3 : Nat} {a4 : FMap (Except Nat Bytes)} (h : P s) : P (State.readVector s a1 a2 a3 a4).1 := by
  unfold State.readVector
  repeat' (first
    | with_reducible assumption
    | with_reducible apply C.readTile
    | with_reducible apply C.readMem
    | with_reducible refine P_foldl1 ?_ (fun _ _ _ => ?_)
    | split
    | dsimp only)

theorem Closed.foul (C : Closed P) {s : State} {a1 : Cmd} {a2 : List Nat} (h : P s) : P (State.foul s a1 a2).1 := by
  unfold State.foul
  repeat' (first
    | with_reducible assumption
    | with_reducible apply C.idxBump
    | with_reducible apply C.setRowPoison
    | with_reducible apply P_ite
    | with_reducible refine P_foldl1 ?_ (fun _ _ _ => ?_))

theorem Closed.reachRow (C : Closed P) {s : State} {a1 : Cmd} {a2 : Nat} (h : P s) : P (State.reachRow s a1 a2).1 := by
  unfold State.reachRow
  repeat' (first
    | with_reducible assumption
    | with_reducible apply C.setRowPoison
    | with_reducible apply P_ite
    | with_reducible apply P_ite1)

theorem Closed.runVector (C : Closed P) {s : State} {a1 : Cmd} {a2 : Nat} {a3 : Nat} {a4 : List Val} {a5 : Nat → Option Nat} {a6 : List (List Val)} {a7 : Nat → Nat → Option Nat} (h : P s) : P (State.runVector s a1 a2 a3 a4 a5 a6 a7).1 := by
  unfold State.runVector
  repeat' (first
    | with_reducible assumption
    | with_reducible apply C.setAcc
    | with_reducible apply C.reachRow
    | with_reducible refine P_foldl1 ?_ (fun _ _ _ => ?_))

theorem Closed.readStreamed (C : Closed P) {s : State} {a1 : Cmd} {a2 : Nat} {a3 : Nat} {a4 : FMap (Except Nat Bytes)} (h : P s) : P (State.readStreamed s a1 a2 a3 a4).1 := by
  unfold State.readStreamed
  repeat' (first
    | with_reducible assumption
    | with_reducible apply C.readVector
    | with_reducible apply C.readMem
    | with_reducible apply P_ite1)

theorem Closed.zeroRow (C : Closed P) {s : State} {a1 : Cmd} {a2 : Nat} (h : P s) : P (State.zeroRow s a1 a2) := by
  unfold State.zeroRow
  repeat' (first
    | with_reducible assumption
    | with_reducible apply C.setAcc
    | with_reducible refine P_foldl ?_ (fun _ _ _ => ?_))

theorem Closed.reachRows (C : Closed P) {s : State} {a1 : Cmd} {a2 : Nat} (h : P s) : P (State.reachRows s a1 a2).1 := by
  unfold State.reachRows
  repeat' (first
    | with_reducible assumption
    | with_reducible apply C.reachRow
    | with_reducible refine P_foldl1 ?_ (fun _ _ _ => ?_))

theorem Closed.gateRow (C : Closed P) {s : State} {a1 : Cmd} {a2 : Nat} (h : P s) : P (State.gateRow s a1 a2).1 := by
  unfold State.gateRow
  repeat' (first
    | with_reducible assumption
    | with_reducible apply C.readMem
    | with_reducible apply C.foul
    | with_reducible apply C.reachRows
    | with_reducible apply C.zeroRow
    | with_reducible apply P_ite1)

theorem Closed.closeAudits (C : Closed P) {s : State} {a1 : Cmd} (h : P s) : P (State.closeAudits s a1).1 := by
  unfold State.closeAudits
  repeat' (first
    | with_reducible assumption
    | with_reducible apply C.zeroRow
    | with_reducible apply P_ite1
    | with_reducible refine P_foldl1 ?_ (fun _ _ _ => ?_))

theorem Closed.runPass (C : Closed P) {s : State} {a1 : Cmd} (h : P s) : P (State.runPass s a1).1 := by
  unfold State.runPass
  repeat' (first
    | with_reducible assumption
    | with_reducible apply C.readStationary
    | with_reducible apply C.readAuxData
    | with_reducible apply C.gateRow
    | with_reducible apply C.count
    | with_reducible apply C.foul
    | with_reducible apply C.readStreamed
    | with_reducible apply C.runVector
    | with_reducible apply C.closeAudits
    | with_reducible refine P_foldl1 ?_ (fun _ _ _ => ?_)
    | split
    | dsimp only)

theorem Closed.blameStep (C : Closed P) {s : State} {a1 : Option (Nat × Nat)} (h : P s) : P (State.blameStep s a1) := by
  unfold State.blameStep
  repeat' (first
    | with_reducible assumption
    | (fail_if_no_progress with_reducible refine C.plain ?_ rfl rfl rfl rfl rfl)
    | split
    | dsimp only)

theorem Closed.divergenceWords (C : Closed P) {s : State} {a1 : Nat} {a2 : Option Digest} {a3 : Option Digest} (h : P s) : P (State.divergenceWords s a1 a2 a3).1 := by
  unfold State.divergenceWords
  repeat' (first
    | with_reducible assumption
    | with_reducible apply C.draw)

theorem Closed.diverge (C : Closed P) {s : State} {a1 : Nat} {a2 : Option Digest} {a3 : Option Digest} (h : P s) : P (State.diverge s a1 a2 a3) := by
  unfold State.diverge
  repeat' (first
    | with_reducible assumption
    | with_reducible apply C.divergenceWords
    | with_reducible apply C.blameStep
    | with_reducible apply C.idxBump
    | with_reducible apply C.stopCores
    | with_reducible apply P_ite
    | (fail_if_no_progress with_reducible refine C.plain ?_ rfl rfl rfl rfl rfl))

theorem Closed.comparePair (C : Closed P) {s : State} {a1 : Digest} {a2 : Digest} (h : P s) : P (State.comparePair s a1 a2) := by
  unfold State.comparePair
  repeat' (first
    | with_reducible assumption
    | with_reducible apply C.count
    | with_reducible apply C.diverge
    | with_reducible apply P_ite)

theorem Closed.takeDigest (C : Closed P) {s : State} {a1 : Bool} {a2 : Digest} (h : P s) : P (State.takeDigest s a1 a2) := by
  unfold State.takeDigest
  repeat' (first
    | with_reducible assumption
    | with_reducible apply C.diverge
    | with_reducible apply C.idxBump
    | with_reducible apply C.comparePair
    | with_reducible apply P_ite
    | (fail_if_no_progress with_reducible refine C.plain ?_ rfl rfl rfl rfl rfl)
    | split)

theorem Closed.digest (C : Closed P) {s : State} {a1 : Cmd} {a2 : Nat} {a3 : Bool} {a4 : Nat} {a5 : Nat} (h : P s) : P (State.digest s a1 a2 a3 a4 a5) := by
  unfold State.digest
  repeat' (first
    | with_reducible assumption
    | with_reducible apply C.takeDigest
    | with_reducible apply P_ite
    | (fail_if_no_progress with_reducible refine C.plain ?_ rfl rfl rfl rfl rfl)
    | split)

theorem Closed.execLagExpiry (C : Closed P) {a0 : CoreId} {a1 : BitVec 32} {a2 : BitVec 32} {s : State} (h : P s) : Res P (Sys2Proof.Machine.execLagExpiry a0 a1 a2 s) := by
  unfold Sys2Proof.Machine.execLagExpiry
  repeat' (first
    | with_reducible assumption
    | with_reducible apply C.ends
    | with_reducible apply C.diverge
    | (fail_if_no_progress with_reducible refine C.plain ?_ rfl rfl rfl rfl rfl)
    | split)

theorem Closed.readMask (C : Closed P) {s : State} {a1 : Cmd} {a2 : Nat} {a3 : Nat} {a4 : Nat} (h : P s) : P (State.readMask s a1 a2 a3 a4).1 := by
  unfold State.readMask
  repeat' (first
    | with_reducible assumption
    | with_reducible apply C.readMem
    | with_reducible apply P_ite1)

theorem Closed.convertItem (C : Closed P) {s : State} {a1 : Cmd} {a2 : Nat} (h : P s) : P (State.convertItem s a1 a2).1 := by
  unfold State.convertItem
  repeat' (first
    | with_reducible assumption
    | with_reducible apply C.readMask)

theorem Closed.storeRow (C : Closed P) {s : State} {a1 : Nat} {a2 : Nat} {a3 : Bytes} {a4 : StoreRun} (h : P s) : P (State.storeRow s a1 a2 a3 a4).1 := by
  unfold State.storeRow
  repeat' (first
    | with_reducible assumption
    | with_reducible apply C.writeBack)

theorem Closed.storeItem (C : Closed P) {s : State} {a1 : Cmd} {a2 : Nat} {a3 : ItemOut} (h : P s) : P (State.storeItem s a1 a2 a3).1 := by
  unfold State.storeItem
  repeat' (first
    | with_reducible assumption
    | with_reducible apply C.storeRow
    | with_reducible apply C.readMem
    | with_reducible apply C.checkStored
    | with_reducible apply P_ite1
    | with_reducible refine P_foldl1 ?_ (fun _ _ _ => ?_))

theorem Closed.stashItem (C : Closed P) {s : State} {a1 : Cmd} {a2 : Nat} {a3 : ItemOut} (h : P s) : P (State.stashItem s a1 a2 a3).1 := by
  unfold State.stashItem
  repeat' (first
    | with_reducible assumption
    | with_reducible apply C.readTile
    | with_reducible apply C.readMem
    | with_reducible apply C.writeTile
    | split
    | dsimp only)

theorem Closed.itemFailed (C : Closed P) {s : State} {a1 : Cmd} {a2 : Nat} {a3 : Nat} {a4 : Counts} (h : P s) : P (State.itemFailed s a1 a2 a3 a4).1 := by
  unfold State.itemFailed
  repeat' (first
    | with_reducible assumption
    | with_reducible apply C.digest)

theorem Closed.itemOk (C : Closed P) {s : State} {a1 : Cmd} {a2 : Nat} {a3 : Nat} {a4 : Counts} (h : P s) : P (State.itemOk s a1 a2 a3 a4).1 := by
  unfold State.itemOk
  repeat' (first
    | with_reducible assumption
    | with_reducible apply C.digest)

theorem Closed.readElement (C : Closed P) {s : State} {a1 : Nat} {a2 : Nat} {a3 : Nat} {a4 : Nat} {a5 : Nat} {a6 : Nat} (h : P s) : P (State.readElement s a1 a2 a3 a4 a5 a6).1 := by
  unfold State.readElement
  repeat' (first
    | with_reducible assumption
    | with_reducible apply C.readMem)

theorem Closed.readScale (C : Closed P) {s : State} {a1 : Nat} {a2 : Nat} {a3 : Nat} {a4 : Nat} {a5 : Nat} (h : P s) : P (State.readScale s a1 a2 a3 a4 a5).1 := by
  unfold State.readScale
  repeat' (first
    | with_reducible assumption
    | with_reducible apply C.readMem)

theorem Closed.vopSource (C : Closed P) {s : State} {a1 : Cmd} {a2 : Nat} {a3 : Nat} (h : P s) : P (State.vopSource s a1 a2 a3).1 := by
  unfold State.vopSource
  repeat' (first
    | with_reducible assumption
    | with_reducible apply C.readTile
    | with_reducible apply C.readElement
    | with_reducible apply C.readScale
    | split
    | dsimp only)

theorem Closed.writeElement (C : Closed P) {s : State} {a1 : Nat} {a2 : Nat} {a3 : Nat} {a4 : Nat} {a5 : Nat} {a6 : Nat} {a7 : Nat} (h : P s) : P (State.writeElement s a1 a2 a3 a4 a5 a6 a7) := by
  unfold State.writeElement
  repeat' (first
    | with_reducible assumption
    | with_reducible apply C.readMem
    | with_reducible apply C.writeMem
    | with_reducible apply P_ite)

theorem Closed.vopElement (C : Closed P) {s : State} {a1 : Cmd} {a2 : Nat} (h : P s) : P (State.vopElement s a1 a2).1 := by
  unfold State.vopElement
  repeat' (first
    | with_reducible assumption
    | with_reducible apply C.vopSource)

theorem Closed.vopIterate (C : Closed P) {s : State} {a1 : Cmd} (h : P s) : P (State.vopIterate s a1).1 := by
  unfold State.vopIterate
  repeat' (first
    | with_reducible assumption
    | with_reducible apply C.vopElement
    | with_reducible apply C.writeElement
    | with_reducible refine P_foldl1 ?_ (fun _ _ _ => ?_)
    | split
    | dsimp only)

theorem Closed.vopBlocks (C : Closed P) {s : State} {a1 : Cmd} (h : P s) : P (State.vopBlocks s a1).1 := by
  unfold State.vopBlocks
  repeat' (first
    | with_reducible assumption
    | with_reducible apply C.vopElement
    | with_reducible apply C.writeMem
    | with_reducible apply C.writeElement
    | with_reducible refine P_foldl ?_ (fun _ _ _ => ?_)
    | with_reducible refine P_foldl1 ?_ (fun _ _ _ => ?_)
    | split
    | dsimp only)

theorem Closed.runVop (C : Closed P) {s : State} {a1 : Cmd} (h : P s) : P (State.runVop s a1).1 := by
  unfold State.runVop
  repeat' (first
    | with_reducible assumption
    | with_reducible apply C.vopBlocks
    | with_reducible apply C.vopIterate
    | with_reducible apply C.writeTile
    | with_reducible apply P_ite1)

theorem Closed.vredSources (C : Closed P) {s : State} {a1 : Cmd} {a2 : Nat} (h : P s) : P (State.vredSources s a1 a2).1 := by
  unfold State.vredSources
  repeat' (first
    | with_reducible assumption
    | with_reducible apply C.readElement
    | with_reducible refine P_foldl1 ?_ (fun _ _ _ => ?_))

theorem Closed.vredBlock (C : Closed P) {s : State} {a1 : Cmd} {a2 : VecRun} {a3 : List Nat} (h : P s) : P (State.vredBlock s a1 a2 a3).1 := by
  unfold State.vredBlock
  repeat' (first
    | with_reducible assumption
    | with_reducible apply C.vredSources
    | with_reducible apply C.writeElement
    | with_reducible apply P_ite1
    | with_reducible refine P_foldl ?_ (fun _ _ _ => ?_)
    | with_reducible refine P_foldl1 ?_ (fun _ _ _ => ?_))

theorem Closed.runVred (C : Closed P) {s : State} {a1 : Cmd} (h : P s) : P (State.runVred s a1).1 := by
  unfold State.runVred
  repeat' (first
    | with_reducible assumption
    | with_reducible apply C.vredBlock
    | with_reducible refine P_foldl1 ?_ (fun _ _ _ => ?_))

theorem Closed.readUnits (C : Closed P) {s : State} {a1 : Cmd} {a2 : Nat} (h : P s) : P (State.readUnits s a1 a2).1 := by
  unfold State.readUnits
  repeat' (first
    | with_reducible assumption
    | with_reducible apply C.readMem
    | with_reducible refine P_foldl1 ?_ (fun _ _ _ => ?_))

theorem Closed.copyUnit (C : Closed P) {s : State} {a1 : Nat} {a2 : Nat} {a3 : Nat} {a4 : StoreRun} (h : P s) : P (State.copyUnit s a1 a2 a3 a4).1 := by
  unfold State.copyUnit
  repeat' (first
    | with_reducible assumption
    | with_reducible apply C.readMem
    | with_reducible apply C.storeRow
    | with_reducible apply C.poisonMem
    | with_reducible apply P_ite
    | with_reducible refine P_foldl ?_ (fun _ _ _ => ?_))

theorem Closed.copyItem (C : Closed P) {s : State} {a1 : Cmd} {a2 : Nat} (h : P s) : P (State.copyItem s a1 a2).1 := by
  unfold State.copyItem
  repeat' (first
    | with_reducible assumption
    | with_reducible apply C.copyUnit
    | with_reducible apply C.itemFailed
    | with_reducible apply C.checkStored
    | with_reducible apply C.itemOk
    | with_reducible apply P_ite1
    | with_reducible refine P_foldl1 ?_ (fun _ _ _ => ?_))

theorem Closed.runCopy (C : Closed P) {s : State} {a1 : Cmd} (h : P s) : P (State.runCopy s a1).1 := by
  unfold State.runCopy
  repeat' (first
    | with_reducible assumption
    | with_reducible apply C.copyItem
    | with_reducible refine P_foldl1 ?_ (fun _ _ _ => ?_))

theorem Closed.lateFragment (C : Closed P) {s : State} {a1 : Nat} {a2 : Option Nat} (h : P s) : P (State.lateFragment s a1 a2) := by
  unfold State.lateFragment
  repeat' (first
    | with_reducible assumption
    | with_reducible apply C.idxBump
    | with_reducible apply C.setCtx
    | split)

theorem Closed.writeItemLeaf (C : Closed P) {s : State} {a1 : Item} {a2 : Nat} {a3 : Nat} {a4 : Bytes} (h : P s) : P (State.writeItemLeaf s a1 a2 a3 a4) := by
  unfold State.writeItemLeaf
  repeat' (first
    | with_reducible assumption
    | with_reducible apply C.writeLeaf
    | split)

theorem Closed.clearItemLeaves (C : Closed P) {s : State} {a1 : Ctx} {a2 : Item} (h : P s) : P (State.clearItemLeaves s a1 a2) := by
  unfold State.clearItemLeaves
  repeat' (first
    | with_reducible assumption
    | with_reducible apply C.writeItemLeaf
    | with_reducible refine P_foldl ?_ (fun _ _ _ => ?_))

theorem Closed.openItem (C : Closed P) {s : State} {a1 : Nat} {a2 : Nat} (h : P s) : Opt P (State.openItem s a1 a2) := by
  unfold State.openItem
  repeat' (first
    | with_reducible assumption
    | with_reducible apply C.clearItemLeaves
    | with_reducible apply C.setCtx
    | with_reducible apply C.allocMany
    | with_reducible apply C.alloc
    | with_reducible apply C.count
    | with_reducible exact P_none
    | with_reducible refine P_some ?_
    | with_reducible refine P_optIte ?_ ?_
    | intro _
    | split
    | (refine P_of_eq (by with_reducible assumption) ?_))

theorem Closed.loadStates (C : Closed P) {s : State} {a1 : Nat} {a2 : Item} {a3 : Nat} {a4 : Nat} (h : P s) : P (State.loadStates s a1 a2 a3 a4).1 := by
  unfold State.loadStates
  repeat' (first
    | with_reducible assumption
    | with_reducible apply C.readLeaf
    | with_reducible refine P_foldl1 ?_ (fun _ _ _ => ?_)
    | split
    | dsimp only)

theorem Closed.storeStates (C : Closed P) {s : State} {a1 : Item} {a2 : Nat} {a3 : Nat} (h : P s) : P (State.storeStates s a1 a2 a3) := by
  unfold State.storeStates
  repeat' (first
    | with_reducible assumption
    | with_reducible apply C.writeItemLeaf
    | with_reducible refine P_foldl ?_ (fun _ _ _ => ?_))

theorem Closed.storeData (C : Closed P) {s : State} {a1 : Item} {a2 : Nat} {a3 : Bytes} (h : P s) : P (State.storeData s a1 a2 a3) := by
  unfold State.storeData
  repeat' (first
    | with_reducible assumption
    | with_reducible apply C.writeItemLeaf
    | with_reducible refine P_foldl ?_ (fun _ _ _ => ?_))

theorem Closed.readItemLeaves (C : Closed P) {s : State} {a1 : Nat} {a2 : Item} (h : P s) : P (State.readItemLeaves s a1 a2).1 := by
  unfold State.readItemLeaves
  repeat' (first
    | with_reducible assumption
    | with_reducible apply C.readLeaf
    | with_reducible refine P_foldl1 ?_ (fun _ _ _ => ?_))

theorem Closed.loadItem (C : Closed P) {s : State} {a1 : Ctx} {a2 : Item} (h : P s) : P (State.loadItem s a1 a2).1 := by
  unfold State.loadItem
  repeat' (first
    | with_reducible assumption
    | with_reducible apply C.readItemLeaves
    | with_reducible apply C.loadStates
    | with_reducible apply P_ite1)

theorem Closed.closeItem (C : Closed P) {s : State} {a1 : Nat} {a2 : Nat} (h : P s) : P (State.closeItem s a1 a2) := by
  unfold State.closeItem
  repeat' (first
    | with_reducible assumption
    | with_reducible apply C.setCtx
    | with_reducible apply C.freeLeaves
    | with_reducible apply P_ite)

theorem Closed.writeHead (C : Closed P) {s : State} {a1 : Ctx} {a2 : Nat} {a3 : Nat} {a4 : Bytes} (h : P s) : P (State.writeHead s a1 a2 a3 a4) := by
  unfold State.writeHead
  repeat' (first
    | with_reducible assumption
    | with_reducible apply C.writeMem)

theorem Closed.emitDone (C : Closed P) {s : State} {a1 : Nat} {a2 : Nat} {a3 : Nat} {a4 : Nat} (h : P s) : P (State.emitDone s a1 a2 a3 a4) := by
  unfold State.emitDone
  repeat' (first
    | with_reducible assumption
    | with_reducible apply C.setCtx)

theorem Closed.emitMore (C : Closed P) {s : State} {a1 : Nat} {a2 : Nat} (h : P s) : P (State.emitMore s a1 a2) := by
  unfold State.emitMore
  repeat' (first
    | with_reducible assumption
    | with_reducible apply C.setCtx)

theorem Closed.emitFrame (C : Closed P) {s : State} {a1 : Nat} {a2 : Nat} {a3 : Nat} {a4 : FolioHeader} {a5 : Bytes} (h : P s) : P (State.emitFrame s a1 a2 a3 a4 a5) := by
  unfold State.emitFrame
  repeat' (first
    | with_reducible assumption
    | with_reducible apply C.sendFrame
    | with_reducible apply C.emitMore
    | with_reducible apply C.emitDone
    | with_reducible apply P_ite)

theorem Closed.emitOne (C : Closed P) {s : State} {a1 : Nat} {a2 : Nat} {a3 : Nat} {a4 : Nat} {a5 : EmitOut} (h : P s) : P (State.emitOne s a1 a2 a3 a4 a5) := by
  unfold State.emitOne
  repeat' (first
    | with_reducible assumption
    | with_reducible apply C.writeHead
    | with_reducible apply C.writeBack
    | with_reducible apply C.checkStored
    | with_reducible apply C.emitDone
    | with_reducible apply C.emitMore
    | with_reducible apply C.emitFrame
    | with_reducible apply C.setCtx
    | with_reducible refine P_foldl ?_ (fun _ _ _ => ?_)
    | split
    | dsimp only)

theorem Closed.emitAll (C : Closed P) {s : State} {a1 : Nat} {a2 : Nat} {a3 : Nat} {a4 : List EmitOut} (h : P s) : P (State.emitAll s a1 a2 a3 a4) := by
  unfold State.emitAll
  repeat' (first
    | with_reducible assumption
    | with_reducible apply C.emitOne
    | with_reducible refine P_foldl ?_ (fun _ _ _ => ?_))

theorem Closed.markItem (C : Closed P) {s : State} {a1 : Nat} {a2 : Nat} {a3 : Nat} {a4 : Counts} {a5 : Nat} {a6 : Nat} {a7 : Nat} (h : P s) : P (State.markItem s a1 a2 a3 a4 a5 a6 a7) := by
  unfold State.markItem
  repeat' (first
    | with_reducible assumption
    | with_reducible apply C.setCtx)

theorem Closed.failItem (C : Closed P) {s : State} {a1 : Nat} {a2 : Nat} {a3 : Nat} (h : P s) : P (State.failItem s a1 a2 a3) := by
  unfold State.failItem
  repeat' (first
    | with_reducible assumption
    | with_reducible apply C.emitAll
    | with_reducible apply C.markItem
    | with_reducible apply P_ite)

theorem Closed.finishItem (C : Closed P) {s : State} {a1 : Nat} {a2 : Nat} (h : P s) : P (State.finishItem s a1 a2) := by
  unfold State.finishItem
  repeat' (first
    | with_reducible assumption
    | with_reducible apply C.loadItem
    | with_reducible apply C.failItem
    | with_reducible apply C.setCtx
    | with_reducible apply C.idxBump
    | with_reducible apply C.markItem
    | with_reducible apply C.emitAll
    | with_reducible apply P_ite)

theorem Closed.dropLead (C : Closed P) {s : State} {a1 : Nat} (h : P s) : P (State.dropLead s a1) := by
  unfold State.dropLead
  repeat' (first
    | with_reducible assumption
    | with_reducible apply C.lateFragment
    | with_reducible apply C.freeLeaves
    | with_reducible apply C.setCtx
    | with_reducible refine P_foldl ?_ (fun _ _ _ => ?_))

theorem Closed.endItem (C : Closed P) {s : State} {a1 : Nat} {a2 : Nat} {a3 : Nat} (h : P s) : P (State.endItem s a1 a2 a3) := by
  unfold State.endItem
  repeat' (first
    | with_reducible assumption
    | with_reducible apply C.finishItem
    | with_reducible apply C.failItem
    | with_reducible apply P_ite
    | split)

theorem Closed.failRest (C : Closed P) {s : State} {a1 : Nat} {a2 : Nat} (h : P s) : P (State.failRest s a1 a2) := by
  unfold State.failRest
  repeat' (first
    | with_reducible assumption
    | with_reducible apply C.endItem
    | with_reducible refine P_foldl ?_ (fun _ _ _ => ?_))

theorem Closed.fence (C : Closed P) {s : State} {a1 : Nat} (h : P s) : P (State.fence s a1) := by
  unfold State.fence
  repeat' (first
    | with_reducible assumption
    | with_reducible apply C.dropLead
    | with_reducible apply C.setCtx
    | with_reducible apply C.failRest
    | with_reducible apply P_ite)

theorem Closed.markLaggard (C : Closed P) {s : State} {a1 : Nat} {a2 : Nat} (h : P s) : P (State.markLaggard s a1 a2) := by
  unfold State.markLaggard
  repeat' (first
    | with_reducible assumption
    | with_reducible apply C.setCtx
    | with_reducible apply C.idxBump
    | (fail_if_no_progress with_reducible refine C.plain ?_ rfl rfl rfl rfl rfl)
    | split
    | dsimp only)

theorem Closed.windows (C : Closed P) {s : State} {a1 : Nat} {a2 : Option Nat} {a3 : Member → Member} (h : P s) : P (State.windows s a1 a2 a3) := by
  unfold State.windows
  repeat' (first
    | with_reducible assumption
    | with_reducible apply C.setCtx
    | with_reducible apply C.markLaggard
    | with_reducible refine P_foldl ?_ (fun _ _ _ => ?_))

theorem Closed.barrier (C : Closed P) {s : State} {a1 : Nat} (h : P s) : P (State.barrier s a1) := by
  unfold State.barrier
  repeat' (first
    | with_reducible assumption
    | with_reducible apply C.idxSet
    | with_reducible apply C.windows
    | with_reducible apply P_ite
    | split)

theorem Closed.nameFailed (C : Closed P) {s : State} {a1 : Nat} (h : P s) : P (State.nameFailed s a1) := by
  unfold State.nameFailed
  repeat' (first
    | with_reducible assumption
    | with_reducible apply C.idxSet
    | with_reducible apply C.windows
    | with_reducible apply P_ite)

theorem Closed.finishStep (C : Closed P) {s : State} {a1 : Nat} {a2 : Nat} {a3 : List (Nat × Nat × Counts × Nat)} (h : P s) : P (State.finishStep s a1 a2 a3) := by
  unfold State.finishStep
  repeat' (first
    | with_reducible assumption
    | with_reducible apply C.itemFailed
    | with_reducible apply C.itemOk
    | with_reducible apply C.finishCmd
    | with_reducible refine P_foldl1 ?_ (fun _ _ _ => ?_)
    | split)

theorem Closed.endStep (C : Closed P) {s : State} {a1 : Nat} (h : P s) : P (State.endStep s a1) := by
  unfold State.endStep
  repeat' (first
    | with_reducible assumption
    | with_reducible apply C.setCtx)

theorem Closed.recordStep (C : Closed P) {s : State} {a1 : Nat} {a2 : Bool} {a3 : Bool} {a4 : Bool} (h : P s) : P (State.recordStep s a1 a2 a3 a4) := by
  unfold State.recordStep
  repeat' (first
    | with_reducible assumption
    | with_reducible apply C.setCtx
    | with_reducible apply C.barrier
    | with_reducible apply C.dropLead
    | with_reducible apply P_ite)

theorem Closed.closeStep (C : Closed P) {s : State} {a1 : Nat} {a2 : Bool} (h : P s) : P (State.closeStep s a1 a2) := by
  unfold State.closeStep
  repeat' (first
    | with_reducible assumption
    | with_reducible apply C.endStep
    | with_reducible apply C.recordStep
    | with_reducible apply C.finishStep
    | split
    | dsimp only)

theorem Closed.settleCtx (C : Closed P) {s : State} {a1 : Nat} {a2 : Bool} (h : P s) : P (State.settleCtx s a1 a2) := by
  unfold State.settleCtx
  repeat' (first
    | with_reducible assumption
    | with_reducible apply C.closeItem
    | with_reducible apply C.setCtx
    | with_reducible apply C.closeStep
    | with_reducible apply P_ite
    | with_reducible refine P_foldl ?_ (fun _ _ _ => ?_))

theorem Closed.strike (C : Closed P) {s : State} {a1 : Nat} {a2 : Nat} {a3 : Nat × Bool} (h : P s) : P (State.strike s a1 a2 a3) := by
  unfold State.strike
  repeat' (first
    | with_reducible assumption
    | with_reducible apply C.setCtx)

theorem Closed.take (C : Closed P) {s : State} {a1 : Nat} {a2 : Contribution} (h : P s) : P (State.take s a1 a2) := by
  unfold State.take
  repeat' (first
    | with_reducible assumption
    | with_reducible apply C.setCtx
    | with_reducible apply C.storeStates
    | with_reducible apply C.storeData
    | with_reducible apply C.count
    | with_reducible apply C.finishItem
    | with_reducible apply P_ite)

theorem Closed.absorb (C : Closed P) {s : State} {a1 : Nat} {a2 : Contribution} (h : P s) : Opt1 P (State.absorb s a1 a2) := by
  unfold State.absorb
  repeat' (first
    | with_reducible assumption
    | with_reducible apply C.fence
    | with_reducible apply C.lateFragment
    | with_reducible apply C.loadStates
    | with_reducible apply C.strike
    | with_reducible apply C.openItem
    | with_reducible apply C.setCtx
    | with_reducible apply C.take
    | with_reducible exact P_none1
    | with_reducible refine P_some1 ?_
    | with_reducible refine P_ofSome (by with_reducible assumption) ?_
    | split
    | dsimp only)

theorem Closed.contribute (C : Closed P) {s : State} {a1 : Nat} {a2 : Nat} {a3 : Nat} {a4 : Bytes} (h : P s) : Opt1 P (State.contribute s a1 a2 a3 a4) := by
  unfold State.contribute
  repeat' (first
    | with_reducible assumption
    | with_reducible apply C.lateFragment
    | with_reducible apply C.absorb
    | with_reducible exact P_none1
    | with_reducible refine P_some1 ?_
    | with_reducible refine P_optIte1 ?_ ?_)

theorem Closed.contributeAcross (C : Closed P) {s : State} {a1 : Nat} {a2 : Nat} {a3 : Nat} {a4 : Bytes} (h : P s) : Opt1 P (State.contributeAcross s a1 a2 a3 a4) := by
  unfold State.contributeAcross
  repeat' (first
    | with_reducible assumption
    | with_reducible apply C.crosses
    | with_reducible apply C.contribute
    | with_reducible exact P_none1
    | with_reducible refine P_some1 ?_
    | with_reducible refine P_optIte1 ?_ ?_
    | with_reducible refine P_ofSome1 (by with_reducible assumption) ?_
    | with_reducible refine P_getD1 ?_ ?_
    | split)

theorem Closed.landItem (C : Closed P) {s : State} {a1 : Nat} {a2 : Nat} (h : P s) : P (State.landItem s a1 a2) := by
  unfold State.landItem
  repeat' (first
    | with_reducible assumption
    | with_reducible apply C.finishItem
    | with_reducible apply C.fence
    | with_reducible apply C.failItem
    | with_reducible apply P_ite
    | split)

theorem Closed.landCtx (C : Closed P) {s : State} {a1 : Nat} (h : P s) : P (State.landCtx s a1) := by
  unfold State.landCtx
  repeat' (first
    | with_reducible assumption
    | with_reducible apply C.landItem
    | with_reducible apply P_ite
    | with_reducible refine P_foldl ?_ (fun _ _ _ => ?_))

theorem Closed.offerLocal (C : Closed P) {s : State} {a1 : Nat} {a2 : LocalEmit} (h : P s) : P (State.offerLocal s a1 a2) := by
  unfold State.offerLocal
  repeat' (first
    | with_reducible assumption
    | with_reducible apply C.contribute
    | with_reducible apply C.emitDone
    | with_reducible apply C.setCtx
    | with_reducible apply P_ite
    | with_reducible refine P_ofSome1 (by with_reducible assumption) ?_
    | split)

theorem Closed.drainLocal (C : Closed P) {s : State} (h : P s) : P (State.drainLocal s) := by
  unfold State.drainLocal
  repeat' (first
    | with_reducible assumption
    | with_reducible apply C.offerLocal
    | with_reducible refine P_foldl ?_ (fun _ _ _ => ?_))

theorem Closed.settle (C : Closed P) {s : State} {a1 : Option Nat} (h : P s) : P (State.settle s a1) := by
  unfold State.settle
  repeat' (first
    | with_reducible assumption
    | with_reducible apply C.settleCtx
    | with_reducible refine P_foldl ?_ (fun _ _ _ => ?_))

theorem Closed.endCycle (C : Closed P) {s : State} (h : P s) : P (State.endCycle s) := by
  unfold State.endCycle
  repeat' (first
    | with_reducible assumption
    | with_reducible apply C.landCtx
    | with_reducible apply C.settle
    | with_reducible apply C.drainLocal
    | with_reducible refine P_foldl ?_ (fun _ _ _ => ?_))

theorem Closed.readFragment (C : Closed P) {s : State} {a1 : Nat} {a2 : Frame} (h : P s) : P (State.readFragment s a1 a2).1 := by
  unfold State.readFragment
  repeat' (first
    | with_reducible assumption
    | with_reducible apply C.readFrame)

theorem Closed.takeFragment (C : Closed P) {s : State} {a1 : Nat} {a2 : Frame} (h : P s) : P (State.takeFragment s a1 a2).1 := by
  unfold State.takeFragment
  repeat' (first
    | with_reducible assumption
    | with_reducible apply C.count
    | with_reducible apply C.freeFrame
    | with_reducible apply C.readFragment
    | with_reducible apply C.lateFragment
    | with_reducible apply C.absorb
    | with_reducible apply C.allocMany
    | with_reducible apply C.alloc
    | with_reducible apply C.fillLeaves
    | with_reducible apply C.setCtx
    | with_reducible apply C.fence
    | with_reducible apply P_ite1
    | with_reducible refine P_ofSome1 (by with_reducible assumption) ?_
    | intro _
    | split
    | (refine P_of_eq (by with_reducible assumption) ?_))

theorem Closed.takeOrHold (C : Closed P) {s : State} {a1 : Nat} {a2 : Frame} (h : P s) : P (State.takeOrHold s a1 a2) := by
  unfold State.takeOrHold
  repeat' (first
    | with_reducible assumption
    | with_reducible apply C.takeFragment
    | (fail_if_no_progress with_reducible refine C.plain ?_ rfl rfl rfl rfl rfl)
    | split
    | (refine P_of_eq (by with_reducible assumption) ?_))

theorem Closed.execFragmentArrive (C : Closed P) {a0 : QuireId} {s : State} (h : P s) : Res P (Sys2Proof.Machine.execFragmentArrive a0 s) := by
  unfold Sys2Proof.Machine.execFragmentArrive
  repeat' (first
    | with_reducible assumption
    | with_reducible apply C.ends
    | with_reducible apply C.settle
    | with_reducible apply C.takeOrHold
    | (fail_if_no_progress with_reducible refine C.plain ?_ rfl rfl rfl rfl rfl)
    | split)

theorem Closed.leadContribution (C : Closed P) {s : State} {a1 : Nat} {a2 : Lead} (h : P s) : P (State.leadContribution s a1 a2).1 := by
  unfold State.leadContribution
  repeat' (first
    | with_reducible assumption
    | with_reducible apply C.readFrom)

theorem Closed.absorbOne (C : Closed P) {s : State} {a1 : Nat} {a2 : Lead} (h : P s) : P (State.absorbOne s a1 a2) := by
  unfold State.absorbOne
  repeat' (first
    | with_reducible assumption
    | with_reducible apply C.lateFragment
    | with_reducible apply C.freeLeaves
    | with_reducible apply C.setCtx
    | with_reducible apply C.leadContribution
    | with_reducible apply C.absorb
    | with_reducible refine P_ofSome1 (by with_reducible assumption) ?_
    | split
    | dsimp only)

theorem Closed.absorbLead (C : Closed P) {s : State} {a1 : Nat} (h : P s) : P (State.absorbLead s a1) := by
  unfold State.absorbLead
  repeat' (first
    | with_reducible assumption
    | with_reducible apply C.absorbOne
    | with_reducible apply P_ite
    | with_reducible refine P_foldl ?_ (fun _ _ _ => ?_))

theorem Closed.retryStalled (C : Closed P) {s : State} {a1 : Nat} {a2 : Bool} (h : P s) : P (State.retryStalled s a1 a2) := by
  unfold State.retryStalled
  repeat' (first
    | with_reducible assumption
    | with_reducible apply C.absorbLead
    | with_reducible apply C.settle
    | with_reducible apply C.takeOrHold
    | with_reducible apply P_ite
    | with_reducible refine P_foldl ?_ (fun _ _ _ => ?_)
    | (fail_if_no_progress with_reducible refine C.plain ?_ rfl rfl rfl rfl rfl))

theorem Closed.execLeadRetry (C : Closed P) {a0 : QuireId} {s : State} (h : P s) : Res P (Sys2Proof.Machine.execLeadRetry a0 s) := by
  unfold Sys2Proof.Machine.execLeadRetry
  repeat' (first
    | with_reducible assumption
    | with_reducible apply C.ends
    | with_reducible apply C.retryStalled)

theorem Closed.execSpillRetry (C : Closed P) {a0 : QuireId} {s : State} (h : P s) : Res P (Sys2Proof.Machine.execSpillRetry a0 s) := by
  unfold Sys2Proof.Machine.execSpillRetry
  repeat' (first
    | with_reducible assumption
    | with_reducible apply C.ends
    | with_reducible apply C.retryStalled)

theorem Closed.startStep (C : Closed P) {s : State} {a1 : Nat} {a2 : Cmd} (h : P s) : P (State.startStep s a1 a2) := by
  unfold State.startStep
  repeat' (first
    | with_reducible assumption
    | with_reducible apply C.finishStep
    | with_reducible apply C.finishCmd
    | with_reducible apply C.fence
    | with_reducible apply C.setCmd
    | with_reducible apply C.setCtx
    | with_reducible apply C.writeHead
    | with_reducible apply C.settle
    | with_reducible apply C.failRest
    | with_reducible apply C.absorbLead
    | with_reducible apply P_ite
    | with_reducible refine P_foldl ?_ (fun _ _ _ => ?_))

theorem Closed.execCstepStart (C : Closed P) {a0 : CtxId} {s : State} (h : P s) : Res P (Sys2Proof.Machine.execCstepStart a0 s) := by
  unfold Sys2Proof.Machine.execCstepStart
  repeat' (first
    | with_reducible assumption
    | with_reducible apply C.ends
    | with_reducible apply C.startStep
    | with_reducible apply C.setCtx
    | with_reducible apply P_ite
    | (fail_if_no_progress with_reducible refine C.plain ?_ rfl rfl rfl rfl rfl)
    | split)

theorem Closed.breakStep (C : Closed P) {s : State} {a1 : Nat} {a2 : Nat} (h : P s) : P (State.breakStep s a1 a2) := by
  unfold State.breakStep
  repeat' (first
    | with_reducible assumption
    | with_reducible apply C.failRest
    | with_reducible apply P_ite)

theorem Closed.execStepDeadline (C : Closed P) {a0 : CtxId} {s : State} (h : P s) : Res P (Sys2Proof.Machine.execStepDeadline a0 s) := by
  unfold Sys2Proof.Machine.execStepDeadline
  repeat' (first
    | with_reducible assumption
    | with_reducible apply C.ends
    | with_reducible apply C.settle
    | with_reducible apply C.failRest
    | with_reducible apply C.nameFailed
    | with_reducible apply P_ite)

theorem Closed.sendDone (C : Closed P) {s : State} {a1 : Nat} {a2 : Nat} {a3 : Nat} {a4 : Nat} {a5 : Nat} (h : P s) : P (State.sendDone s a1 a2 a3 a4 a5) := by
  unfold State.sendDone
  repeat' (first
    | with_reducible assumption
    | with_reducible apply C.itemOk
    | with_reducible apply C.itemFailed
    | with_reducible apply C.setCmd
    | split)

theorem Closed.sendItem (C : Closed P) {s : State} {a1 : Cmd} {a2 : Nat} {a3 : Nat} {a4 : Bytes} {a5 : Bool} {a6 : Counts} (h : P s) : P (State.sendItem s a1 a2 a3 a4 a5 a6) := by
  unfold State.sendItem
  repeat' (first
    | with_reducible assumption
    | with_reducible apply C.itemOk
    | with_reducible apply C.itemFailed
    | with_reducible apply C.setCmd
    | with_reducible apply C.crosses
    | with_reducible apply C.sendFrame
    | split
    | dsimp only)

theorem Closed.begin (C : Closed P) {s : State} {a1 : Cmd} (h : P s) : P (State.begin s a1) := by
  unfold State.begin
  repeat' (first
    | with_reducible assumption
    | with_reducible apply C.count
    | with_reducible apply C.setCmd
    | (fail_if_no_progress with_reducible refine C.plain ?_ rfl rfl rfl rfl rfl)
    | split)

theorem Closed.startProduct (C : Closed P) {s : State} {a1 : Cmd} (h : P s) : P (State.startProduct s a1) := by
  unfold State.startProduct
  repeat' (first
    | with_reducible assumption
    | with_reducible apply C.count
    | with_reducible apply C.begin
    | with_reducible apply P_ite
    | (fail_if_no_progress with_reducible refine C.plain ?_ rfl rfl rfl rfl rfl))

theorem Closed.subItems (C : Closed P) {s : State} {a1 : Cmd} {a2 : Nat} (h : P s) : P (State.subItems s a1 a2).1 := by
  induction a2 generalizing s a1 with
  | zero => exact h
  | succ k ih =>
  unfold State.subItems
  repeat' (first
    | with_reducible assumption
    | with_reducible apply ih
    | with_reducible apply C.readMem
    | with_reducible apply C.itemFailed
    | with_reducible apply C.contributeAcross
    | with_reducible apply P_ite1
    | with_reducible refine P_foldl1 ?_ (fun _ _ _ => ?_)
    | with_reducible refine P_ofSome1 (by with_reducible assumption) ?_
    | split)

theorem Closed.runSub (C : Closed P) {s : State} {a1 : Cmd} (h : P s) : P (State.runSub s a1) := by
  unfold State.runSub
  repeat' (first
    | with_reducible assumption
    | with_reducible apply C.subItems
    | with_reducible apply C.settle
    | with_reducible apply C.setCmd)

theorem Closed.startCmd (C : Closed P) {s : State} {a1 : Cmd} (h : P s) : P (State.startCmd s a1) := by
  unfold State.startCmd
  repeat' (first
    | with_reducible assumption
    | with_reducible apply C.startProduct
    | with_reducible apply C.setCtx
    | with_reducible apply C.setCmd
    | with_reducible apply C.runSub
    | with_reducible apply C.begin
    | with_reducible apply C.readUnits
    | with_reducible apply C.sendItem
    | with_reducible apply C.recordStash
    | with_reducible refine P_foldl ?_ (fun _ _ _ => ?_)
    | (fail_if_no_progress with_reducible refine C.plain ?_ rfl rfl rfl rfl rfl)
    | split)

theorem Closed.execCommandStart (C : Closed P) {a0 : BitVec 8} {s : State} (h : P s) : Res P (Sys2Proof.Machine.execCommandStart a0 s) := by
  unfold Sys2Proof.Machine.execCommandStart
  repeat' (first
    | with_reducible assumption
    | with_reducible apply C.ends
    | with_reducible apply C.startCmd
    | split)

theorem Closed.execNoticeExpiry (C : Closed P) {s : State} (h : P s) : Res P (Sys2Proof.Machine.execNoticeExpiry s) := by
  unfold Sys2Proof.Machine.execNoticeExpiry
  repeat' (first
    | with_reducible assumption
    | with_reducible apply C.ends
    | with_reducible apply C.startProduct
    | with_reducible refine P_foldl ?_ (fun _ _ _ => ?_)
    | split)

theorem Closed.execPassSwap (C : Closed P) {a0 : BitVec 8} {s : State} (h : P s) : Res P (Sys2Proof.Machine.execPassSwap a0 s) := by
  unfold Sys2Proof.Machine.execPassSwap
  repeat' (first
    | with_reducible assumption
    | with_reducible apply C.ends
    | with_reducible apply C.runPass
    | with_reducible apply C.setCmd
    | split)

theorem Closed.writeOut (C : Closed P) {s : State} {a1 : Cmd} (h : P s) : P (State.writeOut s a1) := by
  unfold State.writeOut
  repeat' (first
    | with_reducible assumption
    | with_reducible apply C.convertItem
    | with_reducible apply C.setCmd
    | with_reducible apply C.storeItem
    | with_reducible apply C.itemFailed
    | with_reducible apply C.itemOk
    | with_reducible apply C.stashItem
    | with_reducible apply C.contributeAcross
    | with_reducible apply C.settle
    | with_reducible apply C.sendItem
    | with_reducible refine P_ofSome1 (by with_reducible assumption) ?_
    | split
    | dsimp only)

theorem Closed.execWoutItem (C : Closed P) {a0 : BitVec 8} {s : State} (h : P s) : Res P (Sys2Proof.Machine.execWoutItem a0 s) := by
  unfold Sys2Proof.Machine.execWoutItem
  repeat' (first
    | with_reducible assumption
    | with_reducible apply C.ends
    | with_reducible apply C.writeOut
    | split)

theorem Closed.noteStore (C : Closed P) {s : State} {a1 : Cmd} {a2 : Bool} (h : P s) : P (State.noteStore s a1 a2) := by
  unfold State.noteStore
  repeat' (first
    | with_reducible assumption
    | with_reducible apply C.setWset
    | with_reducible apply P_ite)

theorem Closed.finishVector (C : Closed P) {a0 : Cmd} {a1 : State × VecRun} (h : P a1.1) : P (State.finishVector a0 a1) := by
  unfold State.finishVector
  repeat' (first
    | with_reducible assumption
    | with_reducible apply C.digest
    | with_reducible apply C.noteStore
    | with_reducible apply C.finishCmd)

theorem Closed.completeCmd (C : Closed P) {s : State} {a1 : Cmd} (h : P s) : P (State.completeCmd s a1) := by
  unfold State.completeCmd
  repeat' (first
    | with_reducible assumption
    | with_reducible apply C.finishCmd
    | with_reducible apply C.finishVector
    | with_reducible apply C.runVop
    | with_reducible apply C.runVred
    | with_reducible apply C.runCopy
    | with_reducible apply C.runSub
    | split
    | dsimp only)

theorem Closed.execCommandComplete (C : Closed P) {a0 : CoreId} {a1 : BitVec 32} {s : State} (h : P s) : Res P (Sys2Proof.Machine.execCommandComplete a0 a1 s) := by
  unfold Sys2Proof.Machine.execCommandComplete
  repeat' (first
    | with_reducible assumption
    | with_reducible apply C.ends
    | with_reducible apply C.completeCmd
    | split)

theorem Closed.execCompletionRecordWrite (C : Closed P) {a0 : CoreId} {s : State} (h : P s) : Res P (Sys2Proof.Machine.execCompletionRecordWrite a0 s) := by
  unfold Sys2Proof.Machine.execCompletionRecordWrite
  repeat' (first
    | with_reducible assumption
    | with_reducible apply C.ends
    | with_reducible apply C.writeRecords)

theorem Closed.execClaimGrant (C : Closed P) {a0 : BitVec 32} {s : State} (h : P s) : Res P (Sys2Proof.Machine.execClaimGrant a0 s) := by
  unfold Sys2Proof.Machine.execClaimGrant
  repeat' (first
    | with_reducible assumption
    | with_reducible apply C.ends
    | with_reducible apply C.setWset
    | with_reducible apply C.setSlot
    | with_reducible refine P_foldl ?_ (fun _ _ _ => ?_)
    | split)

theorem Closed.execReleaseEffect (C : Closed P) {a0 : BitVec 32} {s : State} (h : P s) : Res P (Sys2Proof.Machine.execReleaseEffect a0 s) := by
  unfold Sys2Proof.Machine.execReleaseEffect
  repeat' (first
    | with_reducible assumption
    | with_reducible apply C.ends
    | with_reducible apply C.setWset
    | with_reducible apply C.setSlot
    | with_reducible apply P_ite
    | with_reducible refine P_foldl ?_ (fun _ _ _ => ?_))

theorem Closed.execOpenGrant (C : Closed P) {a0 : BitVec 8} {s : State} (h : P s) : Res P (Sys2Proof.Machine.execOpenGrant a0 s) := by
  unfold Sys2Proof.Machine.execOpenGrant
  repeat' (first
    | with_reducible assumption
    | with_reducible apply C.ends
    | with_reducible apply C.setWset
    | with_reducible apply P_ite)

theorem Closed.execPublishEffect (C : Closed P) {a0 : BitVec 8} {s : State} (h : P s) : Res P (Sys2Proof.Machine.execPublishEffect a0 s) := by
  unfold Sys2Proof.Machine.execPublishEffect
  repeat' (first
    | with_reducible assumption
    | with_reducible apply C.ends
    | with_reducible apply C.setWset
    | with_reducible apply C.colophonAdd
    | with_reducible apply C.colophonFlag
    | split)

theorem Closed.breakAll (C : Closed P) {s : State} {a1 : Nat} (h : P s) : P (State.breakAll s a1) := by
  unfold State.breakAll
  repeat' (first
    | with_reducible assumption
    | with_reducible apply C.settle
    | with_reducible apply C.breakStep
    | with_reducible refine P_foldl ?_ (fun _ _ _ => ?_))

theorem Closed.resetCtx (C : Closed P) {s : State} {a1 : Nat} (h : P s) : P (State.resetCtx s a1) := by
  unfold State.resetCtx
  repeat' (first
    | with_reducible assumption
    | with_reducible apply C.setCtx
    | with_reducible apply C.settle
    | with_reducible apply C.breakStep
    | with_reducible apply P_ite)

theorem Closed.restartCtx (C : Closed P) {s : State} {a1 : Nat} {a2 : Nat} (h : P s) : P (State.restartCtx s a1 a2) := by
  unfold State.restartCtx
  repeat' (first
    | with_reducible assumption
    | with_reducible apply C.dropLead
    | with_reducible apply C.setCtx)

theorem Closed.failRun (C : Closed P) {s : State} {a1 : Nat} {a2 : Nat} (h : P s) : P (State.failRun s a1 a2) := by
  unfold State.failRun
  repeat' (first
    | with_reducible assumption
    | with_reducible apply C.idxSet
    | with_reducible apply C.breakAll
    | with_reducible apply C.stopCores
    | with_reducible apply P_ite
    | (fail_if_no_progress with_reducible refine C.plain ?_ rfl rfl rfl rfl rfl))

theorem Closed.broadcastRunFail (C : Closed P) {s : State} {a1 : List Nat} (h : P s) : P (State.broadcastRunFail s a1) := by
  unfold State.broadcastRunFail
  repeat' (first
    | with_reducible assumption
    | with_reducible apply C.indexRequest
    | with_reducible apply C.enqueue
    | with_reducible refine P_foldl ?_ (fun _ _ _ => ?_))

theorem Closed.failOwnRun (C : Closed P) {s : State} {a1 : Nat} {a2 : Nat} {a3 : List Nat} (h : P s) : P (State.failOwnRun s a1 a2 a3) := by
  unfold State.failOwnRun
  repeat' (first
    | with_reducible assumption
    | with_reducible apply C.broadcastRunFail
    | with_reducible apply C.failRun
    | with_reducible apply P_ite)

end Sys2Proof.Machine
end

