-- ==== Sys2Proof/Laws/ClosedProof.lean ====
section
/-!
SUPPORT. Sys2Proof/Laws/ClosedProof.lean: the same of proofing, the Binder and the boot checks.
-/
namespace Sys2Proof.Machine

set_option maxRecDepth 8000

variable {P : State → Prop}

theorem Closed.startCores (C : Closed P) {s : State} (h : P s) : P (State.startCores s) := by
  unfold State.startCores
  repeat' (first
    | with_reducible assumption
    | with_reducible apply C.setCore
    | with_reducible refine P_foldl ?_ (fun _ _ _ => ?_)
    | (fail_if_no_progress with_reducible refine C.plain ?_ rfl rfl rfl rfl rfl))

theorem Closed.sendProof (C : Closed P) {s : State} {a1 : FolioHeader} {a2 : Bytes} (h : P s) : P (State.sendProof s a1 a2) := by
  unfold State.sendProof
  repeat' (first
    | with_reducible assumption
    | with_reducible apply C.enqueue)

theorem Closed.sendDigests (C : Closed P) {s : State} (h : P s) : P (State.sendDigests s) := by
  unfold State.sendDigests
  repeat' (first
    | with_reducible assumption
    | with_reducible apply C.sendProof
    | with_reducible apply P_ite
    | with_reducible refine P_foldl ?_ (fun _ _ _ => ?_)
    | (fail_if_no_progress with_reducible refine C.plain ?_ rfl rfl rfl rfl rfl))

theorem Closed.execDigestSend (C : Closed P) {s : State} (h : P s) : Res P (Sys2Proof.Machine.execDigestSend s) := by
  unfold Sys2Proof.Machine.execDigestSend
  repeat' (first
    | with_reducible assumption
    | with_reducible apply C.ends
    | with_reducible apply C.sendDigests
    | with_reducible apply P_ite)

theorem Closed.readProofFrame (C : Closed P) {s : State} {a1 : Frame} (h : P s) : P (State.readProofFrame s a1).1 := by
  unfold State.readProofFrame
  repeat' (first
    | with_reducible assumption
    | with_reducible apply C.readFrame)

theorem Closed.takeDigests (C : Closed P) {s : State} {a1 : Bytes} (h : P s) : P (State.takeDigests s a1) := by
  unfold State.takeDigests
  repeat' (first
    | with_reducible assumption
    | with_reducible apply C.diverge
    | with_reducible apply C.takeDigest
    | with_reducible apply P_ite
    | with_reducible refine P_foldl ?_ (fun _ _ _ => ?_)
    | (fail_if_no_progress with_reducible refine C.plain ?_ rfl rfl rfl rfl rfl))

theorem Closed.execDigestReceive (C : Closed P) {s : State} (h : P s) : Res P (Sys2Proof.Machine.execDigestReceive s) := by
  unfold Sys2Proof.Machine.execDigestReceive
  repeat' (first
    | with_reducible assumption
    | with_reducible apply C.ends
    | with_reducible apply C.readProofFrame
    | with_reducible apply C.freeFrame
    | with_reducible apply C.idxBump
    | with_reducible apply C.takeDigests
    | with_reducible apply P_ite
    | (fail_if_no_progress with_reducible refine C.plain ?_ rfl rfl rfl rfl rfl)
    | split)

theorem Closed.execStreamLost (C : Closed P) {s : State} (h : P s) : Res P (Sys2Proof.Machine.execStreamLost s) := by
  unfold Sys2Proof.Machine.execStreamLost
  repeat' (first
    | with_reducible assumption
    | with_reducible apply C.ends
    | with_reducible apply C.diverge
    | with_reducible apply P_ite
    | (fail_if_no_progress with_reducible refine C.plain ?_ rfl rfl rfl rfl rfl))

theorem Closed.sendCopy (C : Closed P) {s : State} {a1 : Nat} {a2 : Nat} {a3 : Bytes} (h : P s) : P (State.sendCopy s a1 a2 a3) := by
  unfold State.sendCopy
  repeat' (first
    | with_reducible assumption
    | with_reducible apply C.sendProof
    | (fail_if_no_progress with_reducible refine C.plain ?_ rfl rfl rfl rfl rfl))

theorem Closed.flushMirror (C : Closed P) {s : State} (h : P s) : P (State.flushMirror s) := by
  unfold State.flushMirror
  repeat' (first
    | with_reducible assumption
    | with_reducible apply C.sendCopy
    | with_reducible refine P_foldl ?_ (fun _ _ _ => ?_)
    | (fail_if_no_progress with_reducible refine C.plain ?_ rfl rfl rfl rfl rfl))

theorem Closed.startCopy (C : Closed P) {s : State} (h : P s) : P (State.startCopy s) := by
  unfold State.startCopy
  repeat' (first
    | with_reducible assumption
    | (fail_if_no_progress with_reducible refine C.plain ?_ rfl rfl rfl rfl rfl))

theorem Closed.readBlock (C : Closed P) {s : State} {a1 : Nat} {a2 : Nat} (h : P s) : P (State.readBlock s a1 a2).1 := by
  induction a2 generalizing s a1 with
  | zero => exact h
  | succ k ih =>
    unfold State.readBlock
    dsimp only
    split
    · exact ih (C.draw (C.readWord h))
    · exact ih (C.readWord h)

theorem Closed.execCopyBlockSend (C : Closed P) {s : State} (h : P s) : Res P (Sys2Proof.Machine.execCopyBlockSend s) := by
  unfold Sys2Proof.Machine.execCopyBlockSend
  repeat' (first
    | with_reducible assumption
    | with_reducible apply C.ends
    | with_reducible apply C.flushMirror
    | with_reducible apply C.readBlock
    | with_reducible apply C.sendCopy
    | (fail_if_no_progress with_reducible refine C.plain ?_ rfl rfl rfl rfl rfl)
    | split
    | dsimp only)

theorem Closed.takeCopy (C : Closed P) {s : State} (h : P s) : Opt1 P (State.takeCopy s) := by
  unfold State.takeCopy
  repeat' (first
    | with_reducible assumption
    | with_reducible apply C.readProofFrame
    | with_reducible apply C.freeFrame
    | (fail_if_no_progress with_reducible refine C.plain ?_ rfl rfl rfl rfl rfl)
    | with_reducible exact P_none1
    | with_reducible refine P_some1 ?_
    | split)

theorem Closed.admitCopy (C : Closed P) {s : State} {a1 : CopyRecord} (h : P s) : P (State.admitCopy s a1).1 := by
  unfold State.admitCopy
  repeat' (first
    | with_reducible assumption
    | with_reducible apply P_ite
    | with_reducible apply P_ite1
    | (fail_if_no_progress with_reducible refine C.plain ?_ rfl rfl rfl rfl rfl))

theorem Closed.execCopyRecordApply (C : Closed P) {s : State} (h : P s) : Res P (Sys2Proof.Machine.execCopyRecordApply s) := by
  unfold Sys2Proof.Machine.execCopyRecordApply
  repeat' (first
    | with_reducible assumption
    | with_reducible apply C.ends
    | with_reducible apply C.takeCopy
    | with_reducible apply C.admitCopy
    | with_reducible apply C.writeMem
    | with_reducible apply P_ite
    | (fail_if_no_progress with_reducible refine C.plain ?_ rfl rfl rfl rfl rfl)
    | with_reducible refine P_ofSome1 (by with_reducible assumption) ?_
    | split)

theorem Closed.setSync (C : Closed P) {s : State} {a1 : Nat} {a2 : Nat} (h : P s) : P (State.setSync s a1 a2) := by
  unfold State.setSync
  repeat' (first
    | with_reducible assumption
    | (fail_if_no_progress with_reducible refine C.plain ?_ rfl rfl rfl rfl rfl))

theorem Closed.clearBases (C : Closed P) {s : State} (h : P s) : P (State.clearBases s) := by
  unfold State.clearBases
  repeat' (first
    | with_reducible assumption
    | with_reducible apply C.setCore
    | with_reducible refine P_foldl ?_ (fun _ _ _ => ?_))

theorem Closed.trySwitch (C : Closed P) {s : State} (h : P s) : P (State.trySwitch s) := by
  unfold State.trySwitch
  repeat' (first
    | with_reducible assumption
    | with_reducible apply C.flushMirror
    | with_reducible apply C.sendCopy
    | with_reducible apply C.clearBases
    | with_reducible apply P_ite
    | with_reducible refine P_foldl ?_ (fun _ _ _ => ?_)
    | (fail_if_no_progress with_reducible refine C.plain ?_ rfl rfl rfl rfl rfl))

theorem Closed.loadTable (C : Closed P) {s : State} (h : P s) : P (State.loadTable s) := by
  unfold State.loadTable
  repeat' (first
    | with_reducible assumption
    | with_reducible apply C.setSync
    | with_reducible apply C.setCtx
    | with_reducible apply P_ite
    | with_reducible refine P_foldl ?_ (fun _ _ _ => ?_)
    | (fail_if_no_progress with_reducible refine C.plain ?_ rfl rfl rfl rfl rfl))

theorem Closed.promote (C : Closed P) {s : State} (h : P s) : P (State.promote s) := by
  unfold State.promote
  repeat' (first
    | with_reducible assumption
    | with_reducible apply C.stopCores
    | with_reducible apply C.sendCopy
    | with_reducible apply P_ite
    | (fail_if_no_progress with_reducible refine C.plain ?_ rfl rfl rfl rfl rfl))

theorem Closed.counting (C : Closed P) {s : State} (h : P s) : P (State.counting s) := by
  unfold State.counting
  repeat' (first
    | with_reducible assumption
    | (fail_if_no_progress with_reducible refine C.plain ?_ rfl rfl rfl rfl rfl))

theorem Closed.execSwitchRecordApply (C : Closed P) {s : State} (h : P s) : Res P (Sys2Proof.Machine.execSwitchRecordApply s) := by
  unfold Sys2Proof.Machine.execSwitchRecordApply
  repeat' (first
    | with_reducible assumption
    | with_reducible apply C.ends
    | with_reducible apply C.takeCopy
    | with_reducible apply C.admitCopy
    | with_reducible apply C.counting
    | with_reducible apply C.clearBases
    | with_reducible apply C.loadTable
    | with_reducible apply C.promote
    | with_reducible apply P_ite
    | with_reducible refine P_ofSome1 (by with_reducible assumption) ?_
    | split)

theorem Closed.execShadowCoresStart (C : Closed P) {s : State} (h : P s) : Res P (Sys2Proof.Machine.execShadowCoresStart s) := by
  unfold Sys2Proof.Machine.execShadowCoresStart
  repeat' (first
    | with_reducible assumption
    | with_reducible apply C.ends
    | with_reducible apply C.startCores
    | (fail_if_no_progress with_reducible refine C.plain ?_ rfl rfl rfl rfl rfl)
    | split)

theorem Closed.handOver (C : Closed P) {s : State} (h : P s) : P (State.handOver s) := by
  unfold State.handOver
  repeat' (first
    | with_reducible assumption
    | with_reducible apply C.idxSet
    | with_reducible apply C.setCore
    | with_reducible refine P_foldl ?_ (fun _ _ _ => ?_)
    | (fail_if_no_progress with_reducible refine C.plain ?_ rfl rfl rfl rfl rfl))

theorem Closed.proofStep (C : Closed P) {s : State} (h : P s) : P (State.proofStep s) := by
  unfold State.proofStep
  repeat' (first
    | with_reducible assumption
    | with_reducible apply C.trySwitch
    | with_reducible apply C.handOver
    | (fail_if_no_progress with_reducible refine C.plain ?_ rfl rfl rfl rfl rfl)
    | split
    | dsimp only)

theorem Closed.applySig (C : Closed P) {s : State} {a1 : Nat} (h : P s) : P (State.applySig s a1) := by
  unfold State.applySig
  repeat' (first
    | with_reducible assumption
    | with_reducible apply C.setSync
    | with_reducible apply C.proofStep
    | with_reducible apply P_ite)

theorem Closed.execSigApply (C : Closed P) {a0 : CoreId} {s : State} (h : P s) : Res P (Sys2Proof.Machine.execSigApply a0 s) := by
  unfold Sys2Proof.Machine.execSigApply
  repeat' (first
    | with_reducible assumption
    | with_reducible apply C.ends
    | with_reducible apply C.applySig
    | with_reducible apply C.setCore
    | split)

theorem Closed.execStepJudgement (C : Closed P) {s : State} (h : P s) : Res P (Sys2Proof.Machine.execStepJudgement s) := by
  unfold Sys2Proof.Machine.execStepJudgement
  repeat' (first
    | with_reducible assumption
    | with_reducible apply C.ends
    | with_reducible apply C.promote
    | with_reducible apply P_ite
    | (fail_if_no_progress with_reducible refine C.plain ?_ rfl rfl rfl rfl rfl)
    | split)

theorem Closed.execPromotionNotice (C : Closed P) {s : State} (h : P s) : Res P (Sys2Proof.Machine.execPromotionNotice s) := by
  unfold Sys2Proof.Machine.execPromotionNotice
  repeat' (first
    | with_reducible assumption
    | with_reducible apply C.ends
    | with_reducible apply C.takeCopy
    | with_reducible apply C.sendCopy
    | (fail_if_no_progress with_reducible refine C.plain ?_ rfl rfl rfl rfl rfl)
    | with_reducible refine P_ofSome1 (by with_reducible assumption) ?_
    | split)

theorem Closed.execHandoverConfirmation (C : Closed P) {s : State} (h : P s) : Res P (Sys2Proof.Machine.execHandoverConfirmation s) := by
  unfold Sys2Proof.Machine.execHandoverConfirmation
  repeat' (first
    | with_reducible assumption
    | with_reducible apply C.ends
    | with_reducible apply C.takeCopy
    | with_reducible apply C.sendCopy
    | with_reducible apply P_ite
    | (fail_if_no_progress with_reducible refine C.plain ?_ rfl rfl rfl rfl rfl)
    | with_reducible refine P_ofSome1 (by with_reducible assumption) ?_
    | split)

theorem Closed.stage (C : Closed P) {s : State} {a1 : Bytes} (h : P s) : P (State.stage s a1) := by
  unfold State.stage
  repeat' (first
    | with_reducible assumption
    | with_reducible apply C.idxSet
    | with_reducible apply C.writeMem
    | with_reducible apply P_ite)

theorem Closed.stagedWord (C : Closed P) {s : State} {a1 : Nat} (h : P s) : P (State.stagedWord s a1).1 := by
  unfold State.stagedWord
  repeat' (first
    | with_reducible assumption
    | with_reducible apply C.readWord
    | with_reducible apply C.draw
    | with_reducible apply P_ite1)

theorem Closed.stagedImage (C : Closed P) {s : State} (h : P s) : P (State.stagedImage s).1 := by
  unfold State.stagedImage
  repeat' (first
    | with_reducible assumption
    | with_reducible apply C.stagedWord
    | with_reducible refine P_foldl1 ?_ (fun _ _ _ => ?_))

theorem Closed.putBytes (C : Closed P) {s : State} {a1 : Nat} {a2 : Bytes} (h : P s) : P (State.putBytes s a1 a2).1 := by
  unfold State.putBytes
  repeat' (first
    | with_reducible assumption
    | with_reducible apply C.readWord
    | with_reducible apply C.writeMem
    | with_reducible apply P_ite1)

theorem Closed.zeroSpan (C : Closed P) {s : State} {a1 : Nat} {a2 : Nat} (h : P s) : P (State.zeroSpan s a1 a2).1 := by
  unfold State.zeroSpan
  repeat' (first
    | with_reducible assumption
    | with_reducible apply C.putBytes
    | with_reducible apply C.clearMem)

theorem Closed.onward (C : Closed P) {a0 : State × Option Nat} {a1 : State → State × Option Nat} (h : P a0.1) (h2 : ∀ x0, P x0 → P (a1 x0).1) : P (Sys2Proof.Machine.onward a0 a1).1 := by
  unfold Sys2Proof.Machine.onward
  repeat' (first
    | with_reducible assumption
    | with_reducible apply h2
    | split)

theorem Closed.putSection (C : Closed P) {s : State} {a1 : Image} {a2 : Nat} {a3 : Nat} (h : P s) : P (State.putSection s a1 a2 a3).1 := by
  unfold State.putSection
  repeat' (first
    | with_reducible assumption
    | with_reducible apply C.readMem
    | with_reducible apply C.putBytes
    | split
    | dsimp only)

theorem Closed.fillRegion (C : Closed P) {s : State} {a1 : Image} {a2 : ImageRecord} (h : P s) : P (State.fillRegion s a1 a2).1 := by
  unfold State.fillRegion
  repeat' (first
    | with_reducible assumption
    | with_reducible apply C.onward
    | with_reducible apply C.zeroSpan
    | with_reducible apply C.putSection
    | with_reducible apply P_ite1
    | intro _)

theorem Closed.fillSet (C : Closed P) {s : State} {a1 : Image} {a2 : ImageRecord} (h : P s) : P (State.fillSet s a1 a2).1 := by
  unfold State.fillSet
  repeat' (first
    | with_reducible assumption
    | with_reducible apply C.putSection
    | with_reducible apply P_ite1)

theorem Closed.fillCode (C : Closed P) {s : State} {a1 : Image} {a2 : ImageRecord} (h : P s) : P (State.fillCode s a1 a2).1 := by
  unfold State.fillCode
  repeat' (first
    | with_reducible assumption
    | with_reducible apply C.putSection
    | with_reducible apply P_ite1)

theorem Closed.readProgram (C : Closed P) {s : State} {a1 : Image} {a2 : ImageRecord} (h : P s) : P (State.readProgram s a1 a2).1 := by
  unfold State.readProgram
  repeat' (first
    | with_reducible assumption
    | with_reducible apply C.readMem)

theorem Closed.fillKind (C : Closed P) {a0 : Image} {a1 : Nat} {a2 : State → Image → ImageRecord → State × Option Nat} {a3 : State × Option Nat} (h : P a3.1) (h3 : ∀ x0 x1 x2, P x0 → P (a2 x0 x1 x2).1) : P (State.fillKind a0 a1 a2 a3).1 := by
  unfold State.fillKind
  repeat' (first
    | with_reducible assumption
    | with_reducible apply C.onward
    | with_reducible apply h3
    | with_reducible refine P_foldl1 ?_ (fun _ _ _ => ?_)
    | intro _)

theorem Closed.stashHeaders (C : Closed P) {s : State} {a1 : Stash} (h : P s) : P (State.stashHeaders s a1) := by
  unfold State.stashHeaders
  repeat' (first
    | with_reducible assumption
    | with_reducible apply C.writeMem
    | with_reducible refine P_foldl ?_ (fun _ _ _ => ?_))

theorem Closed.fillAll (C : Closed P) {s : State} {a1 : Image} {a2 : Stash} (h : P s) : P (State.fillAll s a1 a2).1 := by
  unfold State.fillAll
  repeat' (first
    | with_reducible assumption
    | with_reducible apply C.fillKind
    | with_reducible apply C.fillRegion
    | with_reducible apply C.fillSet
    | with_reducible apply C.onward
    | with_reducible apply C.stashHeaders
    | with_reducible apply C.readProgram
    | with_reducible apply C.fillCode
    | intro _)

theorem Closed.takeLeaves (C : Closed P) {a0 : Nat} {s : State} {a2 : List Nat} (h : P s) : P (State.takeLeaves a0 s a2).1 := by
  induction a0 generalizing s a2 with
  | zero => exact h
  | succ k ih =>
    unfold State.takeLeaves
    split
    · exact ih (P_of_eq (by assumption) (C.alloc h))
    · exact P_of_eq (by assumption) (C.alloc h)

theorem Closed.bindContexts (C : Closed P) {s : State} {a1 : Image} (h : P s) : P (State.bindContexts s a1) := by
  unfold State.bindContexts
  refine P_foldl (C.noCtxs h) (fun s e hs => ?_)
  dsimp only
  exact C.setCtx (C.takeLeaves hs)

theorem Closed.clearBinding (C : Closed P) {s : State} (h : P s) : P (State.clearBinding s) := by
  unfold State.clearBinding
  dsimp only
  exact C.plain (C.noCtxs (C.noAcc (C.request (n := 0) (C.idxClear h) (by decide)))) rfl rfl rfl rfl rfl

theorem Closed.refuseImage (C : Closed P) {s : State} {a1 : Nat} {a2 : Nat} (h : P s) : P (State.refuseImage s a1 a2) := by
  unfold State.refuseImage
  repeat' (first
    | with_reducible assumption
    | with_reducible apply C.idxSet
    | (fail_if_no_progress with_reducible refine C.plain ?_ rfl rfl rfl rfl rfl))

theorem Closed.clearRings (C : Closed P) {s : State} {a1 : Image} (h : P s) : P (State.clearRings s a1) := by
  unfold State.clearRings
  repeat' (first
    | with_reducible assumption
    | with_reducible apply C.writeMem
    | with_reducible apply P_ite
    | with_reducible refine P_foldl ?_ (fun _ _ _ => ?_))

theorem Closed.install (C : Closed P) {s : State} {a1 : Image} (h : P s) : P (State.install s a1) := by
  unfold State.install
  repeat' (first
    | with_reducible assumption
    | with_reducible apply C.clearBinding
    | with_reducible apply C.fillAll
    | with_reducible apply C.refuseImage
    | with_reducible apply C.clearRings
    | with_reducible apply C.bindContexts
    | with_reducible apply C.domainSet
    | with_reducible apply C.idxSet
    | (fail_if_no_progress with_reducible refine C.plain ?_ rfl rfl rfl rfl rfl)
    | split
    | dsimp only)

theorem Closed.load (C : Closed P) {s : State} (h : P s) : P (State.load s) := by
  unfold State.load
  repeat' (first
    | with_reducible assumption
    | with_reducible apply C.stagedImage
    | with_reducible apply C.refuseImage
    | with_reducible apply C.install
    | split
    | dsimp only)

theorem Closed.execCoresStart (C : Closed P) {s : State} (h : P s) : Res P (Sys2Proof.Machine.execCoresStart s) := by
  unfold Sys2Proof.Machine.execCoresStart
  repeat' (first
    | with_reducible assumption
    | with_reducible apply C.ends
    | with_reducible apply C.colophonFlag
    | with_reducible apply C.startCores
    | with_reducible apply P_ite)

theorem Closed.release (C : Closed P) {s : State} (h : P s) : P (State.release s) := by
  unfold State.release
  have h0 := C.request (n := 0) h (by decide)
  repeat' (first
    | with_reducible assumption
    | with_reducible exact C.plain h0 rfl rfl rfl rfl rfl
    | with_reducible apply C.stopCores
    | with_reducible apply C.squash
    | with_reducible apply C.breakAll
    | with_reducible apply P_ite
    | with_reducible refine P_foldl ?_ (fun _ _ _ => ?_))

theorem Closed.unbind (C : Closed P) {s : State} {a1 : Nat} (h : P s) : P (State.unbind s a1) := by
  unfold State.unbind
  repeat' (first
    | with_reducible assumption
    | with_reducible apply C.dropLead
    | with_reducible apply C.setCtx
    | with_reducible apply C.freeLeaves)

theorem Closed.execReleaseComplete (C : Closed P) {s : State} (h : P s) : Res P (Sys2Proof.Machine.execReleaseComplete s) := by
  unfold Sys2Proof.Machine.execReleaseComplete
  repeat' (first
    | with_reducible assumption
    | with_reducible apply C.ends
    | with_reducible apply C.squashAll
    | with_reducible apply C.unbind
    | with_reducible apply C.writeMem
    | with_reducible apply P_ite
    | with_reducible refine P_foldl ?_ (fun _ _ _ => ?_)
    | (fail_if_no_progress with_reducible refine C.plain ?_ rfl rfl rfl rfl rfl))

theorem Closed.startRegionLoad (C : Closed P) {s : State} {a1 : Nat} {a2 : Nat} (h : P s) : P (State.startRegionLoad s a1 a2) := by
  unfold State.startRegionLoad
  repeat' (first
    | with_reducible assumption
    | (fail_if_no_progress with_reducible refine C.plain ?_ rfl rfl rfl rfl rfl))

theorem Closed.moveWord (C : Closed P) {s : State} {a1 : Nat} {a2 : Nat} {a3 : Nat} (h : P s) : P (State.moveWord s a1 a2 a3) := by
  unfold State.moveWord
  repeat' (first
    | with_reducible assumption
    | with_reducible apply C.readMem
    | with_reducible apply C.writeMem
    | with_reducible apply P_ite
    | with_reducible refine C.memPattern ?_)

theorem Closed.execOverlayLoadDone (C : Closed P) {a0 : Fin 256} {s : State} (h : P s) : Res P (Sys2Proof.Machine.execOverlayLoadDone a0 s) := by
  unfold Sys2Proof.Machine.execOverlayLoadDone
  repeat' (first
    | with_reducible assumption
    | with_reducible apply C.ends
    | with_reducible apply C.moveWord
    | with_reducible refine P_foldl ?_ (fun _ _ _ => ?_)
    | (fail_if_no_progress with_reducible refine C.plain ?_ rfl rfl rfl rfl rfl)
    | split)

theorem Closed.setHalf (C : Closed P) {s : State} {a1 : Nat} {a2 : Bytes} (h : P s) : P (State.setHalf s a1 a2) := by
  unfold State.setHalf
  repeat' (first
    | with_reducible assumption
    | (fail_if_no_progress with_reducible refine C.memPlain ?_ rfl rfl rfl rfl rfl))

theorem Closed.clearHalf (C : Closed P) {s : State} {a1 : Nat} (h : P s) : P (State.clearHalf s a1) := by
  unfold State.clearHalf
  repeat' (first
    | with_reducible assumption
    | with_reducible apply C.setHalf
    | (fail_if_no_progress with_reducible refine C.memPlain ?_ rfl rfl rfl rfl rfl))

theorem Closed.firmwareSegment (C : Closed P) {s : State} {a1 : Bytes} (h : P s) : P (State.firmwareSegment s a1) := by
  unfold State.firmwareSegment
  repeat' (first
    | with_reducible assumption
    | with_reducible apply C.setHalf
    | with_reducible apply P_ite
    | (fail_if_no_progress with_reducible refine C.memPlain ?_ rfl rfl rfl rfl rfl))

theorem BootFree.beginReport (B : BootFree P) {s : State} {a1 : Nat} (h : P s) : P (State.beginReport s a1) := by
  have C := B.toClosed
  unfold State.beginReport
  repeat' (first
    | with_reducible assumption
    | with_reducible apply P_ite
    | (fail_if_no_progress with_reducible refine B.boot ?_ rfl rfl rfl rfl rfl))

theorem BootFree.bootFails (B : BootFree P) {s : State} {a1 : Nat} {a2 : Nat} {a3 : Nat} (h : P s) : P (State.bootFails s a1 a2 a3) := by
  have C := B.toClosed
  unfold State.bootFails
  repeat' (first
    | with_reducible assumption
    | with_reducible apply C.idxSet
    | with_reducible apply B.beginReport
    | with_reducible apply P_ite
    | (fail_if_no_progress with_reducible refine B.boot ?_ rfl rfl rfl rfl rfl))

theorem BootFree.bootCommand (B : BootFree P) {s : State} (h : P s) : P (State.bootCommand s) := by
  have C := B.toClosed
  unfold State.bootCommand
  repeat' (first
    | with_reducible assumption
    | with_reducible apply C.idxSet
    | (fail_if_no_progress with_reducible refine B.boot ?_ rfl rfl rfl rfl rfl))

theorem BootFree.execBootChecksDecided (B : BootFree P) {s : State} (h : P s) : Res P (Sys2Proof.Machine.execBootChecksDecided s) := by
  have C := B.toClosed
  unfold Sys2Proof.Machine.execBootChecksDecided
  repeat' (first
    | with_reducible assumption
    | with_reducible apply C.ends
    | with_reducible apply B.bootFails
    | with_reducible apply P_ite
    | (fail_if_no_progress with_reducible refine B.boot ?_ rfl rfl rfl rfl rfl)
    | split)

theorem BootFree.execFirmwareDigestDone (B : BootFree P) {s : State} (h : P s) : Res P (Sys2Proof.Machine.execFirmwareDigestDone s) := by
  have C := B.toClosed
  unfold Sys2Proof.Machine.execFirmwareDigestDone
  repeat' (first
    | with_reducible assumption
    | with_reducible apply C.ends
    | with_reducible apply B.bootFails
    | (fail_if_no_progress with_reducible refine B.boot ?_ rfl rfl rfl rfl rfl)
    | split)

theorem BootFree.execSignatureCheckDone (B : BootFree P) {s : State} (h : P s) : Res P (Sys2Proof.Machine.execSignatureCheckDone s) := by
  have C := B.toClosed
  unfold Sys2Proof.Machine.execSignatureCheckDone
  repeat' (first
    | with_reducible assumption
    | with_reducible apply C.ends
    | with_reducible apply B.bootFails
    | with_reducible apply B.beginReport
    | (fail_if_no_progress with_reducible refine B.boot ?_ rfl rfl rfl rfl rfl)
    | split)

theorem BootFree.execFirmwareStart (B : BootFree P) {s : State} (h : P s) : Res P (Sys2Proof.Machine.execFirmwareStart s) := by
  have C := B.toClosed
  unfold Sys2Proof.Machine.execFirmwareStart
  repeat' (first
    | with_reducible assumption
    | with_reducible apply C.ends
    | with_reducible apply C.clearHalf
    | with_reducible apply C.domainSet
    | with_reducible apply P_ite
    | (fail_if_no_progress with_reducible refine B.boot ?_ rfl rfl rfl rfl rfl))

theorem BootFree.execFirmwareHalt (B : BootFree P) {a0 : BitVec 8} {s : State} (h : P s) : Res P (Sys2Proof.Machine.execFirmwareHalt a0 s) := by
  have C := B.toClosed
  unfold Sys2Proof.Machine.execFirmwareHalt
  repeat' (first
    | with_reducible assumption
    | with_reducible apply C.ends
    | with_reducible apply P_ite
    | (fail_if_no_progress with_reducible refine B.boot ?_ rfl rfl rfl rfl rfl))

theorem BootFree.takeNonce (B : BootFree P) {s : State} {a1 : Bytes} (h : P s) : P (State.takeNonce s a1) := by
  have C := B.toClosed
  unfold State.takeNonce
  repeat' (first
    | with_reducible assumption
    | with_reducible apply B.beginReport
    | with_reducible apply P_ite
    | (fail_if_no_progress with_reducible refine B.boot ?_ rfl rfl rfl rfl rfl))

theorem BootFree.execReportReady (B : BootFree P) {s : State} (h : P s) : Res P (Sys2Proof.Machine.execReportReady s) := by
  have C := B.toClosed
  unfold Sys2Proof.Machine.execReportReady
  repeat' (first
    | with_reducible assumption
    | with_reducible apply C.ends
    | with_reducible apply C.draw
    | with_reducible apply P_ite
    | (fail_if_no_progress with_reducible refine B.boot ?_ rfl rfl rfl rfl rfl))

end Sys2Proof.Machine
end

