-- ==== Sys2Proof/Laws/ClosedSwitch.lean ====
section
/-!
SUPPORT. Sys2Proof/Laws/ClosedSwitch.lean: the same of the links, start-up and the switch core.
-/
namespace Sys2Proof.Machine

set_option maxRecDepth 8000

variable {P : State → Prop}

theorem Closed.sentAs (C : Closed P) {s : State} {a1 : Frame} {a2 : Nat} (h : P s) : P (State.sentAs s a1 a2) := by
  unfold State.sentAs
  repeat' (first
    | with_reducible assumption
    | with_reducible apply C.sendDone
    | with_reducible apply C.emitDone
    | split)

theorem Closed.dropAtLink (C : Closed P) {s : State} {a1 : Nat} {a2 : Frame} (h : P s) : P (State.dropAtLink s a1 a2) := by
  unfold State.dropAtLink
  repeat' (first
    | with_reducible assumption
    | with_reducible apply C.sentAs
    | with_reducible apply C.count
    | with_reducible apply C.freeFrame)

theorem Closed.dropQueues (C : Closed P) {s : State} {a1 : Nat} (h : P s) : P (State.dropQueues s a1) := by
  unfold State.dropQueues
  repeat' (first
    | with_reducible assumption
    | with_reducible apply C.dropAtLink
    | with_reducible apply C.setPort
    | with_reducible refine P_foldl ?_ (fun _ _ _ => ?_)
    | with_reducible rfl
    | with_reducible exact setQueue_up _ _ _
    | with_reducible refine (portFold_up _ _ _ (fun _ _ => ?_)).trans ?_
    | split)

theorem Closed.detach (C : Closed P) {s : State} {a1 : Nat} (h : P s) : P (State.detach s a1) := by
  unfold State.detach
  repeat' (first
    | with_reducible assumption
    | with_reducible apply C.idxSet
    | with_reducible apply C.setPort
    | with_reducible apply C.count
    | with_reducible apply C.colophonAdd
    | with_reducible apply C.failOwnRun
    | with_reducible apply P_ite
    | with_reducible refine P_foldl ?_ (fun _ _ _ => ?_)
    | with_reducible rfl
    | split)

theorem Closed.dropLink (C : Closed P) {s : State} {a1 : Nat} (h : P s) : P (State.dropLink s a1) := by
  unfold State.dropLink
  dsimp only
  split
  · exact C.settle (C.detach (C.dropQueues (C.lower h rfl)))
  · exact C.lower h rfl

theorem ClockFree.raiseLink (K : ClockFree P) {s : State} {a1 : Nat} (h : P s) : P (State.raiseLink s a1) := by
  have C := K.toClosed
  unfold State.raiseLink
  repeat' (first
    | with_reducible assumption
    | with_reducible apply K.anyPort
    | with_reducible apply C.idxSet
    | with_reducible apply C.retag
    | with_reducible apply P_ite)

theorem Clocked.execLinkUp (K : Clocked P) {a0 : PortId} {s : State} (h : P s) : Res P (Sys2Proof.Machine.execLinkUp a0 s) := by
  have C := K.toClosed
  unfold Sys2Proof.Machine.execLinkUp
  repeat' (first
    | with_reducible assumption
    | with_reducible apply C.ends
    | with_reducible apply K.raiseLink
    | with_reducible apply P_ite)

theorem Closed.execCodewordLock (C : Closed P) {a0 : PortId} {a1 : Fin 4} {a2 : Bool} {s : State} (h : P s) : Res P (Sys2Proof.Machine.execCodewordLock a0 a1 a2 s) := by
  unfold Sys2Proof.Machine.execCodewordLock
  repeat' (first
    | with_reducible assumption
    | with_reducible apply C.ends
    | with_reducible apply C.setPort
    | with_reducible apply P_ite
    | with_reducible rfl)

theorem Closed.execUncorrectableCodeword (C : Closed P) {a0 : PortId} {a1 : BitVec 32} {a2 : Nat} {s : State} (h : P s) : Res P (Sys2Proof.Machine.execUncorrectableCodeword a0 a1 a2 s) := by
  unfold Sys2Proof.Machine.execUncorrectableCodeword
  repeat' (first
    | with_reducible assumption
    | with_reducible apply C.ends
    | with_reducible apply C.idxBump
    | with_reducible apply C.setPort
    | with_reducible rfl
    | split)

theorem Closed.retryFails (C : Closed P) {s : State} {a1 : Nat} (h : P s) : P (State.retryFails s a1) := by
  unfold State.retryFails
  repeat' (first
    | with_reducible assumption
    | with_reducible apply C.idxBump)

theorem Closed.replayFrom (C : Closed P) {s : State} {a1 : Nat} {a2 : Nat} {a3 : Nat} {a4 : Nat} (h : P s) : P (State.replayFrom s a1 a2 a3 a4) := by
  unfold State.replayFrom
  repeat' (first
    | with_reducible assumption
    | with_reducible apply C.setPort
    | with_reducible rfl)

theorem Closed.execReplayArrival (C : Closed P) {a0 : PortId} {a1 : BitVec 32} {a2 : Nat} {s : State} (h : P s) : Res P (Sys2Proof.Machine.execReplayArrival a0 a1 a2 s) := by
  unfold Sys2Proof.Machine.execReplayArrival
  repeat' (first
    | with_reducible assumption
    | with_reducible apply C.ends
    | with_reducible apply C.idxBump
    | with_reducible apply C.setPort
    | with_reducible rfl
    | split)

theorem Closed.execCreditFrameSend (C : Closed P) {a0 : PortId} {s : State} (h : P s) : Res P (Sys2Proof.Machine.execCreditFrameSend a0 s) := by
  unfold Sys2Proof.Machine.execCreditFrameSend
  repeat' (first
    | with_reducible assumption
    | with_reducible apply C.ends
    | with_reducible apply C.setPort
    | with_reducible apply P_ite
    | with_reducible rfl)

theorem Closed.takeCredits (C : Closed P) {s : State} {a1 : Nat} {a2 : Nat} (h : P s) : P (State.takeCredits s a1 a2) := by
  unfold State.takeCredits
  repeat' (first
    | with_reducible assumption
    | with_reducible apply C.retag
    | with_reducible apply C.setPort
    | with_reducible rfl)

theorem Closed.execEchoRequestReceive (C : Closed P) {a0 : PortId} {s : State} (h : P s) : Res P (Sys2Proof.Machine.execEchoRequestReceive a0 s) := by
  unfold Sys2Proof.Machine.execEchoRequestReceive
  repeat' (first
    | with_reducible assumption
    | with_reducible apply C.ends
    | with_reducible apply C.setPort
    | with_reducible apply P_ite
    | with_reducible rfl)

theorem Closed.execEchoReplySend (C : Closed P) {a0 : PortId} {s : State} (h : P s) : Res P (Sys2Proof.Machine.execEchoReplySend a0 s) := by
  unfold Sys2Proof.Machine.execEchoReplySend
  repeat' (first
    | with_reducible assumption
    | with_reducible apply C.ends
    | with_reducible apply C.setPort
    | with_reducible rfl
    | split)

theorem ClockFree.execResetAssert (K : ClockFree P) {s : State} (h : P s) : Res P (Sys2Proof.Machine.execResetAssert s) := by
  have C := K.toClosed
  unfold Sys2Proof.Machine.execResetAssert
  exact P_ends C (K.clock K.reset)

theorem ClockFree.execResetRelease (K : ClockFree P) {s : State} (h : P s) : Res P (Sys2Proof.Machine.execResetRelease s) := by
  have C := K.toClosed
  unfold Sys2Proof.Machine.execResetRelease
  repeat' (first
    | with_reducible assumption
    | with_reducible apply C.ends
    | with_reducible apply P_ite
    | (fail_if_no_progress with_reducible refine K.clock ?_))

theorem ClockFree.endPhase (K : ClockFree P) {s : State} {a1 : Phase} {a2 : Phase} {a3 : Nat} (h : P s) : P (State.endPhase s a1 a2 a3) := by
  have C := K.toClosed
  unfold State.endPhase
  repeat' (first
    | with_reducible assumption
    | with_reducible apply P_ite
    | (fail_if_no_progress with_reducible refine K.clock ?_))

theorem ClockFree.execSignalDetect (K : ClockFree P) {s : State} (h : P s) : Res P (Sys2Proof.Machine.execSignalDetect s) := by
  have C := K.toClosed
  unfold Sys2Proof.Machine.execSignalDetect
  repeat' (first
    | with_reducible assumption
    | with_reducible apply C.ends
    | with_reducible apply P_ite
    | (fail_if_no_progress with_reducible refine K.clock ?_))

theorem ClockFree.execClockRecoveryLock (K : ClockFree P) {a0 : Nat} {s : State} (h : P s) : Res P (Sys2Proof.Machine.execClockRecoveryLock a0 s) := by
  have C := K.toClosed
  unfold Sys2Proof.Machine.execClockRecoveryLock
  repeat' (first
    | with_reducible assumption
    | with_reducible apply C.ends
    | with_reducible apply K.endPhase)

theorem ClockFree.execOscillatorStable (K : ClockFree P) {a0 : Nat} {s : State} (h : P s) : Res P (Sys2Proof.Machine.execOscillatorStable a0 s) := by
  have C := K.toClosed
  unfold Sys2Proof.Machine.execOscillatorStable
  repeat' (first
    | with_reducible assumption
    | with_reducible apply C.ends
    | with_reducible apply K.endPhase)

theorem ClockFree.execReferenceLock (K : ClockFree P) {a0 : Nat} {s : State} (h : P s) : Res P (Sys2Proof.Machine.execReferenceLock a0 s) := by
  have C := K.toClosed
  unfold Sys2Proof.Machine.execReferenceLock
  repeat' (first
    | with_reducible assumption
    | with_reducible apply C.ends
    | with_reducible apply K.endPhase)

theorem ClockFree.phase6 (K : ClockFree P) {s : State} (h : P s) : P (State.phase6 s) := by
  have C := K.toClosed
  unfold State.phase6
  repeat' (first
    | with_reducible assumption
    | with_reducible apply C.idxSet
    | with_reducible apply P_ite
    | (fail_if_no_progress with_reducible refine K.clock ?_)
    | split)

theorem ClockFree.backToMarks (K : ClockFree P) {s : State} (h : P s) : P (State.backToMarks s) := by
  have C := K.toClosed
  unfold State.backToMarks
  repeat' (first
    | with_reducible assumption
    | with_reducible apply C.idxSet
    | (fail_if_no_progress with_reducible refine K.clock ?_))

theorem ClockFree.memLocks (K : ClockFree P) {s : State} (h : P s) : P (State.memLocks s) := by
  have C := K.toClosed
  unfold State.memLocks
  repeat' (first
    | with_reducible assumption
    | with_reducible apply P_ite
    | (fail_if_no_progress with_reducible refine K.clock ?_))

theorem ClockFree.execDomainLock (K : ClockFree P) {a0 : Nat} {s : State} (h : P s) : Res P (Sys2Proof.Machine.execDomainLock a0 s) := by
  have C := K.toClosed
  unfold Sys2Proof.Machine.execDomainLock
  repeat' (first
    | with_reducible assumption
    | with_reducible apply C.ends
    | with_reducible apply K.phase6
    | with_reducible apply K.endPhase
    | with_reducible apply K.memLocks)

theorem ClockFree.execEchoReplyReceive (K : ClockFree P) {a0 : Nat} {s : State} (h : P s) : Res P (Sys2Proof.Machine.execEchoReplyReceive a0 s) := by
  have C := K.toClosed
  unfold Sys2Proof.Machine.execEchoReplyReceive
  repeat' (first
    | with_reducible assumption
    | with_reducible apply C.ends
    | with_reducible apply K.phase6
    | with_reducible apply C.idxSet
    | with_reducible apply P_ite
    | (fail_if_no_progress with_reducible refine K.clock ?_))

theorem ClockFree.execReleaseBoundary (K : ClockFree P) {a0 : Nat} {s : State} (h : P s) : Res P (Sys2Proof.Machine.execReleaseBoundary a0 s) := by
  have C := K.toClosed
  unfold Sys2Proof.Machine.execReleaseBoundary
  repeat' (first
    | with_reducible assumption
    | with_reducible apply C.ends
    | with_reducible apply P_ite
    | (fail_if_no_progress with_reducible refine K.clock ?_))

theorem ClockFree.execAlignmentCheckEnd (K : ClockFree P) {a0 : Bool} {s : State} (h : P s) : Res P (Sys2Proof.Machine.execAlignmentCheckEnd a0 s) := by
  have C := K.toClosed
  unfold Sys2Proof.Machine.execAlignmentCheckEnd
  repeat' (first
    | with_reducible assumption
    | with_reducible apply C.ends
    | with_reducible apply P_ite
    | (fail_if_no_progress with_reducible refine K.clock ?_))

theorem Closed.expireAll (C : Closed P) {s : State} (h : P s) : P (State.expireAll s) := by
  unfold State.expireAll
  repeat' (first
    | with_reducible assumption
    | with_reducible apply C.settle
    | with_reducible apply C.failRest
    | with_reducible apply C.nameFailed
    | with_reducible apply P_ite
    | with_reducible refine P_foldl ?_ (fun _ _ _ => ?_))

theorem Closed.cancelStart (C : Closed P) {s : State} (h : P s) : P (State.cancelStart s) := by
  unfold State.cancelStart
  repeat' (first
    | with_reducible assumption
    | (fail_if_no_progress with_reducible refine C.plain ?_ rfl rfl rfl rfl rfl))

theorem Closed.drainBegin (C : Closed P) {s : State} (h : P s) : P (State.drainBegin s) := by
  unfold State.drainBegin
  repeat' (first
    | with_reducible assumption
    | with_reducible apply C.cancelStart
    | with_reducible apply C.stopCores
    | with_reducible apply C.dropLink
    | with_reducible apply C.expireAll
    | with_reducible apply P_ite
    | with_reducible refine P_foldl ?_ (fun _ _ _ => ?_))

theorem ClockFree.attemptLost (K : ClockFree P) {s : State} (h : P s) : P (State.attemptLost s) := by
  have C := K.toClosed
  unfold State.attemptLost
  exact K.clock (K.attemptMem h)

theorem ClockFree.coast (K : ClockFree P) {s : State} {a1 : Nat} (h : P s) : P (State.coast s a1) := by
  have C := K.toClosed
  unfold State.coast
  repeat' (first
    | with_reducible assumption
    | with_reducible apply C.dropQueues
    | with_reducible apply C.dropLink
    | with_reducible apply C.drainBegin
    | with_reducible apply P_ite
    | (fail_if_no_progress with_reducible refine K.clock ?_))

theorem ClockFree.coastOn (K : ClockFree P) {s : State} {a1 : LossCause} (h : P s) : P (State.coastOn s a1) := by
  have C := K.toClosed
  unfold State.coastOn
  repeat' (first
    | with_reducible assumption
    | with_reducible apply P_ite
    | (fail_if_no_progress with_reducible refine K.clock ?_))

theorem ClockFree.execReferenceLoss (K : ClockFree P) {a0 : LossCause} {s : State} (h : P s) : Res P (Sys2Proof.Machine.execReferenceLoss a0 s) := by
  have C := K.toClosed
  unfold Sys2Proof.Machine.execReferenceLoss
  repeat' (first
    | with_reducible assumption
    | with_reducible apply C.ends
    | with_reducible apply K.coastOn
    | with_reducible apply K.coast
    | with_reducible apply K.attemptLost
    | with_reducible apply P_ite
    | (fail_if_no_progress with_reducible refine K.clock ?_))

theorem ClockFree.restart (K : ClockFree P) {s : State} (h : P s) : P (State.restart s) := by
  have C := K.toClosed
  unfold State.restart
  exact C.clearMem (C.clearMem (K.clock (K.restartMem h)))

theorem ClockFree.execDrainComplete (K : ClockFree P) {s : State} (h : P s) : Res P (Sys2Proof.Machine.execDrainComplete s) := by
  have C := K.toClosed
  unfold Sys2Proof.Machine.execDrainComplete
  repeat' (first
    | with_reducible assumption
    | with_reducible apply C.ends
    | with_reducible apply C.writeRecords
    | with_reducible apply K.restart
    | with_reducible apply P_ite
    | with_reducible refine P_foldl ?_ (fun _ _ _ => ?_)
    | (fail_if_no_progress with_reducible refine K.clock ?_))

theorem ClockFree.execSignalReturn (K : ClockFree P) {s : State} (h : P s) : Res P (Sys2Proof.Machine.execSignalReturn s) := by
  have C := K.toClosed
  unfold Sys2Proof.Machine.execSignalReturn
  repeat' (first
    | with_reducible assumption
    | with_reducible apply C.ends
    | with_reducible apply K.restart
    | with_reducible apply P_ite
    | (fail_if_no_progress with_reducible refine K.clock ?_))

theorem Clocked.downLink (K : Clocked P) {s : State} {a1 : Nat} (h : P s) : P (State.downLink s a1) := by
  have C := K.toClosed
  unfold State.downLink
  split
  · rename_i hc
    simp only [Bool.and_eq_true, decide_eq_true_eq] at hc
    exact K.coast hc.1.1.2 h
  · exact C.dropLink h

theorem Clocked.execLinkDown (K : Clocked P) {a0 : PortId} {s : State} (h : P s) : Res P (Sys2Proof.Machine.execLinkDown a0 s) := by
  have C := K.toClosed
  unfold Sys2Proof.Machine.execLinkDown
  repeat' (first
    | with_reducible assumption
    | with_reducible apply C.ends
    | with_reducible apply K.downLink
    | with_reducible apply P_ite)

theorem Clocked.execRetryTimeout (K : Clocked P) {a0 : PortId} {s : State} (h : P s) : Res P (Sys2Proof.Machine.execRetryTimeout a0 s) := by
  have C := K.toClosed
  unfold Sys2Proof.Machine.execRetryTimeout
  repeat' (first
    | with_reducible assumption
    | with_reducible apply C.ends
    | with_reducible apply K.downLink
    | with_reducible apply C.retryFails
    | split)

theorem Clocked.retryRequest (K : Clocked P) {s : State} {a1 : Nat} {a2 : Nat} {a3 : Nat} (h : P s) : P (State.retryRequest s a1 a2 a3) := by
  have C := K.toClosed
  unfold State.retryRequest
  repeat' (first
    | with_reducible assumption
    | with_reducible apply C.replayFrom
    | with_reducible apply K.downLink
    | with_reducible apply C.retryFails
    | split)

theorem Clocked.execRetryControlBlock (K : Clocked P) {a0 : PortId} {a1 : BitVec 32} {a2 : Nat} {s : State} (h : P s) : Res P (Sys2Proof.Machine.execRetryControlBlock a0 a1 a2 s) := by
  have C := K.toClosed
  unfold Sys2Proof.Machine.execRetryControlBlock
  repeat' (first
    | with_reducible assumption
    | with_reducible apply C.ends
    | with_reducible apply K.retryRequest)

theorem Clocked.receiveCredits (K : Clocked P) {s : State} {a1 : Nat} {a2 : Nat} (h : P s) : P (State.receiveCredits s a1 a2) := by
  have C := K.toClosed
  unfold State.receiveCredits
  repeat' (first
    | with_reducible assumption
    | with_reducible apply C.count
    | with_reducible apply C.takeCredits
    | with_reducible apply K.retryRequest
    | with_reducible apply P_ite)

theorem Clocked.execCreditFrameReceive (K : Clocked P) {a0 : PortId} {a1 : BitVec 256} {s : State} (h : P s) : Res P (Sys2Proof.Machine.execCreditFrameReceive a0 a1 s) := by
  have C := K.toClosed
  unfold Sys2Proof.Machine.execCreditFrameReceive
  repeat' (first
    | with_reducible assumption
    | with_reducible apply C.ends
    | with_reducible apply K.receiveCredits
    | with_reducible apply P_ite)

theorem ClockFree.afterGroup (K : ClockFree P) {s : State} {a1 : Bool} (h : P s) : P (State.afterGroup s a1) := by
  have C := K.toClosed
  unfold State.afterGroup
  repeat' (first
    | with_reducible assumption
    | with_reducible apply K.backToMarks
    | with_reducible apply K.phase6
    | with_reducible apply P_ite
    | (fail_if_no_progress with_reducible refine K.clock ?_))

theorem Clocked.execMarkerLock (K : Clocked P) {a0 : PortId} {a1 : Fin 4} {a2 : Bool} {a3 : BitVec 96} {s : State} (h : P s) : Res P (Sys2Proof.Machine.execMarkerLock a0 a1 a2 a3 s) := by
  have C := K.toClosed
  unfold Sys2Proof.Machine.execMarkerLock
  repeat' (first
    | with_reducible assumption
    | with_reducible apply C.ends
    | with_reducible apply C.setPort
    | with_reducible apply C.idxBump
    | with_reducible apply K.downLink
    | with_reducible apply K.afterGroup
    | with_reducible apply P_ite
    | with_reducible rfl)

theorem ClockFree.execStitchMarkReceive (K : ClockFree P) {a0 : BitVec 96} {a1 : Nat} {s : State} (h : P s) : Res P (Sys2Proof.Machine.execStitchMarkReceive a0 a1 s) := by
  have C := K.toClosed
  unfold Sys2Proof.Machine.execStitchMarkReceive
  repeat' (first
    | with_reducible assumption
    | with_reducible apply C.ends
    | with_reducible apply C.idxBump
    | with_reducible apply K.coast
    | with_reducible apply P_ite
    | (fail_if_no_progress with_reducible refine K.clock ?_))

theorem Closed.dropIngress (C : Closed P) {s : State} {a1 : Frame} {a2 : Nat} {a3 : Nat} {a4 : Nat} (h : P s) : P (State.dropIngress s a1 a2 a3 a4) := by
  unfold State.dropIngress
  repeat' (first
    | with_reducible assumption
    | with_reducible apply C.count
    | with_reducible apply C.freeFrame
    | with_reducible apply C.mirrorIngress)

theorem Closed.queueLanded (C : Closed P) {s : State} {a1 : Nat} {a2 : Frame} {a3 : Bool} (h : P s) : P (State.queueLanded s a1 a2 a3) := by
  unfold State.queueLanded
  repeat' (first
    | with_reducible assumption
    | with_reducible apply C.setPort
    | with_reducible apply P_ite
    | (fail_if_no_progress with_reducible refine C.plain ?_ rfl rfl rfl rfl rfl)
    | with_reducible rfl)

theorem Closed.landLossless (C : Closed P) {s : State} {a1 : Frame} (h : P s) : P (State.landLossless s a1) := by
  unfold State.landLossless
  repeat' (first
    | with_reducible assumption
    | with_reducible apply C.queueLanded
    | with_reducible apply C.allocMany
    | with_reducible apply C.alloc
    | with_reducible apply C.setPort
    | with_reducible apply C.chargePort
    | with_reducible apply C.fillLeaves
    | with_reducible apply C.linkChain
    | with_reducible apply P_ite
    | with_reducible rfl
    | intro _
    | split
    | (refine P_of_eq (by with_reducible assumption) ?_))

theorem Closed.retryLanding (C : Closed P) {s : State} (h : P s) : P (State.retryLanding s) := by
  unfold State.retryLanding
  repeat' (first
    | with_reducible assumption
    | with_reducible apply C.landLossless
    | with_reducible apply C.setPort
    | with_reducible apply P_ite
    | with_reducible refine P_foldl ?_ (fun _ _ _ => ?_)
    | with_reducible rfl)

theorem Closed.setMacs (C : Closed P) {s : State} {a1 : List MacEntry} (h : P s) : P (State.setMacs s a1) := by
  unfold State.setMacs
  repeat' (first
    | with_reducible assumption
    | (fail_if_no_progress with_reducible refine C.plain ?_ rfl rfl rfl rfl rfl))

theorem Closed.learn (C : Closed P) {s : State} {a1 : Nat} {a2 : Nat} {a3 : Nat} (h : P s) : P (State.learn s a1 a2 a3) := by
  unfold State.learn
  repeat' (first
    | with_reducible assumption
    | with_reducible apply C.setMacs
    | with_reducible apply C.count
    | split)

theorem Closed.police (C : Closed P) {s : State} {a1 : Frame} (h : P s) : P (State.police s a1).1 := by
  unfold State.police
  repeat' (first
    | with_reducible assumption
    | with_reducible apply C.setPort
    | with_reducible rfl)

theorem Closed.landLossy (C : Closed P) {s : State} {a1 : Frame} (h : P s) : P (State.landLossy s a1) := by
  unfold State.landLossy
  repeat' (first
    | with_reducible assumption
    | with_reducible apply C.allocMany
    | with_reducible apply C.allocLossy
    | with_reducible apply C.dropIngress
    | with_reducible apply C.fillLeaves
    | with_reducible apply C.linkChain
    | with_reducible apply C.queueLanded
    | with_reducible apply C.police
    | with_reducible apply C.count
    | intro _
    | split
    | (refine P_of_eq (by with_reducible assumption) ?_)
    | dsimp only)

theorem Closed.landOrdinary (C : Closed P) {s : State} {a1 : Frame} (h : P s) : P (State.landOrdinary s a1) := by
  unfold State.landOrdinary
  repeat' (first
    | with_reducible assumption
    | with_reducible apply C.dropIngress
    | with_reducible apply C.learn
    | with_reducible apply C.landLossy
    | with_reducible apply P_ite)

theorem Clocked.land (K : Clocked P) {s : State} {a1 : Nat} {a2 : Bytes} (h : P s) : P (State.land s a1 a2) := by
  have C := K.toClosed
  unfold State.land
  repeat' (first
    | with_reducible assumption
    | with_reducible apply K.receiveCredits
    | with_reducible apply C.setPort
    | with_reducible apply C.dropIngress
    | with_reducible apply C.landOrdinary
    | with_reducible apply C.landLossless
    | with_reducible apply P_ite
    | with_reducible rfl
    | split)

theorem Clocked.execFrameLand (K : Clocked P) {a0 : PortId} {a1 : Bytes} {s : State} (h : P s) : Res P (Sys2Proof.Machine.execFrameLand a0 a1 s) := by
  have C := K.toClosed
  unfold Sys2Proof.Machine.execFrameLand
  repeat' (first
    | with_reducible assumption
    | with_reducible apply C.ends
    | with_reducible apply K.land
    | with_reducible apply P_ite)

theorem Closed.earlyDrop (C : Closed P) {s : State} {a1 : Nat} {a2 : Nat} {a3 : Nat} {a4 : Colour} (h : P s) : P (State.earlyDrop s a1 a2 a3 a4).1 := by
  unfold State.earlyDrop
  repeat' (first
    | with_reducible assumption
    | with_reducible apply C.setPort
    | with_reducible apply P_ite1
    | with_reducible exact setQueue_up _ _ _)

theorem Closed.furtherLeaves (C : Closed P) {s : State} {a1 : Nat} {a2 : Nat} {a3 : Nat} {a4 : Nat} {a5 : Nat} {a6 : List Nat} (h : P s) : P (State.furtherLeaves s a1 a2 a3 a4 a5 a6).1 := by
  induction a3 generalizing s a4 a5 a6 with
  | zero => exact h
  | succ k ih =>
    unfold State.furtherLeaves
    dsimp only
    split
    · split
      · exact ih (P_of_eq (by with_reducible assumption) (C.alloc h))
      · exact C.freeLeaves (P_of_eq (by with_reducible assumption) (C.alloc h))
    · split
      · split
        · exact ih (P_of_eq (by with_reducible assumption) (C.alloc h))
        · exact C.freeLeaves (P_of_eq (by with_reducible assumption) (C.alloc h))
      · exact C.freeLeaves h

theorem Closed.admission (C : Closed P) {s : State} {a1 : Nat} {a2 : Frame} {a3 : Nat} (h : P s) : P (State.admission s a1 a2 a3).1 := by
  unfold State.admission
  repeat' (first
    | with_reducible assumption
    | with_reducible apply C.earlyDrop
    | with_reducible apply C.count
    | with_reducible apply C.furtherLeaves
    | with_reducible apply C.linkChain
    | with_reducible apply P_ite1
    | split
    | (refine P_of_eq (by with_reducible assumption) ?_))

theorem Closed.spread (C : Closed P) {s : State} {a1 : Frame} {a2 : List Nat} (h : P s) : P (State.spread s a1 a2) := by
  unfold State.spread
  repeat' (first
    | with_reducible assumption
    | with_reducible apply C.admission
    | with_reducible apply C.freeFrame
    | with_reducible apply C.mirrorIngress
    | with_reducible apply C.refFrame
    | with_reducible apply C.fillLeaves
    | with_reducible apply C.enqueue
    | with_reducible refine P_foldl ?_ (fun _ _ _ => ?_)
    | with_reducible refine P_foldl1 ?_ (fun _ _ _ => ?_)
    | split
    | dsimp only)

theorem Closed.bridge (C : Closed P) {s : State} {a1 : Frame} (h : P s) : P (State.bridge s a1) := by
  unfold State.bridge
  repeat' (first
    | with_reducible assumption
    | with_reducible apply C.dropIngress
    | with_reducible apply C.spread
    | with_reducible apply C.freeFrame
    | with_reducible apply C.mirrorIngress
    | split
    | dsimp only)

theorem Closed.deliverRequest (C : Closed P) {s : State} {a1 : Frame} (h : P s) : P (State.deliverRequest s a1) := by
  unfold State.deliverRequest
  repeat' (first
    | with_reducible assumption
    | (fail_if_no_progress with_reducible refine C.plain ?_ rfl rfl rfl rfl rfl))

theorem Closed.forward (C : Closed P) {s : State} {a1 : Frame} (h : P s) : P (State.forward s a1) := by
  unfold State.forward
  repeat' (first
    | with_reducible assumption
    | with_reducible apply C.dropIngress
    | with_reducible apply C.enqueue
    | with_reducible apply C.mirrorIngress
    | split)

theorem Closed.lookupIndex (C : Closed P) {s : State} {a1 : Frame} (h : P s) : P (State.lookupIndex s a1) := by
  unfold State.lookupIndex
  repeat' (first
    | with_reducible assumption
    | with_reducible apply C.deliverRequest
    | with_reducible apply C.mirrorIngress
    | with_reducible apply C.freeFrame
    | with_reducible apply C.refFrame
    | with_reducible apply C.enqueue
    | with_reducible apply C.forward
    | with_reducible apply P_ite
    | with_reducible refine P_foldl ?_ (fun _ _ _ => ?_))

theorem Closed.lookupCompute (C : Closed P) {s : State} {a1 : Frame} (h : P s) : P (State.lookupCompute s a1) := by
  unfold State.lookupCompute
  repeat' (first
    | with_reducible assumption
    | with_reducible apply C.dropIngress
    | with_reducible apply C.forward
    | with_reducible apply C.mirrorIngress
    | with_reducible apply C.enqueue
    | with_reducible apply C.deliverCompute
    | with_reducible apply C.refFrame
    | with_reducible apply P_ite
    | (fail_if_no_progress with_reducible refine C.plain ?_ rfl rfl rfl rfl rfl))

theorem Closed.lookupFrame (C : Closed P) {s : State} {a1 : Frame} (h : P s) : P (State.lookupFrame s a1) := by
  unfold State.lookupFrame
  repeat' (first
    | with_reducible assumption
    | with_reducible apply C.lookupIndex
    | with_reducible apply C.lookupCompute
    | with_reducible apply C.bridge
    | split)

theorem Closed.execLookup (C : Closed P) {a0 : PortId} {s : State} (h : P s) : Res P (Sys2Proof.Machine.execLookup a0 s) := by
  unfold Sys2Proof.Machine.execLookup
  repeat' (first
    | with_reducible assumption
    | with_reducible apply C.ends
    | with_reducible apply C.lookupFrame
    | with_reducible apply C.setPort
    | with_reducible rfl
    | split)

theorem Closed.leaveHeads (C : Closed P) {s : State} {a1 : Nat} (h : P s) : P (State.leaveHeads s a1) := by
  unfold State.leaveHeads
  repeat' (first
    | with_reducible assumption
    | with_reducible apply C.setPort
    | with_reducible refine P_foldl ?_ (fun _ _ _ => ?_)
    | with_reducible exact setQueue_up _ _ _
    | split
    | dsimp only)

theorem Closed.execEgressSelect (C : Closed P) {a0 : PortId} {s : State} (h : P s) : Res P (Sys2Proof.Machine.execEgressSelect a0 s) := by
  unfold Sys2Proof.Machine.execEgressSelect
  repeat' (first
    | with_reducible assumption
    | with_reducible apply C.ends
    | with_reducible apply C.wheelVisit
    | with_reducible apply C.leaveHeads
    | with_reducible apply C.transmit
    | split
    | dsimp only)

theorem Closed.execWheelSlot (C : Closed P) {a0 : PortId} {s : State} (h : P s) : Res P (Sys2Proof.Machine.execWheelSlot a0 s) := by
  unfold Sys2Proof.Machine.execWheelSlot
  repeat' (first
    | with_reducible assumption
    | with_reducible apply C.ends
    | with_reducible apply C.wheelVisit
    | with_reducible apply P_ite)

theorem Closed.execFrameTransmitted (C : Closed P) {a0 : PortId} {s : State} (h : P s) : Res P (Sys2Proof.Machine.execFrameTransmitted a0 s) := by
  unfold Sys2Proof.Machine.execFrameTransmitted
  repeat' (first
    | with_reducible assumption
    | with_reducible apply C.ends
    | with_reducible apply C.setPort
    | with_reducible apply C.count
    | with_reducible apply C.settle
    | with_reducible apply C.sentAs
    | with_reducible apply C.freeFrame
    | with_reducible rfl
    | split)

theorem Closed.execMacAging (C : Closed P) {a0 : BitVec 12} {a1 : BitVec 48} {s : State} (h : P s) : Res P (Sys2Proof.Machine.execMacAging a0 a1 s) := by
  unfold Sys2Proof.Machine.execMacAging
  repeat' (first
    | with_reducible assumption
    | with_reducible apply C.ends
    | with_reducible apply C.setMacs
    | split)

theorem Closed.sampleQueue (C : Closed P) {s : State} {a1 : Nat} {a2 : Nat} {a3 : Nat × Nat} (h : P s) : P (State.sampleQueue s a1 a2 a3) := by
  unfold State.sampleQueue
  repeat' (first
    | with_reducible assumption
    | with_reducible apply C.domainSet)

theorem Closed.execQueueSample (C : Closed P) {s : State} (h : P s) : Res P (Sys2Proof.Machine.execQueueSample s) := by
  unfold Sys2Proof.Machine.execQueueSample
  repeat' (first
    | with_reducible assumption
    | with_reducible apply C.ends
    | with_reducible apply C.count
    | with_reducible apply C.sampleQueue
    | with_reducible refine P_foldl ?_ (fun _ _ _ => ?_)
    | (fail_if_no_progress with_reducible refine C.plain ?_ rfl rfl rfl rfl rfl)
    | split)

theorem Closed.clearHistograms (C : Closed P) {s : State} (h : P s) : P (State.clearHistograms s) := by
  exact C.idxSet (C.domainKeep h)

theorem Closed.noteScrub (C : Closed P) {s : State} {a1 : Bool} {a2 : Nat} {a3 : Nat} (h : P s) : P (State.noteScrub s a1 a2 a3) := by
  unfold State.noteScrub
  repeat' (first
    | with_reducible assumption
    | with_reducible apply C.idxBump
    | with_reducible apply P_ite
    | (fail_if_no_progress with_reducible refine C.memPlain ?_ rfl rfl rfl rfl rfl))

theorem Closed.scrubMem (C : Closed P) {s : State} {a1 : Nat} (h : P s) : P (State.scrubMem s a1) := by
  unfold State.scrubMem
  dsimp only
  split
  · exact C.memWrite (C.accountRead h)
  · exact C.accountRead h

theorem Closed.scrubLeaf (C : Closed P) {s : State} {a1 : Nat} {a2 : Nat} (h : P s) : P (State.scrubLeaf s a1 a2) := by
  unfold State.scrubLeaf
  repeat' (first
    | with_reducible assumption
    | with_reducible apply C.readLeafWord
    | with_reducible apply C.writeLeaf
    | split)

theorem Closed.execScrubRead (C : Closed P) {a0 : Nat} {s : State} (h : P s) : Res P (Sys2Proof.Machine.execScrubRead a0 s) := by
  unfold Sys2Proof.Machine.execScrubRead
  repeat' (first
    | with_reducible assumption
    | with_reducible apply C.ends
    | with_reducible apply C.noteScrub
    | with_reducible apply C.scrubLeaf
    | with_reducible apply C.scrubMem
    | with_reducible apply P_ite
    | split)

theorem Closed.reinitStart (C : Closed P) {s : State} (h : P s) : P (State.reinitStart s) := by
  unfold State.reinitStart
  repeat' (first
    | with_reducible assumption
    | with_reducible apply C.poolFlag
    | with_reducible apply C.dropIngress
    | with_reducible apply C.setPort
    | with_reducible apply C.count
    | with_reducible apply C.freeFrame
    | with_reducible apply P_ite
    | with_reducible refine P_foldl ?_ (fun _ _ _ => ?_)
    | (fail_if_no_progress with_reducible refine C.plain ?_ rfl rfl rfl rfl rfl)
    | with_reducible rfl
    | with_reducible exact setQueue_up _ _ _)

theorem Closed.reinitDiscard (C : Closed P) {s : State} (h : P s) : P (State.reinitDiscard s) := by
  unfold State.reinitDiscard
  repeat' (first
    | with_reducible assumption
    | with_reducible apply C.freeFrame
    | with_reducible apply C.count
    | with_reducible apply C.setPort
    | with_reducible apply P_ite
    | with_reducible refine P_foldl ?_ (fun _ _ _ => ?_)
    | (fail_if_no_progress with_reducible refine C.plain ?_ rfl rfl rfl rfl rfl)
    | with_reducible rfl
    | with_reducible exact setQueue_up _ _ _
    | with_reducible refine (portFold_up _ _ _ (fun _ _ => ?_)).trans ?_
    | split)

theorem Closed.reseed (C : Closed P) {s : State} (h : P s) : P (State.reseed s) := by
  unfold State.reseed
  repeat' (first
    | with_reducible assumption
    | with_reducible apply C.setPort
    | with_reducible refine P_foldl ?_ (fun _ _ _ => ?_)
    | with_reducible rfl)

theorem Closed.reinitEnd (C : Closed P) {s : State} (h : P s) : P (State.reinitEnd s) := by
  unfold State.reinitEnd
  repeat' (first
    | with_reducible assumption
    | with_reducible apply C.reinitDiscard
    | with_reducible apply C.reseed
    | with_reducible apply C.chargesBack
    | with_reducible apply C.poolReset
    | with_reducible apply C.carve
    | with_reducible apply C.sendReply
    | (fail_if_no_progress with_reducible refine C.plain ?_ rfl rfl rfl rfl rfl)
    | split
    | dsimp only)

theorem Closed.execPoolReinitDrainEnd (C : Closed P) {s : State} (h : P s) : Res P (Sys2Proof.Machine.execPoolReinitDrainEnd s) := by
  unfold Sys2Proof.Machine.execPoolReinitDrainEnd
  repeat' (first
    | with_reducible assumption
    | with_reducible apply C.ends
    | with_reducible apply C.reinitEnd
    | split)

end Sys2Proof.Machine
end

