-- ==== Sys2Proof/Laws/ClosedIndex.lean ====
section
/-!
SUPPORT. Sys2Proof/Laws/ClosedIndex.lean: the same of Index accesses, attachment and the stitch boundary.
-/
namespace Sys2Proof.Machine

set_option maxRecDepth 8000

variable {P : State → Prop}

theorem Closed.setMode (C : Closed P) {s : State} {a1 : Nat} {a2 : Nat} (h : P s) : P (State.setMode s a1 a2) := by
  unfold State.setMode
  repeat' (first
    | with_reducible assumption
    | with_reducible apply C.dropLink
    | with_reducible apply C.idxSet
    | with_reducible apply C.setPort
    | with_reducible refine P_foldl ?_ (fun _ _ _ => ?_)
    | with_reducible rfl)

theorem Closed.setRole (C : Closed P) {s : State} {a1 : Nat} {a2 : Nat} (h : P s) : P (State.setRole s a1 a2) := by
  unfold State.setRole
  repeat' (first
    | with_reducible assumption
    | with_reducible apply C.idxSet
    | with_reducible apply C.dropLink)

theorem Closed.setShaper (C : Closed P) {s : State} {a1 : Nat} {a2 : Nat} {a3 : Bool} {a4 : Nat} (h : P s) : P (State.setShaper s a1 a2 a3 a4) := by
  unfold State.setShaper
  repeat' (first
    | with_reducible assumption
    | with_reducible apply C.wheelVisit
    | with_reducible apply C.idxSet
    | with_reducible apply C.retag
    | with_reducible apply C.setPort
    | with_reducible exact setQueue_up _ _ _)

theorem Closed.setPolicer (C : Closed P) {s : State} {a1 : Nat} {a2 : Nat} {a3 : Nat} {a4 : Nat} (h : P s) : P (State.setPolicer s a1 a2 a3 a4) := by
  unfold State.setPolicer
  repeat' (first
    | with_reducible assumption
    | with_reducible apply C.idxSet
    | with_reducible apply C.setPort
    | with_reducible rfl)

theorem Closed.poolOperation (C : Closed P) {s : State} {a1 : Nat} (h : P s) : P (State.poolOperation s a1) := by
  unfold State.poolOperation
  repeat' (first
    | with_reducible assumption
    | with_reducible apply C.poolFlag
    | with_reducible apply C.alloc
    | with_reducible apply C.idxSet
    | with_reducible apply C.freeLeaf
    | with_reducible apply C.refLeaf
    | split)

theorem Closed.setMirrorControl (C : Closed P) {s : State} {a1 : Nat} {a2 : Nat} (h : P s) : P (State.setMirrorControl s a1 a2) := by
  unfold State.setMirrorControl
  repeat' (first
    | with_reducible assumption
    | with_reducible apply C.idxSet
    | with_reducible apply P_ite
    | (fail_if_no_progress with_reducible refine C.plain ?_ rfl rfl rfl rfl rfl))

theorem Closed.releaseFolio (C : Closed P) {s : State} (h : P s) : P (State.releaseFolio s) := by
  unfold State.releaseFolio
  repeat' (first
    | with_reducible assumption
    | with_reducible apply C.idxSet)

theorem Closed.setStaging (C : Closed P) {s : State} {a1 : Nat} (h : P s) : P (State.setStaging s a1) := by
  unfold State.setStaging
  repeat' (first
    | with_reducible assumption
    | with_reducible apply C.carve)

theorem Closed.writeWindow (C : Closed P) {s : State} {a1 : Nat} {a2 : Bytes} (h : P s) : P (State.writeWindow s a1 a2) := by
  unfold State.writeWindow
  repeat' (first
    | with_reducible assumption
    | with_reducible apply C.setAcc
    | with_reducible refine P_foldl ?_ (fun _ _ _ => ?_)
    | split)

theorem Closed.hostWrite (C : Closed P) {s : State} {a1 : Bytes} (h : P s) : P (State.hostWrite s a1) := by
  unfold State.hostWrite
  repeat' (first
    | with_reducible assumption
    | with_reducible apply C.writeWindow
    | with_reducible apply C.writeMem
    | with_reducible apply P_ite)

theorem Closed.clearDivergences (C : Closed P) {s : State} (h : P s) : P (State.clearDivergences s) := by
  unfold State.clearDivergences
  repeat' (first
    | with_reducible assumption
    | with_reducible apply C.idxSet
    | (fail_if_no_progress with_reducible refine C.plain ?_ rfl rfl rfl rfl rfl))

theorem Closed.clearDroops (C : Closed P) {s : State} (h : P s) : P (State.clearDroops s) := by
  unfold State.clearDroops
  repeat' (first
    | with_reducible assumption
    | with_reducible apply C.idxSet
    | with_reducible refine P_foldl ?_ (fun _ _ _ => ?_))

theorem Closed.applySwitch (C : Closed P) {s : State} {a1 : Nat} {a2 : Nat} {a3 : Nat} (h : P s) : P (State.applySwitch s a1 a2 a3) := by
  unfold State.applySwitch
  repeat' (first
    | with_reducible assumption
    | with_reducible apply C.releaseFolio
    | with_reducible apply C.setMode
    | with_reducible apply C.setRole
    | with_reducible apply C.clearHistograms
    | with_reducible apply C.reinitStart
    | with_reducible apply C.setMirrorControl
    | with_reducible apply C.poke64
    | with_reducible apply C.setShaper
    | with_reducible apply C.setPolicer
    | with_reducible apply C.idxSet
    | split)

theorem Closed.applyCompute (C : Closed P) {s : State} {a1 : Nat} {a2 : Nat} {a3 : Nat} (h : P s) : P (State.applyCompute s a1 a2 a3) := by
  unfold State.applyCompute
  repeat' (first
    | with_reducible assumption
    | with_reducible apply C.poke64
    | with_reducible apply C.startRegionLoad
    | with_reducible apply C.settle
    | with_reducible apply C.stopCore
    | with_reducible apply C.load
    | with_reducible apply C.clearStaged
    | with_reducible apply C.release
    | with_reducible apply C.setStaging
    | with_reducible apply C.resetCtx
    | with_reducible apply C.restartCtx
    | with_reducible apply C.idxSet
    | split)

theorem Booted.applyHigh (B : Booted P) {s : State} {a1 : Nat} {a2 : Nat} {a3 : Nat} (h : P s) : P (State.applyHigh s a1 a2 a3) := by
  have C := B.toClosed
  unfold State.applyHigh
  repeat' (first
    | with_reducible assumption
    | with_reducible apply C.idxSet
    | with_reducible apply C.clearDivergences
    | with_reducible apply C.failRun
    | with_reducible apply C.startCopy
    | with_reducible apply C.clearDroops
    | with_reducible apply B.bootCommand
    | with_reducible apply C.clearHalf
    | with_reducible apply C.poolOperation
    | (fail_if_no_progress with_reducible refine C.plain ?_ rfl rfl rfl rfl rfl)
    | with_reducible refine B.lock ?_
    | split)

theorem Booted.applyNumber (B : Booted P) {s : State} {a1 : Nat} {a2 : Nat} {a3 : Nat} (h : P s) : P (State.applyNumber s a1 a2 a3) := by
  have C := B.toClosed
  unfold State.applyNumber
  repeat' (first
    | with_reducible assumption
    | with_reducible apply C.applySwitch
    | with_reducible apply C.applyCompute
    | with_reducible apply B.applyHigh
    | with_reducible apply P_ite)

theorem Closed.macOperation (C : Closed P) {s : State} {a1 : Bytes} (h : P s) : P (State.macOperation s a1) := by
  unfold State.macOperation
  repeat' (first
    | with_reducible assumption
    | with_reducible apply C.setMacs
    | split)

theorem Closed.vlanOperation (C : Closed P) {s : State} {a1 : Bytes} (h : P s) : P (State.vlanOperation s a1) := by
  unfold State.vlanOperation
  repeat' (first
    | with_reducible assumption
    | (fail_if_no_progress with_reducible refine C.plain ?_ rfl rfl rfl rfl rfl))

theorem Booted.applyBytes (B : Booted P) {s : State} {a1 : Nat} {a2 : Nat} {a3 : Bytes} (h : P s) : P (State.applyBytes s a1 a2 a3) := by
  have C := B.toClosed
  unfold State.applyBytes
  repeat' (first
    | with_reducible assumption
    | with_reducible apply C.macOperation
    | with_reducible apply C.vlanOperation
    | with_reducible apply C.stage
    | with_reducible apply C.hostWrite
    | with_reducible apply C.firmwareSegment
    | with_reducible apply B.takeNonce
    | with_reducible apply C.domainSet
    | split)

theorem Booted.applyWrite (B : Booted P) {s : State} {a1 : Nat} {a2 : Nat} {a3 : Bytes} (h : P s) : P (State.applyWrite s a1 a2 a3) := by
  have C := B.toClosed
  unfold State.applyWrite
  repeat' (first
    | with_reducible assumption
    | with_reducible apply B.applyBytes
    | with_reducible apply B.applyNumber
    | split)

theorem Booted.foldWrites (B : Booted P) {s : State} {a1 : Bool} {a2 : List (Nat × Nat)} {a3 : List IndexRecord} {a4 : Nat} {s2 : State} (h : P s) (h2 : P s2) : P (State.foldWrites s a1 a2 a3 a4 s2).1 := by
  have C := B.toClosed
  induction a3 generalizing s2 a4 with
  | nil => exact h2
  | cons x xs ih =>
    unfold State.foldWrites
    dsimp only
    split
    · exact ih (B.applyWrite h2)
    · exact h2

theorem Booted.writeAccess (B : Booted P) {s : State} {a1 : Bool} {a2 : List IndexRecord} (h : P s) : P (State.writeAccess s a1 a2).1 := by
  have C := B.toClosed
  unfold State.writeAccess
  repeat' (first
    | with_reducible assumption
    | with_reducible apply B.foldWrites
    | split
    | (refine P_of_eq (by with_reducible assumption) ?_))

theorem Closed.hostRead (C : Closed P) {s : State} {a1 : Nat} (h : P s) : P (State.hostRead s a1).1 := by
  unfold State.hostRead
  repeat' (first
    | with_reducible assumption
    | with_reducible apply C.readMem
    | with_reducible apply C.idxSet
    | with_reducible apply P_ite1
    | split
    | (refine P_of_eq (by with_reducible assumption) ?_))

theorem Closed.readOne (C : Closed P) {s : State} {a1 : Bool} {a2 : Nat} {a3 : Nat} {a4 : Nat} {a5 : Nat} (h : P s) : P (State.readOne s a1 a2 a3 a4 a5).1 := by
  unfold State.readOne
  repeat' (first
    | with_reducible assumption
    | with_reducible apply C.hostRead
    | with_reducible apply P_ite1)

theorem Closed.readRecordsFrom (C : Closed P) {a0 : Bool} {a1 : List IndexRecord} {a2 : Nat} {s : State} (h : P s) : P (State.readRecordsFrom a0 a1 a2 s).1 := by
  induction a1 generalizing s a2 with
  | nil => exact h
  | cons x xs ih => exact ih (C.readOne h)

theorem Closed.readAccess (C : Closed P) {s : State} {a1 : Bool} {a2 : List IndexRecord} (h : P s) : P (State.readAccess s a1 a2).1 := by
  unfold State.readAccess
  repeat' (first
    | with_reducible assumption
    | with_reducible apply C.readRecordsFrom)

theorem Closed.sendReplyAs (C : Closed P) {s : State} {a1 : Nat} {a2 : Frame} (h : P s) : P (State.sendReplyAs s a1 a2) := by
  unfold State.sendReplyAs
  repeat' (first
    | with_reducible assumption
    | with_reducible apply C.enqueue
    | with_reducible apply P_ite
    | (fail_if_no_progress with_reducible refine C.plain ?_ rfl rfl rfl rfl rfl))

theorem Closed.answer (C : Closed P) {s : State} {s2 : State} {a2 : IndexHeader} {a3 : List IndexRecord} {a4 : Nat} {a5 : List IndexRecord} (h : P s) (h2 : P s2) : P (State.answer s s2 a2 a3 a4 a5) := by
  unfold State.answer
  repeat' (first
    | with_reducible assumption
    | with_reducible apply C.sendReplyAs
    | with_reducible apply P_ite
    | (fail_if_no_progress with_reducible refine C.plain ?_ rfl rfl rfl rfl rfl))

theorem Closed.popRequest (C : Closed P) {s : State} (h : P s) : P (State.popRequest s) := by
  unfold State.popRequest
  repeat' (first
    | with_reducible assumption
    | (fail_if_no_progress with_reducible refine C.plain ?_ rfl rfl rfl rfl rfl))

theorem Closed.noteAccess (C : Closed P) {s : State} {a1 : Nat} {a2 : Bytes} (h : P s) : P (State.noteAccess s a1 a2) := by
  unfold State.noteAccess
  repeat' (first
    | with_reducible assumption
    | (fail_if_no_progress with_reducible refine C.plain ?_ rfl rfl rfl rfl rfl))

theorem Booted.serve (B : Booted P) {s : State} {a1 : Nat} (h : P s) : P (State.serve s a1) := by
  have C := B.toClosed
  unfold State.serve
  repeat' (first
    | with_reducible assumption
    | with_reducible apply C.noteAccess
    | with_reducible apply C.freeFrame
    | with_reducible apply C.answer
    | with_reducible apply C.popRequest
    | with_reducible apply B.writeAccess
    | with_reducible apply C.readAccess
    | split
    | dsimp only)

theorem Booted.execIndexRead (B : Booted P) {s : State} (h : P s) : Res P (Sys2Proof.Machine.execIndexRead s) := by
  have C := B.toClosed
  unfold Sys2Proof.Machine.execIndexRead
  repeat' (first
    | with_reducible assumption
    | with_reducible apply C.ends
    | with_reducible apply B.serve
    | with_reducible apply P_ite)

theorem Booted.execIndexWrite (B : Booted P) {s : State} (h : P s) : Res P (Sys2Proof.Machine.execIndexWrite s) := by
  have C := B.toClosed
  unfold Sys2Proof.Machine.execIndexWrite
  repeat' (first
    | with_reducible assumption
    | with_reducible apply C.ends
    | with_reducible apply B.serve
    | with_reducible apply P_ite)

theorem Booted.execIndexBlockRead (B : Booted P) {s : State} (h : P s) : Res P (Sys2Proof.Machine.execIndexBlockRead s) := by
  have C := B.toClosed
  unfold Sys2Proof.Machine.execIndexBlockRead
  repeat' (first
    | with_reducible assumption
    | with_reducible apply C.ends
    | with_reducible apply B.serve
    | with_reducible apply P_ite)

theorem Booted.execIndexBlockWrite (B : Booted P) {s : State} (h : P s) : Res P (Sys2Proof.Machine.execIndexBlockWrite s) := by
  have C := B.toClosed
  unfold Sys2Proof.Machine.execIndexBlockWrite
  repeat' (first
    | with_reducible assumption
    | with_reducible apply C.ends
    | with_reducible apply B.serve
    | with_reducible apply P_ite)

theorem Booted.write (B : Booted P) {s : State} {a1 : List (Nat × Nat × Bytes)} (h : P s) : P (State.write s a1) := by
  have C := B.toClosed
  unfold State.write
  repeat' (first
    | with_reducible assumption
    | with_reducible apply B.writeAccess
    | with_reducible apply C.noteAccess
    | with_reducible apply P_ite)

theorem Booted.writeNumber (B : Booted P) {s : State} {a1 : Nat} {a2 : Nat} {a3 : Nat} {a4 : Nat} (h : P s) : P (State.writeNumber s a1 a2 a3 a4) := by
  have C := B.toClosed
  unfold State.writeNumber
  repeat' (first
    | with_reducible assumption
    | with_reducible apply B.write)

theorem Booted.execRegisterWrite (B : Booted P) {a0 : BitVec 16} {a1 : BitVec 8} {a2 : Bytes} {s : State} (h : P s) : Res P (Sys2Proof.Machine.execRegisterWrite a0 a1 a2 s) := by
  have C := B.toClosed
  unfold Sys2Proof.Machine.execRegisterWrite
  repeat' (first
    | with_reducible assumption
    | with_reducible apply C.ends
    | with_reducible apply B.write)

theorem Booted.execAssignAddress (B : Booted P) {a0 : BitVec 16} {a1 : BitVec 8} {a2 : BitVec 16} {s : State} (h : P s) : Res P (Sys2Proof.Machine.execAssignAddress a0 a1 a2 s) := by
  have C := B.toClosed
  unfold Sys2Proof.Machine.execAssignAddress
  repeat' (first
    | with_reducible assumption
    | with_reducible apply C.ends
    | with_reducible apply B.write)

theorem Booted.execFolioRelease (B : Booted P) {a0 : BitVec 16} {s : State} (h : P s) : Res P (Sys2Proof.Machine.execFolioRelease a0 s) := by
  have C := B.toClosed
  unfold Sys2Proof.Machine.execFolioRelease
  repeat' (first
    | with_reducible assumption
    | with_reducible apply C.ends
    | with_reducible apply B.writeNumber)

theorem Booted.execRouteSlotWrite (B : Booted P) {a0 : Fin 16384} {a1 : BitVec 64} {s : State} (h : P s) : Res P (Sys2Proof.Machine.execRouteSlotWrite a0 a1 s) := by
  have C := B.toClosed
  unfold Sys2Proof.Machine.execRouteSlotWrite
  repeat' (first
    | with_reducible assumption
    | with_reducible apply C.ends
    | with_reducible apply B.writeNumber)

theorem Booted.execMacAddStatic (B : Booted P) {a0 : BitVec 16} {a1 : BitVec 48} {a2 : BitVec 8} {s : State} (h : P s) : Res P (Sys2Proof.Machine.execMacAddStatic a0 a1 a2 s) := by
  have C := B.toClosed
  unfold Sys2Proof.Machine.execMacAddStatic
  repeat' (first
    | with_reducible assumption
    | with_reducible apply C.ends
    | with_reducible apply B.write)

theorem Booted.execMacDelete (B : Booted P) {a0 : BitVec 16} {a1 : BitVec 48} {s : State} (h : P s) : Res P (Sys2Proof.Machine.execMacDelete a0 a1 s) := by
  have C := B.toClosed
  unfold Sys2Proof.Machine.execMacDelete
  repeat' (first
    | with_reducible assumption
    | with_reducible apply C.ends
    | with_reducible apply B.write)

theorem Booted.execMacFlushDynamic (B : Booted P) {a0 : BitVec 8} {s : State} (h : P s) : Res P (Sys2Proof.Machine.execMacFlushDynamic a0 s) := by
  have C := B.toClosed
  unfold Sys2Proof.Machine.execMacFlushDynamic
  repeat' (first
    | with_reducible assumption
    | with_reducible apply C.ends
    | with_reducible apply B.write)

theorem Booted.execVlanOperation (B : Booted P) {a0 : BitVec 16} {a1 : BitVec 160} {a2 : BitVec 160} {s : State} (h : P s) : Res P (Sys2Proof.Machine.execVlanOperation a0 a1 a2 s) := by
  have C := B.toClosed
  unfold Sys2Proof.Machine.execVlanOperation
  repeat' (first
    | with_reducible assumption
    | with_reducible apply C.ends
    | with_reducible apply B.write)

theorem Booted.execPolicerWrite (B : Booted P) {a0 : PortId} {a1 : Fin 4} {a2 : Bool} {a3 : BitVec 64} {s : State} (h : P s) : Res P (Sys2Proof.Machine.execPolicerWrite a0 a1 a2 a3 s) := by
  have C := B.toClosed
  unfold Sys2Proof.Machine.execPolicerWrite
  repeat' (first
    | with_reducible assumption
    | with_reducible apply C.ends
    | with_reducible apply B.writeNumber)

theorem Booted.execShaperWrite (B : Booted P) {a0 : PortId} {a1 : Fin 8} {a2 : Bool} {a3 : BitVec 32} {s : State} (h : P s) : Res P (Sys2Proof.Machine.execShaperWrite a0 a1 a2 a3 s) := by
  have C := B.toClosed
  unfold Sys2Proof.Machine.execShaperWrite
  repeat' (first
    | with_reducible assumption
    | with_reducible apply C.ends
    | with_reducible apply B.writeNumber)

theorem Booted.execPortModeWrite (B : Booted P) {a0 : PortId} {a1 : BitVec 8} {s : State} (h : P s) : Res P (Sys2Proof.Machine.execPortModeWrite a0 a1 s) := by
  have C := B.toClosed
  unfold Sys2Proof.Machine.execPortModeWrite
  repeat' (first
    | with_reducible assumption
    | with_reducible apply C.ends
    | with_reducible apply B.writeNumber)

theorem Booted.execPoolReinitialize (B : Booted P) {s : State} (h : P s) : Res P (Sys2Proof.Machine.execPoolReinitialize s) := by
  have C := B.toClosed
  unfold Sys2Proof.Machine.execPoolReinitialize
  repeat' (first
    | with_reducible assumption
    | with_reducible apply C.ends
    | with_reducible apply B.writeNumber)

theorem Booted.execDiagAllocOnDie (B : Booted P) {s : State} (h : P s) : Res P (Sys2Proof.Machine.execDiagAllocOnDie s) := by
  have C := B.toClosed
  unfold Sys2Proof.Machine.execDiagAllocOnDie
  repeat' (first
    | with_reducible assumption
    | with_reducible apply C.ends
    | with_reducible apply B.writeNumber)

theorem Booted.execDiagAllocExternal (B : Booted P) {s : State} (h : P s) : Res P (Sys2Proof.Machine.execDiagAllocExternal s) := by
  have C := B.toClosed
  unfold Sys2Proof.Machine.execDiagAllocExternal
  repeat' (first
    | with_reducible assumption
    | with_reducible apply C.ends
    | with_reducible apply B.writeNumber)

theorem Booted.execDiagFree (B : Booted P) {a0 : BitVec 32} {s : State} (h : P s) : Res P (Sys2Proof.Machine.execDiagFree a0 s) := by
  have C := B.toClosed
  unfold Sys2Proof.Machine.execDiagFree
  repeat' (first
    | with_reducible assumption
    | with_reducible apply C.ends
    | with_reducible apply B.writeNumber)

theorem Booted.execDiagRef (B : Booted P) {a0 : BitVec 32} {a1 : BitVec 8} {s : State} (h : P s) : Res P (Sys2Proof.Machine.execDiagRef a0 a1 s) := by
  have C := B.toClosed
  unfold Sys2Proof.Machine.execDiagRef
  repeat' (first
    | with_reducible assumption
    | with_reducible apply C.ends
    | with_reducible apply B.writeNumber)

theorem Booted.execHistogramClear (B : Booted P) {s : State} (h : P s) : Res P (Sys2Proof.Machine.execHistogramClear s) := by
  have C := B.toClosed
  unfold Sys2Proof.Machine.execHistogramClear
  repeat' (first
    | with_reducible assumption
    | with_reducible apply C.ends
    | with_reducible apply B.writeNumber)

theorem Closed.execHostMemoryRead (C : Closed P) {a0 : Nat} {s : State} (h : P s) : Res P (Sys2Proof.Machine.execHostMemoryRead a0 s) := by
  unfold Sys2Proof.Machine.execHostMemoryRead
  repeat' (first
    | with_reducible assumption
    | with_reducible apply C.ends
    | with_reducible apply C.readOne
    | with_reducible apply C.noteAccess
    | with_reducible apply P_ite)

theorem Booted.execHostMemoryWrite (B : Booted P) {a0 : Bytes} {s : State} (h : P s) : Res P (Sys2Proof.Machine.execHostMemoryWrite a0 s) := by
  have C := B.toClosed
  unfold Sys2Proof.Machine.execHostMemoryWrite
  repeat' (first
    | with_reducible assumption
    | with_reducible apply C.ends
    | with_reducible apply B.write)

theorem Booted.execStagingSizeWrite (B : Booted P) {a0 : BitVec 16} {s : State} (h : P s) : Res P (Sys2Proof.Machine.execStagingSizeWrite a0 s) := by
  have C := B.toClosed
  unfold Sys2Proof.Machine.execStagingSizeWrite
  repeat' (first
    | with_reducible assumption
    | with_reducible apply C.ends
    | with_reducible apply B.writeNumber)

theorem Booted.execImageSegment (B : Booted P) {a0 : Bytes} {s : State} (h : P s) : Res P (Sys2Proof.Machine.execImageSegment a0 s) := by
  have C := B.toClosed
  unfold Sys2Proof.Machine.execImageSegment
  repeat' (first
    | with_reducible assumption
    | with_reducible apply C.ends
    | with_reducible apply B.write)

theorem Booted.execLoad (B : Booted P) {s : State} (h : P s) : Res P (Sys2Proof.Machine.execLoad s) := by
  have C := B.toClosed
  unfold Sys2Proof.Machine.execLoad
  repeat' (first
    | with_reducible assumption
    | with_reducible apply C.ends
    | with_reducible apply B.writeNumber)

theorem Booted.execDiscard (B : Booted P) {s : State} (h : P s) : Res P (Sys2Proof.Machine.execDiscard s) := by
  have C := B.toClosed
  unfold Sys2Proof.Machine.execDiscard
  repeat' (first
    | with_reducible assumption
    | with_reducible apply C.ends
    | with_reducible apply B.writeNumber)

theorem Booted.execBindingRelease (B : Booted P) {s : State} (h : P s) : Res P (Sys2Proof.Machine.execBindingRelease s) := by
  have C := B.toClosed
  unfold Sys2Proof.Machine.execBindingRelease
  repeat' (first
    | with_reducible assumption
    | with_reducible apply C.ends
    | with_reducible apply B.writeNumber)

theorem Booted.execRegionLoad (B : Booted P) {a0 : Fin 256} {a1 : BitVec 16} {s : State} (h : P s) : Res P (Sys2Proof.Machine.execRegionLoad a0 a1 s) := by
  have C := B.toClosed
  unfold Sys2Proof.Machine.execRegionLoad
  repeat' (first
    | with_reducible assumption
    | with_reducible apply C.ends
    | with_reducible apply B.writeNumber)

theorem Booted.execStopCore (B : Booted P) {a0 : CoreId} {s : State} (h : P s) : Res P (Sys2Proof.Machine.execStopCore a0 s) := by
  have C := B.toClosed
  unfold Sys2Proof.Machine.execStopCore
  repeat' (first
    | with_reducible assumption
    | with_reducible apply C.ends
    | with_reducible apply B.writeNumber)

theorem Booted.execConsumerIndex (B : Booted P) {a0 : CoreId} {a1 : BitVec 64} {s : State} (h : P s) : Res P (Sys2Proof.Machine.execConsumerIndex a0 a1 s) := by
  have C := B.toClosed
  unfold Sys2Proof.Machine.execConsumerIndex
  repeat' (first
    | with_reducible assumption
    | with_reducible apply C.ends
    | with_reducible apply B.writeNumber)

theorem Booted.execContextReset (B : Booted P) {a0 : CtxId} {s : State} (h : P s) : Res P (Sys2Proof.Machine.execContextReset a0 s) := by
  have C := B.toClosed
  unfold Sys2Proof.Machine.execContextReset
  repeat' (first
    | with_reducible assumption
    | with_reducible apply C.ends
    | with_reducible apply B.writeNumber)

theorem Booted.execContextRestart (B : Booted P) {a0 : CtxId} {a1 : BitVec 32} {s : State} (h : P s) : Res P (Sys2Proof.Machine.execContextRestart a0 a1 s) := by
  have C := B.toClosed
  unfold Sys2Proof.Machine.execContextRestart
  repeat' (first
    | with_reducible assumption
    | with_reducible apply C.ends
    | with_reducible apply B.writeNumber)

theorem Booted.execRunFail (B : Booted P) {a0 : BitVec 32} {s : State} (h : P s) : Res P (Sys2Proof.Machine.execRunFail a0 s) := by
  have C := B.toClosed
  unfold Sys2Proof.Machine.execRunFail
  repeat' (first
    | with_reducible assumption
    | with_reducible apply C.ends
    | with_reducible apply B.writeNumber)

theorem Booted.execStateCopyStart (B : Booted P) {s : State} (h : P s) : Res P (Sys2Proof.Machine.execStateCopyStart s) := by
  have C := B.toClosed
  unfold Sys2Proof.Machine.execStateCopyStart
  repeat' (first
    | with_reducible assumption
    | with_reducible apply C.ends
    | with_reducible apply B.writeNumber)

theorem Booted.execDivergenceClear (B : Booted P) {s : State} (h : P s) : Res P (Sys2Proof.Machine.execDivergenceClear s) := by
  have C := B.toClosed
  unfold Sys2Proof.Machine.execDivergenceClear
  repeat' (first
    | with_reducible assumption
    | with_reducible apply C.ends
    | with_reducible apply B.writeNumber)

theorem Booted.execSecurityLock (B : Booted P) {s : State} (h : P s) : Res P (Sys2Proof.Machine.execSecurityLock s) := by
  have C := B.toClosed
  unfold Sys2Proof.Machine.execSecurityLock
  repeat' (first
    | with_reducible assumption
    | with_reducible apply C.ends
    | with_reducible apply B.writeNumber)

theorem Booted.execFirmwareSegment (B : Booted P) {a0 : Bytes} {s : State} (h : P s) : Res P (Sys2Proof.Machine.execFirmwareSegment a0 s) := by
  have C := B.toClosed
  unfold Sys2Proof.Machine.execFirmwareSegment
  repeat' (first
    | with_reducible assumption
    | with_reducible apply C.ends
    | with_reducible apply B.write)

theorem Booted.execFirmwareBoot (B : Booted P) {s : State} (h : P s) : Res P (Sys2Proof.Machine.execFirmwareBoot s) := by
  have C := B.toClosed
  unfold Sys2Proof.Machine.execFirmwareBoot
  repeat' (first
    | with_reducible assumption
    | with_reducible apply C.ends
    | with_reducible apply B.writeNumber)

theorem Booted.execFirmwareDiscard (B : Booted P) {s : State} (h : P s) : Res P (Sys2Proof.Machine.execFirmwareDiscard s) := by
  have C := B.toClosed
  unfold Sys2Proof.Machine.execFirmwareDiscard
  repeat' (first
    | with_reducible assumption
    | with_reducible apply C.ends
    | with_reducible apply B.writeNumber)

theorem Booted.execAttestationNonce (B : Booted P) {a0 : Bytes} {s : State} (h : P s) : Res P (Sys2Proof.Machine.execAttestationNonce a0 s) := by
  have C := B.toClosed
  unfold Sys2Proof.Machine.execAttestationNonce
  repeat' (first
    | with_reducible assumption
    | with_reducible apply C.ends
    | with_reducible apply B.write)

theorem Booted.execDroopClear (B : Booted P) {s : State} (h : P s) : Res P (Sys2Proof.Machine.execDroopClear s) := by
  have C := B.toClosed
  unfold Sys2Proof.Machine.execDroopClear
  repeat' (first
    | with_reducible assumption
    | with_reducible apply C.ends
    | with_reducible apply B.writeNumber)

theorem Closed.setAttach (C : Closed P) {s : State} {a1 : Nat} {a2 : Attach} (h : P s) : P (State.setAttach s a1 a2) := by
  unfold State.setAttach
  repeat' (first
    | with_reducible assumption
    | with_reducible apply C.setPort
    | with_reducible rfl)

theorem Closed.execAttachDiscovery (C : Closed P) {a0 : PortId} {s : State} (h : P s) : Res P (Sys2Proof.Machine.execAttachDiscovery a0 s) := by
  unfold Sys2Proof.Machine.execAttachDiscovery
  repeat' (first
    | with_reducible assumption
    | with_reducible apply C.ends
    | with_reducible apply C.indexRequest
    | with_reducible apply C.setAttach
    | with_reducible apply C.enqueue
    | with_reducible apply P_ite)

theorem Closed.attachAgain (C : Closed P) {s : State} {a1 : Nat} (h : P s) : P (State.attachAgain s a1) := by
  unfold State.attachAgain
  repeat' (first
    | with_reducible assumption
    | with_reducible apply C.setAttach)

theorem Closed.attachVerified (C : Closed P) {s : State} {a1 : Nat} {a2 : List IndexRecord} (h : P s) : P (State.attachVerified s a1 a2) := by
  unfold State.attachVerified
  repeat' (first
    | with_reducible assumption
    | with_reducible apply C.setAttach
    | with_reducible apply C.idxSet
    | with_reducible apply C.attachAgain
    | with_reducible apply C.indexRequest
    | with_reducible apply C.enqueue
    | with_reducible apply P_ite
    | split)

theorem Closed.attachDone (C : Closed P) {s : State} {a1 : Nat} (h : P s) : P (State.attachDone s a1) := by
  unfold State.attachDone
  repeat' (first
    | with_reducible assumption
    | with_reducible apply C.idxSet
    | with_reducible apply C.setAttach
    | split)

theorem Closed.attachReply (C : Closed P) {s : State} {a1 : Nat} {a2 : IndexHeader} {a3 : Bytes} (h : P s) : P (State.attachReply s a1 a2 a3) := by
  unfold State.attachReply
  repeat' (first
    | with_reducible assumption
    | with_reducible apply C.setAttach
    | with_reducible apply C.attachVerified
    | with_reducible apply C.attachDone
    | with_reducible apply C.attachAgain
    | with_reducible apply P_ite)

theorem Closed.execIndexReplyReceive (C : Closed P) {s : State} (h : P s) : Res P (Sys2Proof.Machine.execIndexReplyReceive s) := by
  unfold Sys2Proof.Machine.execIndexReplyReceive
  repeat' (first
    | with_reducible assumption
    | with_reducible apply C.ends
    | with_reducible apply C.mirrorIngress
    | with_reducible apply C.enqueue
    | with_reducible apply C.noteAccess
    | with_reducible apply C.freeFrame
    | with_reducible apply C.attachReply
    | with_reducible apply P_ite
    | (fail_if_no_progress with_reducible refine C.plain ?_ rfl rfl rfl rfl rfl)
    | split)

theorem Closed.execAttachTimeout (C : Closed P) {a0 : PortId} {s : State} (h : P s) : Res P (Sys2Proof.Machine.execAttachTimeout a0 s) := by
  unfold Sys2Proof.Machine.execAttachTimeout
  repeat' (first
    | with_reducible assumption
    | with_reducible apply C.ends
    | with_reducible apply C.attachAgain
    | with_reducible apply P_ite)

theorem Closed.elapseAdmission (C : Closed P) {s : State} {a1 : Nat} (h : P s) : P (State.elapseAdmission s a1) := by
  unfold State.elapseAdmission
  repeat' (first
    | with_reducible assumption
    | with_reducible apply C.count
    | (fail_if_no_progress with_reducible refine C.plain ?_ rfl rfl rfl rfl rfl))

theorem Closed.elapse (C : Closed P) {s : State} {a1 : Nat} {a2 : Nat} (h : P s) : P (State.elapse s a1 a2) := by
  unfold State.elapse
  repeat' (first
    | with_reducible assumption
    | with_reducible apply C.elapseAdmission
    | with_reducible apply C.count
    | with_reducible apply P_ite
    | with_reducible refine P_foldl ?_ (fun _ _ _ => ?_))

theorem ClockFree.takeReading (K : ClockFree P) {s : State} {a1 : Nat} {a2 : QuireReading} (h : P s) : P (State.takeReading s a1 a2) := by
  have C := K.toClosed
  unfold State.takeReading
  repeat' (first
    | with_reducible assumption
    | with_reducible apply C.count
    | (fail_if_no_progress with_reducible refine K.clock ?_))

theorem Closed.publishTemp (C : Closed P) {s : State} {a1 : Nat} (h : P s) : P (State.publishTemp s a1) := by
  unfold State.publishTemp
  repeat' (first
    | with_reducible assumption
    | with_reducible apply C.idxSet
    | with_reducible apply P_ite)

theorem Closed.publishDroop (C : Closed P) {s : State} {a1 : Nat} {a2 : Nat} (h : P s) : P (State.publishDroop s a1 a2) := by
  unfold State.publishDroop
  repeat' (first
    | with_reducible assumption
    | with_reducible apply C.idxSet
    | with_reducible apply C.count
    | with_reducible apply P_ite)

theorem ClockFree.publish (K : ClockFree P) {s : State} {a1 : List QuireReading} (h : P s) : P (State.publish s a1) := by
  have C := K.toClosed
  unfold State.publish
  repeat' (first
    | with_reducible assumption
    | with_reducible apply C.publishDroop
    | with_reducible apply C.publishTemp
    | with_reducible apply K.takeReading
    | with_reducible refine P_foldl ?_ (fun _ _ _ => ?_)
    | (fail_if_no_progress with_reducible refine C.plain ?_ rfl rfl rfl rfl rfl)
    | split)

theorem ClockFree.throttle (K : ClockFree P) {s : State} (h : P s) : P (State.throttle s) := by
  have C := K.toClosed
  unfold State.throttle
  repeat' (first
    | with_reducible assumption
    | with_reducible apply C.idxBump
    | with_reducible apply P_ite
    | (fail_if_no_progress with_reducible refine K.clock ?_))

theorem ClockFree.execThrottleEscalate (K : ClockFree P) {s : State} (h : P s) : Res P (Sys2Proof.Machine.execThrottleEscalate s) := by
  have C := K.toClosed
  unfold Sys2Proof.Machine.execThrottleEscalate
  repeat' (first
    | with_reducible assumption
    | with_reducible apply C.ends
    | with_reducible apply P_ite
    | (fail_if_no_progress with_reducible refine K.clock ?_))

theorem ClockFree.execThrottleRelease (K : ClockFree P) {s : State} (h : P s) : Res P (Sys2Proof.Machine.execThrottleRelease s) := by
  have C := K.toClosed
  unfold Sys2Proof.Machine.execThrottleRelease
  repeat' (first
    | with_reducible assumption
    | with_reducible apply C.ends
    | with_reducible apply P_ite
    | (fail_if_no_progress with_reducible refine K.clock ?_))

theorem ClockFree.tripIfHot (K : ClockFree P) {s : State} (h : P s) : P (State.tripIfHot s) := by
  have C := K.toClosed
  unfold State.tripIfHot
  repeat' (first
    | with_reducible assumption
    | with_reducible apply C.idxSet
    | with_reducible apply C.failOwnRun
    | with_reducible apply C.drainBegin
    | (fail_if_no_progress with_reducible refine K.clock ?_)
    | split)

theorem Clocked.execSensorFailsafe (K : Clocked P) {a0 : QuireId} {s : State} (h : P s) : Res P (Sys2Proof.Machine.execSensorFailsafe a0 s) := by
  have C := K.toClosed
  unfold Sys2Proof.Machine.execSensorFailsafe
  repeat' (first
    | with_reducible assumption
    | with_reducible apply C.ends
    | with_reducible apply K.tripIfHot
    | with_reducible apply C.publishTemp
    | with_reducible apply P_ite)

theorem Closed.noticeFall (C : Closed P) {s : State} (h : P s) : P (State.noticeFall s) := by
  unfold State.noticeFall
  repeat' (first
    | with_reducible assumption
    | (fail_if_no_progress with_reducible refine C.plain ?_ rfl rfl rfl rfl rfl))

theorem Closed.cleanLinks (C : Closed P) {s : State} (h : P s) : P (State.cleanLinks s) := by
  unfold State.cleanLinks
  repeat' (first
    | with_reducible assumption
    | with_reducible apply C.setPort
    | with_reducible apply P_ite
    | with_reducible refine P_foldl ?_ (fun _ _ _ => ?_)
    | with_reducible rfl)

theorem ClockFree.beginStitch (K : ClockFree P) {s : State} (h : P s) : P (State.beginStitch s) := by
  have C := K.toClosed
  unfold State.beginStitch
  repeat' (first
    | with_reducible assumption
    | (fail_if_no_progress with_reducible refine K.clock ?_))

theorem ClockFree.nextStitch (K : ClockFree P) {s : State} (h : P s) : P (State.nextStitch s) := by
  have C := K.toClosed
  unfold State.nextStitch
  repeat' (first
    | with_reducible assumption
    | with_reducible apply K.beginStitch
    | (fail_if_no_progress with_reducible refine C.plain ?_ rfl rfl rfl rfl rfl))

theorem ClockFree.becomeAligned (K : ClockFree P) {s : State} (h : P s) : P (State.becomeAligned s) := by
  have C := K.toClosed
  unfold State.becomeAligned
  repeat' (first
    | with_reducible assumption
    | (fail_if_no_progress with_reducible refine K.clock ?_))

theorem ClockFree.boundary (K : ClockFree P) {s : State} {a1 : List QuireReading} (h : P s) : P (State.boundary s a1) := by
  have C := K.toClosed
  unfold State.boundary
  repeat' (first
    | with_reducible assumption
    | with_reducible apply C.elapse
    | with_reducible apply C.endCycle
    | with_reducible apply K.nextStitch
    | with_reducible apply K.publish
    | with_reducible apply C.cleanLinks
    | with_reducible apply C.noticeFall
    | with_reducible apply K.tripIfHot
    | with_reducible apply K.throttle
    | with_reducible apply P_ite
    | (fail_if_no_progress with_reducible refine K.clock ?_))

theorem ClockFree.execStitchBoundary (K : ClockFree P) {a0 : List QuireReading} {s : State} (h : P s) : Res P (Sys2Proof.Machine.execStitchBoundary a0 s) := by
  have C := K.toClosed
  unfold Sys2Proof.Machine.execStitchBoundary
  repeat' (first
    | with_reducible assumption
    | with_reducible apply C.ends
    | with_reducible apply K.boundary
    | with_reducible apply K.tripIfHot
    | with_reducible apply K.throttle
    | with_reducible apply K.publish
    | with_reducible apply C.cleanLinks
    | with_reducible apply K.becomeAligned
    | with_reducible apply K.nextStitch
    | (fail_if_no_progress with_reducible refine K.clock ?_)
    | split)

theorem Closed.tripCmd (C : Closed P) {s : State} {a1 : Cmd} (h : P s) : P (State.tripCmd s a1) := by
  unfold State.tripCmd
  repeat' (first
    | with_reducible assumption
    | with_reducible apply C.settleCtx
    | with_reducible apply C.setCtx
    | with_reducible apply C.itemFailed
    | with_reducible apply C.finishCmd
    | with_reducible apply P_ite
    | with_reducible refine P_foldl1 ?_ (fun _ _ _ => ?_))

theorem Closed.dropRecords (C : Closed P) {s : State} {a1 : Nat} (h : P s) : P (State.dropRecords s a1) := by
  unfold State.dropRecords
  repeat' (first
    | with_reducible assumption
    | with_reducible apply C.colophonFlag
    | with_reducible apply C.recordDone
    | with_reducible apply C.setCore
    | with_reducible apply P_ite
    | with_reducible refine P_foldl ?_ (fun _ _ _ => ?_))

theorem ClockFree.execTripClockStop (K : ClockFree P) {s : State} (h : P s) : Res P (Sys2Proof.Machine.execTripClockStop s) := by
  have C := K.toClosed
  unfold Sys2Proof.Machine.execTripClockStop
  refine P_ends C (P_ite h ?_)
  have h0 := P_foldl (g := fun s c => State.tripCmd s c) (l := s.cores.cmds.filter Cmd.started) h (fun s a hs => C.tripCmd hs)
  have h1 := P_foldl (g := fun s c => State.dropRecords (State.writeRecords s c (State.core s c).records.length) c) (l := List.range 32) h0 (fun s a hs => C.dropRecords (C.writeRecords hs))
  exact K.clock h1

theorem ClockFree.execCoreRailsRemoved (K : ClockFree P) {s : State} (h : P s) : Res P (Sys2Proof.Machine.execCoreRailsRemoved s) := by
  have C := K.toClosed
  unfold Sys2Proof.Machine.execCoreRailsRemoved
  repeat' (first
    | with_reducible assumption
    | with_reducible apply C.ends
    | with_reducible apply P_ite
    | (fail_if_no_progress with_reducible refine K.clock ?_))

theorem Closed.execIdxr (C : Closed P) {a0 : CoreId} {s : State} (h : P s) : Res P (Sys2Proof.Machine.execIdxr a0 s) := by
  unfold Sys2Proof.Machine.execIdxr
  repeat' (first
    | with_reducible assumption
    | with_reducible apply C.ends
    | with_reducible apply C.onInstr
    | with_reducible apply C.orHalt
    | with_reducible apply C.setRegGo
    | with_reducible apply C.setCore
    | with_reducible apply P_ite
    | intro _)

theorem Booted.execIdxw (B : Booted P) {a0 : CoreId} {s : State} (h : P s) : Res P (Sys2Proof.Machine.execIdxw a0 s) := by
  have C := B.toClosed
  unfold Sys2Proof.Machine.execIdxw
  repeat' (first
    | with_reducible assumption
    | with_reducible apply C.ends
    | with_reducible apply C.onInstr
    | with_reducible apply C.orHalt
    | with_reducible apply C.setRegGo
    | with_reducible apply B.applyWrite
    | intro _
    | split
    | dsimp only)

theorem Closed.execPstate (C : Closed P) {a0 : CoreId} {s : State} (h : P s) : Res P (Sys2Proof.Machine.execPstate a0 s) := by
  unfold Sys2Proof.Machine.execPstate
  refine P_ends C (C.onInstr h (fun s w hs => ?_))
  by_cases hw : wSub w ≤ 2
  · refine C.orHalt hs (fun s hs => ?_)
    dsimp only
    split
    · exact C.advance (C.request hs hw)
    · exact C.advance hs
  · obtain ⟨x, hx⟩ : ∃ x, principalHalt a0 w (reservedValue (decide (wSub w > 2)) 97) = some x := by
      rw [show decide (wSub w > 2) = true from decide_eq_true (Nat.lt_of_not_le hw)]
      unfold principalHalt controlReserved
      cases principal a0 <;> cases reservedAt w 96 96 <;> exact ⟨_, rfl⟩
    rw [hx]
    exact C.haltCore hs

end Sys2Proof.Machine
end

