-- ==== Sys2Proof/Laws/ClosedStep.lean ====
section
/-!
SUPPORT. Sys2Proof/Laws/ClosedStep.lean: the same of every command, of one FABRIC cycle and of a step.
-/
namespace Sys2Proof.Machine

set_option maxRecDepth 8000

variable {P : State → Prop}

theorem Free.exec (F : Free P) {a0 : Instr} {s : State} (h : P s) : Res P (Sys2Proof.Machine.exec a0 s) := by
  have B := F.toBooted
  have K := F.toClocked
  have C := B.toClosed
  unfold Sys2Proof.Machine.exec
  cases a0 with
  | resetAssert => exact K.execResetAssert h
  | resetRelease => exact K.execResetRelease h
  | signalDetect => exact K.execSignalDetect h
  | clockRecoveryLock cycles => exact K.execClockRecoveryLock h
  | oscillatorStable cycles => exact K.execOscillatorStable h
  | referenceLock cycles => exact K.execReferenceLock h
  | domainLock cycles => exact K.execDomainLock h
  | markerLock p lane inPlace mark => exact K.execMarkerLock h
  | stitchMarkReceive mark spacing => exact K.execStitchMarkReceive h
  | echoRequestReceive p => exact C.execEchoRequestReceive h
  | echoReplySend p => exact C.execEchoReplySend h
  | echoReplyReceive roundTrip => exact K.execEchoReplyReceive h
  | releaseBoundary cycles => exact K.execReleaseBoundary h
  | alignmentCheckEnd depthsHeld => exact K.execAlignmentCheckEnd h
  | stitchBoundary readings => exact K.execStitchBoundary h
  | throttleEscalate => exact K.execThrottleEscalate h
  | throttleRelease => exact K.execThrottleRelease h
  | sensorFailsafe q => exact K.execSensorFailsafe h
  | tripClockStop => exact K.execTripClockStop h
  | referenceLoss cause => exact K.execReferenceLoss h
  | drainComplete => exact K.execDrainComplete h
  | signalReturn => exact K.execSignalReturn h
  | linkUp p => exact K.execLinkUp h
  | linkDown p => exact K.execLinkDown h
  | uncorrectableCodeword p stitch index => exact C.execUncorrectableCodeword h
  | retryControlBlock p stitch index => exact K.execRetryControlBlock h
  | retryTimeout p => exact K.execRetryTimeout h
  | creditFrameSend p => exact C.execCreditFrameSend h
  | creditFrameReceive p body => exact K.execCreditFrameReceive h
  | frameLand p frame => exact K.execFrameLand h
  | lookup p => exact C.execLookup h
  | egressSelect p => exact C.execEgressSelect h
  | wheelSlot p => exact C.execWheelSlot h
  | frameTransmitted p => exact C.execFrameTransmitted h
  | macAging vid mac => exact C.execMacAging h
  | queueSample => exact C.execQueueSample h
  | scrubRead address => exact C.execScrubRead h
  | indexRead => exact B.execIndexRead h
  | indexWrite => exact B.execIndexWrite h
  | indexBlockRead => exact B.execIndexBlockRead h
  | indexBlockWrite => exact B.execIndexBlockWrite h
  | indexReplyReceive => exact C.execIndexReplyReceive h
  | registerWrite index sub value => exact B.execRegisterWrite h
  | assignAddress address depth manager => exact B.execAssignAddress h
  | folioRelease value => exact B.execFolioRelease h
  | attachDiscovery p => exact C.execAttachDiscovery h
  | attachTimeout p => exact C.execAttachTimeout h
  | routeSlotWrite slot value => exact B.execRouteSlotWrite h
  | macAddStatic vid mac port => exact B.execMacAddStatic h
  | macDelete vid mac => exact B.execMacDelete h
  | macFlushDynamic port => exact B.execMacFlushDynamic h
  | vlanOperation vid members untagged => exact B.execVlanOperation h
  | policerWrite p vc bursts value => exact B.execPolicerWrite h
  | shaperWrite p vc burst value => exact B.execShaperWrite h
  | portModeWrite p mode => exact B.execPortModeWrite h
  | poolReinitialize => exact B.execPoolReinitialize h
  | poolReinitDrainEnd => exact C.execPoolReinitDrainEnd h
  | diagAllocOnDie => exact B.execDiagAllocOnDie h
  | diagAllocExternal => exact B.execDiagAllocExternal h
  | diagFree handle => exact B.execDiagFree h
  | diagRef handle n => exact B.execDiagRef h
  | histogramClear => exact B.execHistogramClear h
  | hostMemoryRead length => exact C.execHostMemoryRead h
  | hostMemoryWrite data => exact B.execHostMemoryWrite h
  | stagingSizeWrite gib => exact B.execStagingSizeWrite h
  | imageSegment payload => exact B.execImageSegment h
  | load => exact B.execLoad h
  | discard => exact B.execDiscard h
  | coresStart => exact C.execCoresStart h
  | bindingRelease => exact B.execBindingRelease h
  | releaseComplete => exact C.execReleaseComplete h
  | regionLoad region overlay => exact B.execRegionLoad h
  | overlayLoadDone region => exact C.execOverlayLoadDone h
  | stopCore c => exact B.execStopCore h
  | consumerIndex c value => exact B.execConsumerIndex h
  | contextReset x => exact B.execContextReset h
  | contextRestart x value => exact B.execContextRestart h
  | runFail value => exact B.execRunFail h
  | stateCopyStart => exact B.execStateCopyStart h
  | divergenceClear => exact B.execDivergenceClear h
  | securityLock => exact B.execSecurityLock h
  | firmwareSegment payload => exact B.execFirmwareSegment h
  | firmwareBoot => exact B.execFirmwareBoot h
  | firmwareDiscard => exact B.execFirmwareDiscard h
  | bootChecksDecided => exact B.execBootChecksDecided h
  | firmwareDigestDone => exact B.execFirmwareDigestDone h
  | signatureCheckDone => exact B.execSignatureCheckDone h
  | firmwareStart => exact B.execFirmwareStart h
  | firmwareHalt reason => exact B.execFirmwareHalt h
  | attestationNonce nonce => exact B.execAttestationNonce h
  | reportReady => exact B.execReportReady h
  | droopClear => exact B.execDroopClear h
  | nop c => exact C.execNop h
  | endCore c => exact C.execEndCore h
  | jmp c => exact C.execJmp h
  | br c => exact C.execBr h
  | sop c => exact C.execSop h
  | ldi c => exact C.execLdi h
  | lds c => exact C.execLds h
  | sts c => exact C.execSts h
  | ldd c => exact C.execLdd h
  | setd c => exact C.execSetd h
  | rdq c => exact C.execRdq h
  | sync c => exact C.execSync h
  | sig c => exact C.execSig h
  | waitc c => exact C.execWaitc h
  | waitst c => exact C.execWaitst h
  | idxr c => exact C.execIdxr h
  | idxw c => exact B.execIdxw h
  | pstate c => exact C.execPstate h
  | prod c => exact C.execProd h
  | wout c => exact C.execWout h
  | vop c => exact C.execVop h
  | vred c => exact C.execVred h
  | claim c => exact C.execClaim h
  | rel c => exact C.execRel h
  | openSet c => exact C.execOpenSet h
  | pub c => exact C.execPub h
  | cstep c => exact C.execCstep h
  | csub c => exact C.execCsub h
  | copy c => exact C.execCopy h
  | fsend c => exact C.execFsend h
  | syncPointCommit c => exact C.execSyncPointCommit h
  | queueStallRelease c => exact C.execQueueStallRelease h
  | sigApply c => exact C.execSigApply h
  | commandStart u => exact C.execCommandStart h
  | noticeExpiry => exact C.execNoticeExpiry h
  | passSwap u => exact C.execPassSwap h
  | woutItem u => exact C.execWoutItem h
  | commandComplete c serial => exact C.execCommandComplete h
  | completionRecordWrite c => exact C.execCompletionRecordWrite h
  | claimGrant microBatch => exact C.execClaimGrant h
  | releaseEffect microBatch => exact C.execReleaseEffect h
  | openGrant set => exact C.execOpenGrant h
  | publishEffect set => exact C.execPublishEffect h
  | cstepStart x => exact C.execCstepStart h
  | fragmentArrive q => exact C.execFragmentArrive h
  | stepDeadline x => exact C.execStepDeadline h
  | spillRetry q => exact C.execSpillRetry h
  | leadRetry q => exact C.execLeadRetry h
  | digestSend => exact C.execDigestSend h
  | digestReceive => exact C.execDigestReceive h
  | lagExpiry core serial item => exact C.execLagExpiry h
  | streamLost => exact C.execStreamLost h
  | copyBlockSend => exact C.execCopyBlockSend h
  | copyRecordApply => exact C.execCopyRecordApply h
  | switchRecordApply => exact C.execSwitchRecordApply h
  | shadowCoresStart => exact C.execShadowCoresStart h
  | stepJudgement => exact C.execStepJudgement h
  | promotionNotice => exact C.execPromotionNotice h
  | handoverConfirmation => exact C.execHandoverConfirmation h
  | codewordLock p lane held => exact C.execCodewordLock h
  | replayArrival p stitch index => exact C.execReplayArrival h
  | illegalOpcode c => exact C.execIllegalOpcode h
  | uncorrectableInstructionFetch c => exact C.execUncorrectableInstructionFetch h
  | coreRailsRemoved => exact K.execCoreRailsRemoved h

theorem ClockFree.nextCycle (K : ClockFree P) {s : State} (h : P s) : P (State.nextCycle s) := by
  have C := K.toClosed
  unfold State.nextCycle
  repeat' (first
    | with_reducible assumption
    | (fail_if_no_progress with_reducible refine K.clock ?_))

theorem ClockFree.cyclePasses (K : ClockFree P) {s : State} (h : P s) : P (State.cyclePasses s) := by
  have C := K.toClosed
  unfold State.cyclePasses
  repeat' (first
    | with_reducible assumption
    | with_reducible apply K.nextCycle
    | with_reducible apply C.endCycle
    | with_reducible apply C.retryLanding
    | with_reducible apply C.elapse)

theorem ClockFree.tick (K : ClockFree P) {s : State} (h : P s) : P (Sys2Proof.Machine.tick s) := by
  have C := K.toClosed
  unfold Sys2Proof.Machine.tick
  repeat' (first
    | with_reducible assumption
    | with_reducible apply K.cyclePasses
    | with_reducible apply K.nextCycle
    | with_reducible apply P_ite)

/-- What says nothing about the boot state is kept by the boot checks. -/
theorem BootFree.booted (B : BootFree P) : Booted P where
  toClosed := B.toClosed
  lock h := B.boot h rfl rfl rfl rfl rfl
  bootCommand h := B.bootCommand h
  takeNonce h := B.takeNonce h
  execBootChecksDecided h := B.execBootChecksDecided h
  execFirmwareDigestDone h := B.execFirmwareDigestDone h
  execSignatureCheckDone h := B.execSignatureCheckDone h
  execFirmwareStart h := B.execFirmwareStart h
  execFirmwareHalt h := B.execFirmwareHalt h
  execReportReady h := B.execReportReady h

/-- What says nothing about pins and the clock is kept by start-up, the boundary, coasting and the trip. -/
theorem ClockFree.clocked (K : ClockFree P) : Clocked P where
  toClosed := K.toClosed
  raiseLink h := K.raiseLink h
  coast _ h := K.coast h
  afterGroup h := K.afterGroup h
  tripIfHot h := K.tripIfHot h
  tick h := K.tick h
  execResetAssert h := K.execResetAssert h
  execResetRelease h := K.execResetRelease h
  execSignalDetect h := K.execSignalDetect h
  execClockRecoveryLock h := K.execClockRecoveryLock h
  execOscillatorStable h := K.execOscillatorStable h
  execReferenceLock h := K.execReferenceLock h
  execDomainLock h := K.execDomainLock h
  execEchoReplyReceive h := K.execEchoReplyReceive h
  execReleaseBoundary h := K.execReleaseBoundary h
  execAlignmentCheckEnd h := K.execAlignmentCheckEnd h
  execReferenceLoss h := K.execReferenceLoss h
  execDrainComplete h := K.execDrainComplete h
  execSignalReturn h := K.execSignalReturn h
  execStitchMarkReceive h := K.execStitchMarkReceive h
  execThrottleEscalate h := K.execThrottleEscalate h
  execThrottleRelease h := K.execThrottleRelease h
  execStitchBoundary h := K.execStitchBoundary h
  execTripClockStop h := K.execTripClockStop h
  execCoreRailsRemoved h := K.execCoreRailsRemoved h

/-- Both together. -/
theorem Free.of (B : Booted P) (K : Clocked P) : Free P := { B, K with }

/-- A step keeps what every command and every FABRIC cycle keep. -/
theorem Free.step (F : Free P) {s : State} (h : P s) : Res P (Machine.step s) := by
  unfold Machine.step
  split
  · intro t ht
    cases ht
    exact F.tick h
  · exact F.exec (F.plain h rfl rfl rfl rfl rfl)

end Sys2Proof.Machine
end

