-- ==== Sys2Proof/Laws/FMap.lean ====
section
/-!
SUPPORT. Sys2Proof/Laws/FMap.lean: the laws of the sparse stores: reading after setting, and that setting and dropping keys keep the
canonical form.
-/
namespace Sys2Proof

variable {α : Type}

@[simp] theorem fget_nil (d : α) (k : Nat) : fget d [] k = d := rfl

theorem fwfAbove_cons [DecidableEq α] {d : α} {b : Option Nat} {a : Nat} {v : α} {t : FMap α} :
    fwfAbove d b ((a, v) :: t) = true ↔ (∀ x, b = some x → x < a) ∧ v ≠ d ∧ fwfAbove d (some a) t = true := by
  cases b <;> simp [fwfAbove, and_assoc]

theorem fwfAbove_mono [DecidableEq α] {d : α} {b b' : Option Nat} {t : FMap α} (h : fwfAbove d b t = true)
    (hb : ∀ x, b' = some x → ∃ y, b = some y ∧ x ≤ y) : fwfAbove d b' t = true := by
  cases t with
  | nil => rfl
  | cons e t =>
    obtain ⟨a, v⟩ := e
    rw [fwfAbove_cons] at h ⊢
    refine ⟨fun x hx => ?_, h.2⟩
    obtain ⟨y, hy, hxy⟩ := hb x hx
    exact Nat.lt_of_le_of_lt hxy (h.1 y hy)

/-- A key below every listed one is unlisted. -/
theorem fget_below [DecidableEq α] {d : α} {b : Nat} {t : FMap α} (h : fwfAbove d (some b) t = true) {k : Nat} (hk : k ≤ b) :
    fget d t k = d := by
  induction t generalizing b with
  | nil => rfl
  | cons e t ih =>
    obtain ⟨a, v⟩ := e
    obtain ⟨h1, _, h3⟩ := fwfAbove_cons.1 h
    have hba := h1 b rfl
    rw [fget, if_neg (by omega)]
    exact ih h3 (by omega)

theorem fwfAbove_fset [DecidableEq α] {d : α} {b : Option Nat} {m : FMap α} (h : fwfAbove d b m = true) {k : Nat} (v : α)
    (hb : ∀ x, b = some x → x < k) : fwfAbove d b (fset d m k v) = true := by
  induction m generalizing b with
  | nil =>
    unfold fset
    split
    · rfl
    · exact fwfAbove_cons.2 ⟨hb, ‹_›, rfl⟩
  | cons e t ih =>
    obtain ⟨a, x⟩ := e
    obtain ⟨h1, h2, h3⟩ := fwfAbove_cons.1 h
    unfold fset
    split
    · split
      · exact h
      · exact fwfAbove_cons.2 ⟨hb, ‹_›, fwfAbove_cons.2 ⟨fun y hy => by cases hy; assumption, h2, h3⟩⟩
    · split
      · subst_vars
        split
        · exact fwfAbove_mono h3 (fun y hy => ⟨_, rfl, Nat.le_of_lt (hb y hy)⟩)
        · exact fwfAbove_cons.2 ⟨hb, ‹_›, h3⟩
      · exact fwfAbove_cons.2 ⟨h1, h2, ih h3 (fun y hy => by cases hy; omega)⟩

/-- Setting a key keeps the canonical form. -/
theorem fwf_fset [DecidableEq α] {d : α} {m : FMap α} (h : fwf d m = true) (k : Nat) (v : α) : fwf d (fset d m k v) = true :=
  fwfAbove_fset h v (fun _ hx => by cases hx)

theorem fwfAbove_fkeep [DecidableEq α] {d : α} {b : Option Nat} {m : FMap α} (h : fwfAbove d b m = true) (p : Nat → Bool) :
    fwfAbove d b (fkeep p m) = true := by
  induction m generalizing b with
  | nil => rfl
  | cons e t ih =>
    obtain ⟨a, x⟩ := e
    obtain ⟨h1, h2, h3⟩ := fwfAbove_cons.1 h
    unfold fkeep
    rw [List.filter_cons]
    split
    · exact fwfAbove_cons.2 ⟨h1, h2, ih h3⟩
    · exact fwfAbove_mono (ih h3) (fun y hy => ⟨_, rfl, Nat.le_of_lt (h1 y hy)⟩)

/-- Dropping keys keeps the canonical form. -/
theorem fwf_fkeep [DecidableEq α] {d : α} {m : FMap α} (h : fwf d m = true) (p : Nat → Bool) : fwf d (fkeep p m) = true :=
  fwfAbove_fkeep h p

/-- Setting a key leaves every other key alone, whatever the form of the list. -/
theorem fget_fset_ne [DecidableEq α] (d : α) (m : FMap α) {k j : Nat} (v : α) (hj : j ≠ k) :
    fget d (fset d m k v) j = fget d m j := by
  induction m with
  | nil =>
    unfold fset
    split
    · rfl
    · exact if_neg (Ne.symm hj)
  | cons e t ih =>
    obtain ⟨a, x⟩ := e
    unfold fset
    split
    · split
      · rfl
      · rw [fget, if_neg (Ne.symm hj)]
    · split
      · subst_vars
        split
        · rw [fget, if_neg (Ne.symm hj)]
        · rw [fget, fget, if_neg (Ne.symm hj), if_neg (Ne.symm hj)]
      · rw [fget, fget, ih]

theorem fget_fset_above [DecidableEq α] {d : α} {b : Option Nat} {m : FMap α} (h : fwfAbove d b m = true) (k : Nat) (v : α) :
    fget d (fset d m k v) k = v := by
  induction m generalizing b with
  | nil =>
    unfold fset
    split
    · exact (Eq.symm ‹_›)
    · exact if_pos rfl
  | cons e t ih =>
    obtain ⟨a, x⟩ := e
    obtain ⟨_, _, h3⟩ := fwfAbove_cons.1 h
    unfold fset
    split
    · split
      · rw [fget, if_neg (by omega), fget_below h3 (by omega)]
        exact (Eq.symm ‹_›)
      · exact if_pos rfl
    · split
      · subst_vars
        split
        · rw [fget_below h3 (Nat.le_refl _)]
          exact (Eq.symm ‹_›)
        · exact if_pos rfl
      · rw [fget, if_neg ‹_›, ih h3]

/-- Reading what has been set, in a canonical list. -/
theorem fget_fset_self [DecidableEq α] {d : α} {m : FMap α} (h : fwf d m = true) (k : Nat) (v : α) :
    fget d (fset d m k v) k = v := fget_fset_above h k v

/-- A value that is not the default reads back from any list. -/
theorem fget_fset_listed [DecidableEq α] {d : α} (m : FMap α) (k : Nat) {v : α} (hv : v ≠ d) : fget d (fset d m k v) k = v := by
  induction m with
  | nil =>
    unfold fset
    rw [if_neg hv]
    exact if_pos rfl
  | cons e t ih =>
    obtain ⟨a, x⟩ := e
    unfold fset
    rw [if_neg hv, if_neg hv]
    split
    · exact if_pos rfl
    · split
      · exact if_pos rfl
      · rw [fget, if_neg ‹_›, ih]

/-- Reading after setting, in a canonical list. -/
theorem fget_fset [DecidableEq α] {d : α} {m : FMap α} (h : fwf d m = true) (k : Nat) (v : α) (j : Nat) :
    fget d (fset d m k v) j = if j = k then v else fget d m j := by
  split
  · subst_vars
    exact fget_fset_self h _ _
  · exact fget_fset_ne d m v ‹_›

end Sys2Proof
end

