-- ==== Sys2Proof/Laws/Index.lean ====
section
/-!
SUPPORT. Sys2Proof/Laws/Index.lean: the laws of the Index store, and reading back what stores by number were set to.
-/
namespace Sys2Proof.Machine

/-- A key below every listed one reads as the default. -/
theorem fget_unlisted {α : Type} {d : α} {m : FMap α} {k : Nat} (h : ∀ a ∈ m.map Prod.fst, k < a) : fget d m k = d := by
  induction m with
  | nil => rfl
  | cons e t ih =>
    obtain ⟨a, v⟩ := e
    have h1 : k < a := h a (by simp)
    rw [fget, if_neg (by omega)]
    exact ih (fun b hb => h b (List.mem_cons_of_mem _ hb))

/-- Reading what has been set, in any store with rising keys. -/
theorem fget_fset_sorted {α : Type} [DecidableEq α] {d : α} {m : FMap α} (h : (m.map Prod.fst).Pairwise (· < ·)) (k : Nat)
    (v : α) : fget d (fset d m k v) k = v := by
  induction m with
  | nil =>
    unfold fset
    split
    · exact (Eq.symm ‹_›)
    · exact if_pos rfl
  | cons e t ih =>
    obtain ⟨a, x⟩ := e
    rw [List.map_cons, List.pairwise_cons] at h
    unfold fset
    split
    · split
      · rw [fget, if_neg (by omega), fget_unlisted (fun b hb => Nat.lt_trans ‹_› (h.1 b hb))]
        exact (Eq.symm ‹_›)
      · exact if_pos rfl
    · split
      · subst_vars
        split
        · rw [fget_unlisted h.1]
          exact (Eq.symm ‹_›)
        · exact if_pos rfl
      · rw [fget, if_neg ‹_›, ih h.2]

/-- Entries have distinct keys. -/
theorem ikey_inj {i sub j k : Nat} (hs : sub < 256) (hk : k < 256) (h : ikey i sub = ikey j k) : i = j ∧ sub = k := by
  unfold ikey at h
  omega

/-- An entry reads what it was set to. -/
theorem State.idx_idxSet_self {s : State} (h : indexWf s.index = true) (i sub v : Nat) : (s.idxSet i sub v).idx i sub = v := by
  unfold indexWf at h
  rw [Bool.and_eq_true, decide_eq_true_eq] at h
  exact fget_fset_sorted h.1 _ _

/-- Setting an entry leaves the others alone. -/
theorem State.idx_idxSet_ne (s : State) {i sub j k : Nat} (v : Nat) (h : ikey j k ≠ ikey i sub) :
    (s.idxSet i sub v).idx j k = s.idx j k := by
  unfold State.idx State.idxSet
  have hn : ∀ d, fget d (fset (resetOf (ikey i sub)) s.index (ikey i sub) v) (ikey j k) = fget d s.index (ikey j k) := by
    intro d
    generalize resetOf (ikey i sub) = d0
    induction s.index with
    | nil =>
      unfold fset
      split
      · rfl
      · exact if_neg (Ne.symm h)
    | cons e t ih =>
      obtain ⟨a, x⟩ := e
      unfold fset
      split
      · split
        · rfl
        · rw [fget, if_neg (Ne.symm h)]
      · split
        · subst_vars
          split
          · rw [fget, if_neg (Ne.symm h)]
          · rw [fget, fget, if_neg (Ne.symm h), if_neg (Ne.symm h)]
        · rw [fget, fget, ih]
  exact hn _

/-- A port reads what it was set to. -/
theorem State.port_setPort_self {s : State} (h : fwf Port.reset s.ports = true) (p : Nat) (x : Port) : (s.setPort p x).port p = x :=
  fget_fset_self h _ _

/-- Setting a port leaves the others alone. -/
theorem State.port_setPort_ne (s : State) {p q : Nat} (x : Port) (h : q ≠ p) : (s.setPort p x).port q = s.port q :=
  fget_fset_ne _ _ _ h

/-- A context reads what it was set to. -/
theorem State.ctx_setCtx_self {s : State} (h : fwf Ctx.reset s.ctxs = true) (c : Nat) (x : Ctx) : (s.setCtx c x).ctx c = x :=
  fget_fset_self h _ _

/-- Setting a context leaves the others alone. -/
theorem State.ctx_setCtx_ne (s : State) {c k : Nat} (x : Ctx) (h : k ≠ c) : (s.setCtx c x).ctx k = s.ctx k :=
  fget_fset_ne _ _ _ h

/-- Setting a core leaves the others alone. -/
theorem State.core_setCore_ne (s : State) {c k : Nat} (x : Core) (h : k ≠ c) : (s.setCore c x).core k = s.core k :=
  fget_fset_ne _ _ _ h

/-- A core reads what it was set to, where the store of cores is canonical. -/
theorem State.core_setCore_self {s : State} (h : fwf Core.reset s.cores.cores = true) (c : Nat) (x : Core) :
    (s.setCore c x).core c = x := fget_fset_self h _ _

/-- A core that is not as at reset reads what it was set to. -/
theorem State.core_setCore_listed (s : State) (c : Nat) {x : Core} (h : x ≠ Core.reset) : (s.setCore c x).core c = x :=
  fget_fset_listed _ _ h

end Sys2Proof.Machine
end

