-- ==== Sys2Proof/Laws/Kept.lean ====
section
/-!
SUPPORT. Sys2Proof/Laws/Kept.lean: predicates that every shared operation keeps: whatever is said of the clock but for the
binding's request, of the boot state, of the trip and its pins, of the stored temperatures; that a link is down; and two such
predicates together.
-/
namespace Sys2Proof.Machine

/-- What is said of the clock, but for the binding's step request. -/
theorem closed_clock (Q : Clock → Prop) (hq : ∀ c n, Q c → Q { c with bindingReq := n }) : Closed (fun s => Q s.clock) where
  plain h _ _ _ _ _ := h
  memPlain h _ _ _ _ _ := h
  memWrite h := h
  memPattern h := h
  idxSet h := h
  idxClear h := h
  domainSet h := h
  domainKeep h := h
  setPort h _ := h
  lower h _ := h
  setCtx h := h
  noCtxs h := h
  setAcc h := h
  setRowPoison h := h
  noAcc h := h
  setLeafPattern h := h
  clearMem h := h
  request h _ := hq _ _ h

/-- What is said of the boot state. -/
theorem closed_boot (Q : Boot → Prop) : Closed (fun s => Q s.boot) where
  plain h _ _ _ _ _ := h
  memPlain h _ _ _ _ _ := h
  memWrite h := h
  memPattern h := h
  idxSet h := h
  idxClear h := h
  domainSet h := h
  domainKeep h := h
  setPort h _ := h
  lower h _ := h
  setCtx h := h
  noCtxs h := h
  setAcc h := h
  setRowPoison h := h
  noAcc h := h
  setLeafPattern h := h
  clearMem h := h
  request h _ := h

/-- What is said of the trip, its pins and the stored temperatures. -/
theorem closed_trip (Q : Bool → Bool → Bool → Bool → FMap Int → Prop) :
    Closed (fun s => Q s.power.tripped s.power.clocksStopped s.power.railsAbsent s.power.thermTripN s.power.sensors) where
  plain h h1 h2 h3 h4 h5 := by
    dsimp only
    rw [h1, h2, h3, h4, h5]
    exact h
  memPlain h _ _ _ _ _ := h
  memWrite h := h
  memPattern h := h
  idxSet h := h
  idxClear h := h
  domainSet h := h
  domainKeep h := h
  setPort h _ := h
  lower h _ := h
  setCtx h := h
  noCtxs h := h
  setAcc h := h
  setRowPoison h := h
  noAcc h := h
  setLeafPattern h := h
  clearMem h := h
  request h _ := h

/-- A link that is down stays down: only LINK_UP raises one. -/
theorem closed_down (p : Nat) : Closed (fun s => fwf Port.reset s.ports = true ∧ (s.port p).up = false) where
  plain h _ _ _ _ _ := h
  memPlain h _ _ _ _ _ := h
  memWrite h := h
  memPattern h := h
  idxSet h := h
  idxClear h := h
  domainSet h := h
  domainKeep h := h
  setPort := by
    intro s q x h hx
    refine ⟨fwf_fset h.1 _ _, ?_⟩
    by_cases e : p = q
    · subst e
      rw [State.port_setPort_self h.1, hx]
      exact h.2
    · rw [State.port_setPort_ne _ _ e]
      exact h.2
  lower := by
    intro s q x h hx
    refine ⟨fwf_fset h.1 _ _, ?_⟩
    by_cases e : p = q
    · subst e
      rw [State.port_setPort_self h.1, hx]
    · rw [State.port_setPort_ne _ _ e]
      exact h.2
  setCtx h := h
  noCtxs h := h
  setAcc h := h
  setRowPoison h := h
  noAcc h := h
  setLeafPattern h := h
  clearMem h := h
  request h _ := h

/-- Two predicates together. -/
theorem closed_and {P Q : State → Prop} (C : Closed P) (D : Closed Q) : Closed (fun s => P s ∧ Q s) where
  plain h h1 h2 h3 h4 h5 := ⟨C.plain h.1 h1 h2 h3 h4 h5, D.plain h.2 h1 h2 h3 h4 h5⟩
  memPlain h h1 h2 h3 h4 h5 := ⟨C.memPlain h.1 h1 h2 h3 h4 h5, D.memPlain h.2 h1 h2 h3 h4 h5⟩
  memWrite h := ⟨C.memWrite h.1, D.memWrite h.2⟩
  memPattern h := ⟨C.memPattern h.1, D.memPattern h.2⟩
  idxSet h := ⟨C.idxSet h.1, D.idxSet h.2⟩
  idxClear h := ⟨C.idxClear h.1, D.idxClear h.2⟩
  domainSet h := ⟨C.domainSet h.1, D.domainSet h.2⟩
  domainKeep h := ⟨C.domainKeep h.1, D.domainKeep h.2⟩
  setPort h hx := ⟨C.setPort h.1 hx, D.setPort h.2 hx⟩
  lower h hx := ⟨C.lower h.1 hx, D.lower h.2 hx⟩
  setCtx h := ⟨C.setCtx h.1, D.setCtx h.2⟩
  noCtxs h := ⟨C.noCtxs h.1, D.noCtxs h.2⟩
  setAcc h := ⟨C.setAcc h.1, D.setAcc h.2⟩
  setRowPoison h := ⟨C.setRowPoison h.1, D.setRowPoison h.2⟩
  noAcc h := ⟨C.noAcc h.1, D.noAcc h.2⟩
  setLeafPattern h := ⟨C.setLeafPattern h.1, D.setLeafPattern h.2⟩
  clearMem h := ⟨C.clearMem h.1, D.clearMem h.2⟩
  request h hn := ⟨C.request h.1 hn, D.request h.2 hn⟩

end Sys2Proof.Machine
end

