-- ==== Sys2Proof/Laws/Memory.lean ====
section
/-!
SUPPORT. Sys2Proof/Laws/Memory.lean: every operation on memory keeps its canonical form.
-/
namespace Sys2Proof.Machine

theorem memoryWf_iff {m : Memory} : Memory.wf m = true ↔ fwf 0 m.cells = true ∧ fwf 0 m.errors = true ∧
    fwf 0 m.leafErrors = true ∧ fwf 0x400000000 m.accumulators = true ∧ fwf false m.poison = true := by
  unfold Sys2Proof.Memory.wf
  simp only [Bool.and_eq_true, and_assoc]

/-- Writing a byte keeps the canonical form. -/
theorem Memory.wf_setByte {m : Memory} (h : Memory.wf m = true) (a : Nat) (b : Byte) : Memory.wf (m.setByte a b) = true := by
  rw [memoryWf_iff] at h ⊢
  exact ⟨fwf_fset h.1 _ _, h.2⟩

/-- Writing bytes keeps the canonical form. -/
theorem Memory.wf_setBytes {m : Memory} (h : Memory.wf m = true) (a : Nat) (bs : Bytes) : Memory.wf (m.setBytes a bs) = true := by
  induction bs generalizing m a with
  | nil => exact h
  | cons b bs ih => exact ih (Memory.wf_setByte h a b) (a + 1)

/-- Setting an error pattern keeps the canonical form. -/
theorem Memory.wf_setPattern {m : Memory} (h : Memory.wf m = true) (w p : Nat) : Memory.wf (m.setPattern w p) = true := by
  rw [memoryWf_iff] at h ⊢
  exact ⟨h.1, fwf_fset h.2.1 _ _, h.2.2⟩

/-- The canonical form of memory is closed under the primitive updates, hence (ClosedCore to ClosedStep) kept by every
operation. -/
theorem memoryWf_closed : Closed (fun s => Memory.wf s.mem = true) where
  plain h _ _ _ _ _ := h
  memPlain h h1 h2 h3 h4 h5 := by
    rw [memoryWf_iff] at h ⊢
    simpa only [h1, h2, h3, h4, h5] using h
  memWrite h := Memory.wf_setPattern (Memory.wf_setBytes h _ _) _ _
  memPattern h := Memory.wf_setPattern h _ _
  idxSet h := h
  idxClear h := h
  domainSet h := h
  domainKeep h := h
  setPort h _ := h
  lower h _ := h
  setCtx h := h
  noCtxs h := h
  setAcc h := by
    rw [memoryWf_iff] at h ⊢
    exact ⟨h.1, h.2.1, h.2.2.1, fwf_fset h.2.2.2.1 _ _, h.2.2.2.2⟩
  setRowPoison h := by
    rw [memoryWf_iff] at h ⊢
    exact ⟨h.1, h.2.1, h.2.2.1, h.2.2.2.1, fwf_fset h.2.2.2.2 _ _⟩
  noAcc h := by
    rw [memoryWf_iff] at h ⊢
    exact ⟨h.1, h.2.1, h.2.2.1, rfl, rfl⟩
  setLeafPattern h := by
    rw [memoryWf_iff] at h ⊢
    exact ⟨h.1, h.2.1, fwf_fset h.2.2.1 _ _, h.2.2.2⟩
  clearMem h := by
    rw [memoryWf_iff] at h ⊢
    unfold State.clearMem
    dsimp only
    exact ⟨fwf_fkeep h.1 _, fwf_fkeep h.2.1 _, h.2.2⟩
  request h _ := h

/-- Every store to memory keeps its canonical form. -/
theorem memoryWf_writeMem {s : State} (h : Memory.wf s.mem = true) (a : Nat) (data : Bytes) (unit : Nat) :
    Memory.wf (s.writeMem a data unit).mem = true := memoryWf_closed.writeMem h

/-- Clearing a span keeps the canonical form. -/
theorem memoryWf_clearMem {s : State} (h : Memory.wf s.mem = true) (a n : Nat) : Memory.wf (s.clearMem a n).mem = true :=
  memoryWf_closed.clearMem h

/-- Poisoning a span keeps the canonical form. -/
theorem memoryWf_poisonMem {s : State} (h : Memory.wf s.mem = true) (a n : Nat) : Memory.wf (s.poisonMem a n).mem = true :=
  memoryWf_closed.poisonMem h

end Sys2Proof.Machine
end

