-- ==== Sys2Proof/WellFormed.lean ====
section
/-!
DEFINITION. Sys2Proof/WellFormed.lean: the bounds on a command's operands that its types do not already say.
-/
namespace Sys2Proof

/-- One quire's reading has sixteen conversions within the sensor's 16-bit form and a 16-bit voltage (R428). -/
def QuireReading.wellFormed (r : QuireReading) : Bool :=
  r.temps.length == 16 &&
    r.temps.all (fun t => match t with
      | none => true
      | some x => decide (-32768 ≤ x) && decide (x ≤ 32767)) &&
    decide (r.droop < 65536)

/-- A duration of a start-up phase fits its 32-bit field of the start-up record (Table 16.6). -/
def cyclesFit (n : Nat) : Bool := decide (n < 2 ^ 32)

/-- What no operand of a command may be. -/
def Instr.wellFormed : Instr → Bool
  | .clockRecoveryLock n => cyclesFit n
  | .oscillatorStable n => cyclesFit n
  | .referenceLock n => cyclesFit n
  | .domainLock n => cyclesFit n
  | .releaseBoundary n => cyclesFit n
  | .echoReplyReceive t => decide (96 ≤ t) && cyclesFit t
  | .stitchBoundary rs => rs.length == 4 && rs.all QuireReading.wellFormed
  | .uncorrectableCodeword _ _ i => decide (i < 400)
  | .retryControlBlock _ _ i => decide (i < 400)
  | .replayArrival _ _ i => decide (i < 400)
  | .frameLand _ f => decide (f.length ≤ 65535)
  | .scrubRead a => a % 16 == 0 && decide (a < 2 ^ 49)
  | .hostMemoryRead n => decide (n < 65536)
  | .hostMemoryWrite d => decide (d.length ≤ 9176)
  | .registerWrite _ _ v => decide (v.length ≤ 9176)
  | .imageSegment d => decide (d.length ≤ 9176)
  | .firmwareSegment d => decide (d.length ≤ 9176)
  | .attestationNonce d => decide (d.length ≤ 9176)
  | .firmwareHalt r => decide (1 ≤ r.toNat) && decide (r.toNat ≤ 0x0E)
  | .diagRef _ n => decide (1 ≤ n.toNat)
  | _ => true

end Sys2Proof
end

