-- ==== Sys2Proof/Laws/PerInstr.lean ====
section
/-!
SUPPORT. Sys2Proof/Laws/PerInstr.lean: what well-formedness says of each command's operands, one lemma a command.
-/
namespace Sys2Proof.Laws.F

/-- The bytes a command brings along: a frame, a value, a segment, a nonce. -/
def payload : Instr → Bytes
  | .frameLand _ f => f
  | .registerWrite _ _ v => v
  | .hostMemoryWrite d => d
  | .imageSegment d => d
  | .firmwareSegment d => d
  | .attestationNonce d => d
  | _ => []

/-- The durations and lengths a command carries as numbers. -/
def amounts : Instr → List Nat
  | .clockRecoveryLock n => [n]
  | .oscillatorStable n => [n]
  | .referenceLock n => [n]
  | .domainLock n => [n]
  | .releaseBoundary n => [n]
  | .echoReplyReceive n => [n]
  | .hostMemoryRead n => [n]
  | .uncorrectableCodeword _ _ i => [i]
  | .retryControlBlock _ _ i => [i]
  | .replayArrival _ _ i => [i]
  | _ => []

/-- A well-formed command brings at most 65,535 bytes, and each number it carries fits 32 bits. -/
def Statement (i : Instr) : Prop :=
  i.wellFormed = true → (payload i).length ≤ 65535 ∧ ∀ n ∈ amounts i, n < 2 ^ 32

/-- The commands that carry neither bytes nor a number are within the bounds. -/
theorem of_plain {i : Instr} (hp : payload i = []) (ha : amounts i = []) : Statement i := by
  intro _
  simp [hp, ha]

/-- A command whose bytes are bounded and that carries no number. -/
theorem of_payload {i : Instr} (h : i.wellFormed = true → (payload i).length ≤ 65535) (ha : amounts i = []) :
    Statement i := fun w => ⟨h w, by simp [ha]⟩

/-- A command that carries one bounded number and no bytes. -/
theorem of_amount {i : Instr} {n : Nat} (hp : payload i = []) (ha : amounts i = [n])
    (h : i.wellFormed = true → n < 2 ^ 32) : Statement i := fun w => ⟨by simp [hp], by simpa [ha] using h w⟩

theorem resetAssert : Statement .resetAssert := of_plain rfl rfl
theorem resetRelease : Statement .resetRelease := of_plain rfl rfl
theorem signalDetect : Statement .signalDetect := of_plain rfl rfl
theorem clockRecoveryLock (cycles : Nat) : Statement (.clockRecoveryLock cycles) :=
  of_amount rfl rfl (fun w => by simpa [Instr.wellFormed, cyclesFit] using w)
theorem oscillatorStable (cycles : Nat) : Statement (.oscillatorStable cycles) :=
  of_amount rfl rfl (fun w => by simpa [Instr.wellFormed, cyclesFit] using w)
theorem referenceLock (cycles : Nat) : Statement (.referenceLock cycles) :=
  of_amount rfl rfl (fun w => by simpa [Instr.wellFormed, cyclesFit] using w)
theorem domainLock (cycles : Nat) : Statement (.domainLock cycles) :=
  of_amount rfl rfl (fun w => by simpa [Instr.wellFormed, cyclesFit] using w)
theorem markerLock (p : PortId) (lane : Fin 4) (inPlace : Bool) (mark : BitVec 96) : Statement (.markerLock p lane inPlace mark) := of_plain rfl rfl
theorem stitchMarkReceive (mark : BitVec 96) (spacing : Nat) : Statement (.stitchMarkReceive mark spacing) := of_plain rfl rfl
theorem echoRequestReceive (p : PortId) : Statement (.echoRequestReceive p) := of_plain rfl rfl
theorem echoReplySend (p : PortId) : Statement (.echoReplySend p) := of_plain rfl rfl
theorem echoReplyReceive (roundTrip : Nat) : Statement (.echoReplyReceive roundTrip) :=
  of_amount rfl rfl (fun w => by simp [Instr.wellFormed, cyclesFit] at w; omega)
theorem releaseBoundary (cycles : Nat) : Statement (.releaseBoundary cycles) :=
  of_amount rfl rfl (fun w => by simpa [Instr.wellFormed, cyclesFit] using w)
theorem alignmentCheckEnd (depthsHeld : Bool) : Statement (.alignmentCheckEnd depthsHeld) := of_plain rfl rfl
theorem stitchBoundary (readings : List QuireReading) : Statement (.stitchBoundary readings) := of_plain rfl rfl
theorem throttleEscalate : Statement .throttleEscalate := of_plain rfl rfl
theorem throttleRelease : Statement .throttleRelease := of_plain rfl rfl
theorem sensorFailsafe (q : QuireId) : Statement (.sensorFailsafe q) := of_plain rfl rfl
theorem tripClockStop : Statement .tripClockStop := of_plain rfl rfl
theorem referenceLoss (cause : LossCause) : Statement (.referenceLoss cause) := of_plain rfl rfl
theorem drainComplete : Statement .drainComplete := of_plain rfl rfl
theorem signalReturn : Statement .signalReturn := of_plain rfl rfl
theorem linkUp (p : PortId) : Statement (.linkUp p) := of_plain rfl rfl
theorem linkDown (p : PortId) : Statement (.linkDown p) := of_plain rfl rfl
theorem uncorrectableCodeword (p : PortId) (stitch : BitVec 32) (index : Nat) : Statement (.uncorrectableCodeword p stitch index) :=
  of_amount rfl rfl (fun w => by simp [Instr.wellFormed] at w; omega)
theorem retryControlBlock (p : PortId) (stitch : BitVec 32) (index : Nat) : Statement (.retryControlBlock p stitch index) :=
  of_amount rfl rfl (fun w => by simp [Instr.wellFormed] at w; omega)
theorem retryTimeout (p : PortId) : Statement (.retryTimeout p) := of_plain rfl rfl
theorem creditFrameSend (p : PortId) : Statement (.creditFrameSend p) := of_plain rfl rfl
theorem creditFrameReceive (p : PortId) (body : BitVec 256) : Statement (.creditFrameReceive p body) := of_plain rfl rfl
theorem frameLand (p : PortId) (frame : Bytes) : Statement (.frameLand p frame) :=
  of_payload (fun w => by simp [Instr.wellFormed] at w; simp only [Laws.F.payload]; omega) rfl
theorem lookup (p : PortId) : Statement (.lookup p) := of_plain rfl rfl
theorem egressSelect (p : PortId) : Statement (.egressSelect p) := of_plain rfl rfl
theorem wheelSlot (p : PortId) : Statement (.wheelSlot p) := of_plain rfl rfl
theorem frameTransmitted (p : PortId) : Statement (.frameTransmitted p) := of_plain rfl rfl
theorem macAging (vid : BitVec 12) (mac : BitVec 48) : Statement (.macAging vid mac) := of_plain rfl rfl
theorem queueSample : Statement .queueSample := of_plain rfl rfl
theorem scrubRead (address : Nat) : Statement (.scrubRead address) := of_plain rfl rfl
theorem indexRead : Statement .indexRead := of_plain rfl rfl
theorem indexWrite : Statement .indexWrite := of_plain rfl rfl
theorem indexBlockRead : Statement .indexBlockRead := of_plain rfl rfl
theorem indexBlockWrite : Statement .indexBlockWrite := of_plain rfl rfl
theorem indexReplyReceive : Statement .indexReplyReceive := of_plain rfl rfl
theorem registerWrite (index : BitVec 16) (sub : BitVec 8) (value : Bytes) : Statement (.registerWrite index sub value) :=
  of_payload (fun w => by simp [Instr.wellFormed] at w; simp only [Laws.F.payload]; omega) rfl
theorem assignAddress (address : BitVec 16) (depth : BitVec 8) (manager : BitVec 16) : Statement (.assignAddress address depth manager) := of_plain rfl rfl
theorem folioRelease (value : BitVec 16) : Statement (.folioRelease value) := of_plain rfl rfl
theorem attachDiscovery (p : PortId) : Statement (.attachDiscovery p) := of_plain rfl rfl
theorem attachTimeout (p : PortId) : Statement (.attachTimeout p) := of_plain rfl rfl
theorem routeSlotWrite (slot : Fin 16384) (value : BitVec 64) : Statement (.routeSlotWrite slot value) := of_plain rfl rfl
theorem macAddStatic (vid : BitVec 16) (mac : BitVec 48) (port : BitVec 8) : Statement (.macAddStatic vid mac port) := of_plain rfl rfl
theorem macDelete (vid : BitVec 16) (mac : BitVec 48) : Statement (.macDelete vid mac) := of_plain rfl rfl
theorem macFlushDynamic (port : BitVec 8) : Statement (.macFlushDynamic port) := of_plain rfl rfl
theorem vlanOperation (vid : BitVec 16) (members untagged : BitVec 160) : Statement (.vlanOperation vid members untagged) := of_plain rfl rfl
theorem policerWrite (p : PortId) (vc : Fin 4) (bursts : Bool) (value : BitVec 64) : Statement (.policerWrite p vc bursts value) := of_plain rfl rfl
theorem shaperWrite (p : PortId) (vc : Fin 8) (burst : Bool) (value : BitVec 32) : Statement (.shaperWrite p vc burst value) := of_plain rfl rfl
theorem portModeWrite (p : PortId) (mode : BitVec 8) : Statement (.portModeWrite p mode) := of_plain rfl rfl
theorem poolReinitialize : Statement .poolReinitialize := of_plain rfl rfl
theorem poolReinitDrainEnd : Statement .poolReinitDrainEnd := of_plain rfl rfl
theorem diagAllocOnDie : Statement .diagAllocOnDie := of_plain rfl rfl
theorem diagAllocExternal : Statement .diagAllocExternal := of_plain rfl rfl
theorem diagFree (handle : BitVec 32) : Statement (.diagFree handle) := of_plain rfl rfl
theorem diagRef (handle : BitVec 32) (n : BitVec 8) : Statement (.diagRef handle n) := of_plain rfl rfl
theorem histogramClear : Statement .histogramClear := of_plain rfl rfl
theorem hostMemoryRead (length : Nat) : Statement (.hostMemoryRead length) :=
  of_amount rfl rfl (fun w => by simp [Instr.wellFormed] at w; omega)
theorem hostMemoryWrite (data : Bytes) : Statement (.hostMemoryWrite data) :=
  of_payload (fun w => by simp [Instr.wellFormed] at w; simp only [Laws.F.payload]; omega) rfl
theorem stagingSizeWrite (gib : BitVec 16) : Statement (.stagingSizeWrite gib) := of_plain rfl rfl
theorem imageSegment (payload : Bytes) : Statement (.imageSegment payload) :=
  of_payload (fun w => by simp [Instr.wellFormed] at w; simp only [Laws.F.payload]; omega) rfl
theorem load : Statement .load := of_plain rfl rfl
theorem discard : Statement .discard := of_plain rfl rfl
theorem coresStart : Statement .coresStart := of_plain rfl rfl
theorem bindingRelease : Statement .bindingRelease := of_plain rfl rfl
theorem releaseComplete : Statement .releaseComplete := of_plain rfl rfl
theorem regionLoad (region : Fin 256) (overlay : BitVec 16) : Statement (.regionLoad region overlay) := of_plain rfl rfl
theorem overlayLoadDone (region : Fin 256) : Statement (.overlayLoadDone region) := of_plain rfl rfl
theorem stopCore (c : CoreId) : Statement (.stopCore c) := of_plain rfl rfl
theorem consumerIndex (c : CoreId) (value : BitVec 64) : Statement (.consumerIndex c value) := of_plain rfl rfl
theorem contextReset (x : CtxId) : Statement (.contextReset x) := of_plain rfl rfl
theorem contextRestart (x : CtxId) (value : BitVec 32) : Statement (.contextRestart x value) := of_plain rfl rfl
theorem runFail (value : BitVec 32) : Statement (.runFail value) := of_plain rfl rfl
theorem stateCopyStart : Statement .stateCopyStart := of_plain rfl rfl
theorem divergenceClear : Statement .divergenceClear := of_plain rfl rfl
theorem securityLock : Statement .securityLock := of_plain rfl rfl
theorem firmwareSegment (payload : Bytes) : Statement (.firmwareSegment payload) :=
  of_payload (fun w => by simp [Instr.wellFormed] at w; simp only [Laws.F.payload]; omega) rfl
theorem firmwareBoot : Statement .firmwareBoot := of_plain rfl rfl
theorem firmwareDiscard : Statement .firmwareDiscard := of_plain rfl rfl
theorem bootChecksDecided : Statement .bootChecksDecided := of_plain rfl rfl
theorem firmwareDigestDone : Statement .firmwareDigestDone := of_plain rfl rfl
theorem signatureCheckDone : Statement .signatureCheckDone := of_plain rfl rfl
theorem firmwareStart : Statement .firmwareStart := of_plain rfl rfl
theorem firmwareHalt (reason : BitVec 8) : Statement (.firmwareHalt reason) := of_plain rfl rfl
theorem attestationNonce (nonce : Bytes) : Statement (.attestationNonce nonce) :=
  of_payload (fun w => by simp [Instr.wellFormed] at w; simp only [Laws.F.payload]; omega) rfl
theorem reportReady : Statement .reportReady := of_plain rfl rfl
theorem droopClear : Statement .droopClear := of_plain rfl rfl
theorem nop (c : CoreId) : Statement (.nop c) := of_plain rfl rfl
theorem endCore (c : CoreId) : Statement (.endCore c) := of_plain rfl rfl
theorem jmp (c : CoreId) : Statement (.jmp c) := of_plain rfl rfl
theorem br (c : CoreId) : Statement (.br c) := of_plain rfl rfl
theorem sop (c : CoreId) : Statement (.sop c) := of_plain rfl rfl
theorem ldi (c : CoreId) : Statement (.ldi c) := of_plain rfl rfl
theorem lds (c : CoreId) : Statement (.lds c) := of_plain rfl rfl
theorem sts (c : CoreId) : Statement (.sts c) := of_plain rfl rfl
theorem ldd (c : CoreId) : Statement (.ldd c) := of_plain rfl rfl
theorem setd (c : CoreId) : Statement (.setd c) := of_plain rfl rfl
theorem rdq (c : CoreId) : Statement (.rdq c) := of_plain rfl rfl
theorem sync (c : CoreId) : Statement (.sync c) := of_plain rfl rfl
theorem sig (c : CoreId) : Statement (.sig c) := of_plain rfl rfl
theorem waitc (c : CoreId) : Statement (.waitc c) := of_plain rfl rfl
theorem waitst (c : CoreId) : Statement (.waitst c) := of_plain rfl rfl
theorem idxr (c : CoreId) : Statement (.idxr c) := of_plain rfl rfl
theorem idxw (c : CoreId) : Statement (.idxw c) := of_plain rfl rfl
theorem pstate (c : CoreId) : Statement (.pstate c) := of_plain rfl rfl
theorem prod (c : CoreId) : Statement (.prod c) := of_plain rfl rfl
theorem wout (c : CoreId) : Statement (.wout c) := of_plain rfl rfl
theorem vop (c : CoreId) : Statement (.vop c) := of_plain rfl rfl
theorem vred (c : CoreId) : Statement (.vred c) := of_plain rfl rfl
theorem claim (c : CoreId) : Statement (.claim c) := of_plain rfl rfl
theorem rel (c : CoreId) : Statement (.rel c) := of_plain rfl rfl
theorem openSet (c : CoreId) : Statement (.openSet c) := of_plain rfl rfl
theorem pub (c : CoreId) : Statement (.pub c) := of_plain rfl rfl
theorem cstep (c : CoreId) : Statement (.cstep c) := of_plain rfl rfl
theorem csub (c : CoreId) : Statement (.csub c) := of_plain rfl rfl
theorem copy (c : CoreId) : Statement (.copy c) := of_plain rfl rfl
theorem fsend (c : CoreId) : Statement (.fsend c) := of_plain rfl rfl
theorem syncPointCommit (c : CoreId) : Statement (.syncPointCommit c) := of_plain rfl rfl
theorem queueStallRelease (c : CoreId) : Statement (.queueStallRelease c) := of_plain rfl rfl
theorem sigApply (c : CoreId) : Statement (.sigApply c) := of_plain rfl rfl
theorem commandStart (u : BitVec 8) : Statement (.commandStart u) := of_plain rfl rfl
theorem noticeExpiry : Statement .noticeExpiry := of_plain rfl rfl
theorem passSwap (u : BitVec 8) : Statement (.passSwap u) := of_plain rfl rfl
theorem woutItem (u : BitVec 8) : Statement (.woutItem u) := of_plain rfl rfl
theorem commandComplete (c : CoreId) (serial : BitVec 32) : Statement (.commandComplete c serial) := of_plain rfl rfl
theorem completionRecordWrite (c : CoreId) : Statement (.completionRecordWrite c) := of_plain rfl rfl
theorem claimGrant (microBatch : BitVec 32) : Statement (.claimGrant microBatch) := of_plain rfl rfl
theorem releaseEffect (microBatch : BitVec 32) : Statement (.releaseEffect microBatch) := of_plain rfl rfl
theorem openGrant (set : BitVec 8) : Statement (.openGrant set) := of_plain rfl rfl
theorem publishEffect (set : BitVec 8) : Statement (.publishEffect set) := of_plain rfl rfl
theorem cstepStart (x : CtxId) : Statement (.cstepStart x) := of_plain rfl rfl
theorem fragmentArrive (q : QuireId) : Statement (.fragmentArrive q) := of_plain rfl rfl
theorem stepDeadline (x : CtxId) : Statement (.stepDeadline x) := of_plain rfl rfl
theorem spillRetry (q : QuireId) : Statement (.spillRetry q) := of_plain rfl rfl
theorem leadRetry (q : QuireId) : Statement (.leadRetry q) := of_plain rfl rfl
theorem digestSend : Statement .digestSend := of_plain rfl rfl
theorem digestReceive : Statement .digestReceive := of_plain rfl rfl
theorem lagExpiry (core : CoreId) (serial item : BitVec 32) : Statement (.lagExpiry core serial item) := of_plain rfl rfl
theorem streamLost : Statement .streamLost := of_plain rfl rfl
theorem copyBlockSend : Statement .copyBlockSend := of_plain rfl rfl
theorem copyRecordApply : Statement .copyRecordApply := of_plain rfl rfl
theorem switchRecordApply : Statement .switchRecordApply := of_plain rfl rfl
theorem shadowCoresStart : Statement .shadowCoresStart := of_plain rfl rfl
theorem stepJudgement : Statement .stepJudgement := of_plain rfl rfl
theorem promotionNotice : Statement .promotionNotice := of_plain rfl rfl
theorem handoverConfirmation : Statement .handoverConfirmation := of_plain rfl rfl
theorem codewordLock (p : PortId) (lane : Fin 4) (held : Bool) : Statement (.codewordLock p lane held) := of_plain rfl rfl
theorem replayArrival (p : PortId) (stitch : BitVec 32) (index : Nat) : Statement (.replayArrival p stitch index) :=
  of_amount rfl rfl (fun w => by simp [Instr.wellFormed] at w; omega)
theorem illegalOpcode (c : CoreId) : Statement (.illegalOpcode c) := of_plain rfl rfl
theorem uncorrectableInstructionFetch (c : CoreId) : Statement (.uncorrectableInstructionFetch c) := of_plain rfl rfl
theorem coreRailsRemoved : Statement .coreRailsRemoved := of_plain rfl rfl

end Sys2Proof.Laws.F
end

