-- ==== Sys2Proof/Laws/State.lean ====
section
/-!
SUPPORT. Sys2Proof/Laws/State.lean: what each update of the state leaves alone, one lemma per field and update.
-/
namespace Sys2Proof.Machine

@[simp] theorem State.idxSet_pending (s : State) (i sub v : Nat) : (s.idxSet i sub v).pending = s.pending := rfl
@[simp] theorem State.idxSet_freshCount (s : State) (i sub v : Nat) : (s.idxSet i sub v).freshCount = s.freshCount := rfl
@[simp] theorem State.idxSet_lastStatus (s : State) (i sub v : Nat) : (s.idxSet i sub v).lastStatus = s.lastStatus := rfl
@[simp] theorem State.idxSet_lastData (s : State) (i sub v : Nat) : (s.idxSet i sub v).lastData = s.lastData := rfl
@[simp] theorem State.idxSet_dev (s : State) (i sub v : Nat) : (s.idxSet i sub v).dev = s.dev := rfl
@[simp] theorem State.idxSet_domains (s : State) (i sub v : Nat) : (s.idxSet i sub v).domains = s.domains := rfl
@[simp] theorem State.idxSet_clock (s : State) (i sub v : Nat) : (s.idxSet i sub v).clock = s.clock := rfl
@[simp] theorem State.idxSet_power (s : State) (i sub v : Nat) : (s.idxSet i sub v).power = s.power := rfl
@[simp] theorem State.idxSet_ports (s : State) (i sub v : Nat) : (s.idxSet i sub v).ports = s.ports := rfl
@[simp] theorem State.idxSet_switch (s : State) (i sub v : Nat) : (s.idxSet i sub v).switch = s.switch := rfl
@[simp] theorem State.idxSet_mem (s : State) (i sub v : Nat) : (s.idxSet i sub v).mem = s.mem := rfl
@[simp] theorem State.idxSet_cores (s : State) (i sub v : Nat) : (s.idxSet i sub v).cores = s.cores := rfl
@[simp] theorem State.idxSet_stash (s : State) (i sub v : Nat) : (s.idxSet i sub v).stash = s.stash := rfl
@[simp] theorem State.idxSet_binding (s : State) (i sub v : Nat) : (s.idxSet i sub v).binding = s.binding := rfl
@[simp] theorem State.idxSet_ctxs (s : State) (i sub v : Nat) : (s.idxSet i sub v).ctxs = s.ctxs := rfl
@[simp] theorem State.idxSet_marks (s : State) (i sub v : Nat) : (s.idxSet i sub v).marks = s.marks := rfl
@[simp] theorem State.idxSet_proof (s : State) (i sub v : Nat) : (s.idxSet i sub v).proof = s.proof := rfl
@[simp] theorem State.idxSet_boot (s : State) (i sub v : Nat) : (s.idxSet i sub v).boot = s.boot := rfl

@[simp] theorem State.idxClear_pending (s : State) (p : Nat → Bool) : (s.idxClear p).pending = s.pending := rfl
@[simp] theorem State.idxClear_freshCount (s : State) (p : Nat → Bool) : (s.idxClear p).freshCount = s.freshCount := rfl
@[simp] theorem State.idxClear_lastStatus (s : State) (p : Nat → Bool) : (s.idxClear p).lastStatus = s.lastStatus := rfl
@[simp] theorem State.idxClear_lastData (s : State) (p : Nat → Bool) : (s.idxClear p).lastData = s.lastData := rfl
@[simp] theorem State.idxClear_dev (s : State) (p : Nat → Bool) : (s.idxClear p).dev = s.dev := rfl
@[simp] theorem State.idxClear_domains (s : State) (p : Nat → Bool) : (s.idxClear p).domains = s.domains := rfl
@[simp] theorem State.idxClear_clock (s : State) (p : Nat → Bool) : (s.idxClear p).clock = s.clock := rfl
@[simp] theorem State.idxClear_power (s : State) (p : Nat → Bool) : (s.idxClear p).power = s.power := rfl
@[simp] theorem State.idxClear_ports (s : State) (p : Nat → Bool) : (s.idxClear p).ports = s.ports := rfl
@[simp] theorem State.idxClear_switch (s : State) (p : Nat → Bool) : (s.idxClear p).switch = s.switch := rfl
@[simp] theorem State.idxClear_mem (s : State) (p : Nat → Bool) : (s.idxClear p).mem = s.mem := rfl
@[simp] theorem State.idxClear_cores (s : State) (p : Nat → Bool) : (s.idxClear p).cores = s.cores := rfl
@[simp] theorem State.idxClear_stash (s : State) (p : Nat → Bool) : (s.idxClear p).stash = s.stash := rfl
@[simp] theorem State.idxClear_binding (s : State) (p : Nat → Bool) : (s.idxClear p).binding = s.binding := rfl
@[simp] theorem State.idxClear_ctxs (s : State) (p : Nat → Bool) : (s.idxClear p).ctxs = s.ctxs := rfl
@[simp] theorem State.idxClear_marks (s : State) (p : Nat → Bool) : (s.idxClear p).marks = s.marks := rfl
@[simp] theorem State.idxClear_proof (s : State) (p : Nat → Bool) : (s.idxClear p).proof = s.proof := rfl
@[simp] theorem State.idxClear_boot (s : State) (p : Nat → Bool) : (s.idxClear p).boot = s.boot := rfl

@[simp] theorem State.domainSet_pending (s : State) (i sub : Nat) (b : Bytes) : (s.domainSet i sub b).pending = s.pending := rfl
@[simp] theorem State.domainSet_freshCount (s : State) (i sub : Nat) (b : Bytes) : (s.domainSet i sub b).freshCount = s.freshCount := rfl
@[simp] theorem State.domainSet_lastStatus (s : State) (i sub : Nat) (b : Bytes) : (s.domainSet i sub b).lastStatus = s.lastStatus := rfl
@[simp] theorem State.domainSet_lastData (s : State) (i sub : Nat) (b : Bytes) : (s.domainSet i sub b).lastData = s.lastData := rfl
@[simp] theorem State.domainSet_dev (s : State) (i sub : Nat) (b : Bytes) : (s.domainSet i sub b).dev = s.dev := rfl
@[simp] theorem State.domainSet_index (s : State) (i sub : Nat) (b : Bytes) : (s.domainSet i sub b).index = s.index := rfl
@[simp] theorem State.domainSet_clock (s : State) (i sub : Nat) (b : Bytes) : (s.domainSet i sub b).clock = s.clock := rfl
@[simp] theorem State.domainSet_power (s : State) (i sub : Nat) (b : Bytes) : (s.domainSet i sub b).power = s.power := rfl
@[simp] theorem State.domainSet_ports (s : State) (i sub : Nat) (b : Bytes) : (s.domainSet i sub b).ports = s.ports := rfl
@[simp] theorem State.domainSet_switch (s : State) (i sub : Nat) (b : Bytes) : (s.domainSet i sub b).switch = s.switch := rfl
@[simp] theorem State.domainSet_mem (s : State) (i sub : Nat) (b : Bytes) : (s.domainSet i sub b).mem = s.mem := rfl
@[simp] theorem State.domainSet_cores (s : State) (i sub : Nat) (b : Bytes) : (s.domainSet i sub b).cores = s.cores := rfl
@[simp] theorem State.domainSet_stash (s : State) (i sub : Nat) (b : Bytes) : (s.domainSet i sub b).stash = s.stash := rfl
@[simp] theorem State.domainSet_binding (s : State) (i sub : Nat) (b : Bytes) : (s.domainSet i sub b).binding = s.binding := rfl
@[simp] theorem State.domainSet_ctxs (s : State) (i sub : Nat) (b : Bytes) : (s.domainSet i sub b).ctxs = s.ctxs := rfl
@[simp] theorem State.domainSet_marks (s : State) (i sub : Nat) (b : Bytes) : (s.domainSet i sub b).marks = s.marks := rfl
@[simp] theorem State.domainSet_proof (s : State) (i sub : Nat) (b : Bytes) : (s.domainSet i sub b).proof = s.proof := rfl
@[simp] theorem State.domainSet_boot (s : State) (i sub : Nat) (b : Bytes) : (s.domainSet i sub b).boot = s.boot := rfl

@[simp] theorem State.setPort_pending (s : State) (p : Nat) (x : Port) : (s.setPort p x).pending = s.pending := rfl
@[simp] theorem State.setPort_freshCount (s : State) (p : Nat) (x : Port) : (s.setPort p x).freshCount = s.freshCount := rfl
@[simp] theorem State.setPort_lastStatus (s : State) (p : Nat) (x : Port) : (s.setPort p x).lastStatus = s.lastStatus := rfl
@[simp] theorem State.setPort_lastData (s : State) (p : Nat) (x : Port) : (s.setPort p x).lastData = s.lastData := rfl
@[simp] theorem State.setPort_dev (s : State) (p : Nat) (x : Port) : (s.setPort p x).dev = s.dev := rfl
@[simp] theorem State.setPort_index (s : State) (p : Nat) (x : Port) : (s.setPort p x).index = s.index := rfl
@[simp] theorem State.setPort_domains (s : State) (p : Nat) (x : Port) : (s.setPort p x).domains = s.domains := rfl
@[simp] theorem State.setPort_clock (s : State) (p : Nat) (x : Port) : (s.setPort p x).clock = s.clock := rfl
@[simp] theorem State.setPort_power (s : State) (p : Nat) (x : Port) : (s.setPort p x).power = s.power := rfl
@[simp] theorem State.setPort_switch (s : State) (p : Nat) (x : Port) : (s.setPort p x).switch = s.switch := rfl
@[simp] theorem State.setPort_mem (s : State) (p : Nat) (x : Port) : (s.setPort p x).mem = s.mem := rfl
@[simp] theorem State.setPort_cores (s : State) (p : Nat) (x : Port) : (s.setPort p x).cores = s.cores := rfl
@[simp] theorem State.setPort_stash (s : State) (p : Nat) (x : Port) : (s.setPort p x).stash = s.stash := rfl
@[simp] theorem State.setPort_binding (s : State) (p : Nat) (x : Port) : (s.setPort p x).binding = s.binding := rfl
@[simp] theorem State.setPort_ctxs (s : State) (p : Nat) (x : Port) : (s.setPort p x).ctxs = s.ctxs := rfl
@[simp] theorem State.setPort_marks (s : State) (p : Nat) (x : Port) : (s.setPort p x).marks = s.marks := rfl
@[simp] theorem State.setPort_proof (s : State) (p : Nat) (x : Port) : (s.setPort p x).proof = s.proof := rfl
@[simp] theorem State.setPort_boot (s : State) (p : Nat) (x : Port) : (s.setPort p x).boot = s.boot := rfl

@[simp] theorem State.setCore_pending (s : State) (c : Nat) (x : Core) : (s.setCore c x).pending = s.pending := rfl
@[simp] theorem State.setCore_freshCount (s : State) (c : Nat) (x : Core) : (s.setCore c x).freshCount = s.freshCount := rfl
@[simp] theorem State.setCore_lastStatus (s : State) (c : Nat) (x : Core) : (s.setCore c x).lastStatus = s.lastStatus := rfl
@[simp] theorem State.setCore_lastData (s : State) (c : Nat) (x : Core) : (s.setCore c x).lastData = s.lastData := rfl
@[simp] theorem State.setCore_dev (s : State) (c : Nat) (x : Core) : (s.setCore c x).dev = s.dev := rfl
@[simp] theorem State.setCore_index (s : State) (c : Nat) (x : Core) : (s.setCore c x).index = s.index := rfl
@[simp] theorem State.setCore_domains (s : State) (c : Nat) (x : Core) : (s.setCore c x).domains = s.domains := rfl
@[simp] theorem State.setCore_clock (s : State) (c : Nat) (x : Core) : (s.setCore c x).clock = s.clock := rfl
@[simp] theorem State.setCore_power (s : State) (c : Nat) (x : Core) : (s.setCore c x).power = s.power := rfl
@[simp] theorem State.setCore_ports (s : State) (c : Nat) (x : Core) : (s.setCore c x).ports = s.ports := rfl
@[simp] theorem State.setCore_switch (s : State) (c : Nat) (x : Core) : (s.setCore c x).switch = s.switch := rfl
@[simp] theorem State.setCore_mem (s : State) (c : Nat) (x : Core) : (s.setCore c x).mem = s.mem := rfl
@[simp] theorem State.setCore_stash (s : State) (c : Nat) (x : Core) : (s.setCore c x).stash = s.stash := rfl
@[simp] theorem State.setCore_binding (s : State) (c : Nat) (x : Core) : (s.setCore c x).binding = s.binding := rfl
@[simp] theorem State.setCore_ctxs (s : State) (c : Nat) (x : Core) : (s.setCore c x).ctxs = s.ctxs := rfl
@[simp] theorem State.setCore_marks (s : State) (c : Nat) (x : Core) : (s.setCore c x).marks = s.marks := rfl
@[simp] theorem State.setCore_proof (s : State) (c : Nat) (x : Core) : (s.setCore c x).proof = s.proof := rfl
@[simp] theorem State.setCore_boot (s : State) (c : Nat) (x : Core) : (s.setCore c x).boot = s.boot := rfl

@[simp] theorem State.setCtx_pending (s : State) (c : Nat) (x : Ctx) : (s.setCtx c x).pending = s.pending := rfl
@[simp] theorem State.setCtx_freshCount (s : State) (c : Nat) (x : Ctx) : (s.setCtx c x).freshCount = s.freshCount := rfl
@[simp] theorem State.setCtx_lastStatus (s : State) (c : Nat) (x : Ctx) : (s.setCtx c x).lastStatus = s.lastStatus := rfl
@[simp] theorem State.setCtx_lastData (s : State) (c : Nat) (x : Ctx) : (s.setCtx c x).lastData = s.lastData := rfl
@[simp] theorem State.setCtx_dev (s : State) (c : Nat) (x : Ctx) : (s.setCtx c x).dev = s.dev := rfl
@[simp] theorem State.setCtx_index (s : State) (c : Nat) (x : Ctx) : (s.setCtx c x).index = s.index := rfl
@[simp] theorem State.setCtx_domains (s : State) (c : Nat) (x : Ctx) : (s.setCtx c x).domains = s.domains := rfl
@[simp] theorem State.setCtx_clock (s : State) (c : Nat) (x : Ctx) : (s.setCtx c x).clock = s.clock := rfl
@[simp] theorem State.setCtx_power (s : State) (c : Nat) (x : Ctx) : (s.setCtx c x).power = s.power := rfl
@[simp] theorem State.setCtx_ports (s : State) (c : Nat) (x : Ctx) : (s.setCtx c x).ports = s.ports := rfl
@[simp] theorem State.setCtx_switch (s : State) (c : Nat) (x : Ctx) : (s.setCtx c x).switch = s.switch := rfl
@[simp] theorem State.setCtx_mem (s : State) (c : Nat) (x : Ctx) : (s.setCtx c x).mem = s.mem := rfl
@[simp] theorem State.setCtx_cores (s : State) (c : Nat) (x : Ctx) : (s.setCtx c x).cores = s.cores := rfl
@[simp] theorem State.setCtx_stash (s : State) (c : Nat) (x : Ctx) : (s.setCtx c x).stash = s.stash := rfl
@[simp] theorem State.setCtx_binding (s : State) (c : Nat) (x : Ctx) : (s.setCtx c x).binding = s.binding := rfl
@[simp] theorem State.setCtx_marks (s : State) (c : Nat) (x : Ctx) : (s.setCtx c x).marks = s.marks := rfl
@[simp] theorem State.setCtx_proof (s : State) (c : Nat) (x : Ctx) : (s.setCtx c x).proof = s.proof := rfl
@[simp] theorem State.setCtx_boot (s : State) (c : Nat) (x : Ctx) : (s.setCtx c x).boot = s.boot := rfl

@[simp] theorem State.setCmd_pending (s : State) (c : Cmd) : (s.setCmd c).pending = s.pending := rfl
@[simp] theorem State.setCmd_freshCount (s : State) (c : Cmd) : (s.setCmd c).freshCount = s.freshCount := rfl
@[simp] theorem State.setCmd_lastStatus (s : State) (c : Cmd) : (s.setCmd c).lastStatus = s.lastStatus := rfl
@[simp] theorem State.setCmd_lastData (s : State) (c : Cmd) : (s.setCmd c).lastData = s.lastData := rfl
@[simp] theorem State.setCmd_dev (s : State) (c : Cmd) : (s.setCmd c).dev = s.dev := rfl
@[simp] theorem State.setCmd_index (s : State) (c : Cmd) : (s.setCmd c).index = s.index := rfl
@[simp] theorem State.setCmd_domains (s : State) (c : Cmd) : (s.setCmd c).domains = s.domains := rfl
@[simp] theorem State.setCmd_clock (s : State) (c : Cmd) : (s.setCmd c).clock = s.clock := rfl
@[simp] theorem State.setCmd_power (s : State) (c : Cmd) : (s.setCmd c).power = s.power := rfl
@[simp] theorem State.setCmd_ports (s : State) (c : Cmd) : (s.setCmd c).ports = s.ports := rfl
@[simp] theorem State.setCmd_switch (s : State) (c : Cmd) : (s.setCmd c).switch = s.switch := rfl
@[simp] theorem State.setCmd_mem (s : State) (c : Cmd) : (s.setCmd c).mem = s.mem := rfl
@[simp] theorem State.setCmd_stash (s : State) (c : Cmd) : (s.setCmd c).stash = s.stash := rfl
@[simp] theorem State.setCmd_binding (s : State) (c : Cmd) : (s.setCmd c).binding = s.binding := rfl
@[simp] theorem State.setCmd_ctxs (s : State) (c : Cmd) : (s.setCmd c).ctxs = s.ctxs := rfl
@[simp] theorem State.setCmd_marks (s : State) (c : Cmd) : (s.setCmd c).marks = s.marks := rfl
@[simp] theorem State.setCmd_proof (s : State) (c : Cmd) : (s.setCmd c).proof = s.proof := rfl
@[simp] theorem State.setCmd_boot (s : State) (c : Cmd) : (s.setCmd c).boot = s.boot := rfl

@[simp] theorem State.dropCmd_pending (s : State) (c n : Nat) : (s.dropCmd c n).pending = s.pending := rfl
@[simp] theorem State.dropCmd_freshCount (s : State) (c n : Nat) : (s.dropCmd c n).freshCount = s.freshCount := rfl
@[simp] theorem State.dropCmd_lastStatus (s : State) (c n : Nat) : (s.dropCmd c n).lastStatus = s.lastStatus := rfl
@[simp] theorem State.dropCmd_lastData (s : State) (c n : Nat) : (s.dropCmd c n).lastData = s.lastData := rfl
@[simp] theorem State.dropCmd_dev (s : State) (c n : Nat) : (s.dropCmd c n).dev = s.dev := rfl
@[simp] theorem State.dropCmd_index (s : State) (c n : Nat) : (s.dropCmd c n).index = s.index := rfl
@[simp] theorem State.dropCmd_domains (s : State) (c n : Nat) : (s.dropCmd c n).domains = s.domains := rfl
@[simp] theorem State.dropCmd_clock (s : State) (c n : Nat) : (s.dropCmd c n).clock = s.clock := rfl
@[simp] theorem State.dropCmd_power (s : State) (c n : Nat) : (s.dropCmd c n).power = s.power := rfl
@[simp] theorem State.dropCmd_ports (s : State) (c n : Nat) : (s.dropCmd c n).ports = s.ports := rfl
@[simp] theorem State.dropCmd_switch (s : State) (c n : Nat) : (s.dropCmd c n).switch = s.switch := rfl
@[simp] theorem State.dropCmd_mem (s : State) (c n : Nat) : (s.dropCmd c n).mem = s.mem := rfl
@[simp] theorem State.dropCmd_stash (s : State) (c n : Nat) : (s.dropCmd c n).stash = s.stash := rfl
@[simp] theorem State.dropCmd_binding (s : State) (c n : Nat) : (s.dropCmd c n).binding = s.binding := rfl
@[simp] theorem State.dropCmd_ctxs (s : State) (c n : Nat) : (s.dropCmd c n).ctxs = s.ctxs := rfl
@[simp] theorem State.dropCmd_marks (s : State) (c n : Nat) : (s.dropCmd c n).marks = s.marks := rfl
@[simp] theorem State.dropCmd_proof (s : State) (c n : Nat) : (s.dropCmd c n).proof = s.proof := rfl
@[simp] theorem State.dropCmd_boot (s : State) (c n : Nat) : (s.dropCmd c n).boot = s.boot := rfl

@[simp] theorem State.setAcc_pending (s : State) (u r c v : Nat) : (s.setAcc u r c v).pending = s.pending := rfl
@[simp] theorem State.setAcc_freshCount (s : State) (u r c v : Nat) : (s.setAcc u r c v).freshCount = s.freshCount := rfl
@[simp] theorem State.setAcc_lastStatus (s : State) (u r c v : Nat) : (s.setAcc u r c v).lastStatus = s.lastStatus := rfl
@[simp] theorem State.setAcc_lastData (s : State) (u r c v : Nat) : (s.setAcc u r c v).lastData = s.lastData := rfl
@[simp] theorem State.setAcc_dev (s : State) (u r c v : Nat) : (s.setAcc u r c v).dev = s.dev := rfl
@[simp] theorem State.setAcc_index (s : State) (u r c v : Nat) : (s.setAcc u r c v).index = s.index := rfl
@[simp] theorem State.setAcc_domains (s : State) (u r c v : Nat) : (s.setAcc u r c v).domains = s.domains := rfl
@[simp] theorem State.setAcc_clock (s : State) (u r c v : Nat) : (s.setAcc u r c v).clock = s.clock := rfl
@[simp] theorem State.setAcc_power (s : State) (u r c v : Nat) : (s.setAcc u r c v).power = s.power := rfl
@[simp] theorem State.setAcc_ports (s : State) (u r c v : Nat) : (s.setAcc u r c v).ports = s.ports := rfl
@[simp] theorem State.setAcc_switch (s : State) (u r c v : Nat) : (s.setAcc u r c v).switch = s.switch := rfl
@[simp] theorem State.setAcc_cores (s : State) (u r c v : Nat) : (s.setAcc u r c v).cores = s.cores := rfl
@[simp] theorem State.setAcc_stash (s : State) (u r c v : Nat) : (s.setAcc u r c v).stash = s.stash := rfl
@[simp] theorem State.setAcc_binding (s : State) (u r c v : Nat) : (s.setAcc u r c v).binding = s.binding := rfl
@[simp] theorem State.setAcc_ctxs (s : State) (u r c v : Nat) : (s.setAcc u r c v).ctxs = s.ctxs := rfl
@[simp] theorem State.setAcc_marks (s : State) (u r c v : Nat) : (s.setAcc u r c v).marks = s.marks := rfl
@[simp] theorem State.setAcc_proof (s : State) (u r c v : Nat) : (s.setAcc u r c v).proof = s.proof := rfl
@[simp] theorem State.setAcc_boot (s : State) (u r c v : Nat) : (s.setAcc u r c v).boot = s.boot := rfl

@[simp] theorem State.setRowPoison_pending (s : State) (u r : Nat) (b : Bool) : (s.setRowPoison u r b).pending = s.pending := rfl
@[simp] theorem State.setRowPoison_freshCount (s : State) (u r : Nat) (b : Bool) : (s.setRowPoison u r b).freshCount = s.freshCount := rfl
@[simp] theorem State.setRowPoison_lastStatus (s : State) (u r : Nat) (b : Bool) : (s.setRowPoison u r b).lastStatus = s.lastStatus := rfl
@[simp] theorem State.setRowPoison_lastData (s : State) (u r : Nat) (b : Bool) : (s.setRowPoison u r b).lastData = s.lastData := rfl
@[simp] theorem State.setRowPoison_dev (s : State) (u r : Nat) (b : Bool) : (s.setRowPoison u r b).dev = s.dev := rfl
@[simp] theorem State.setRowPoison_index (s : State) (u r : Nat) (b : Bool) : (s.setRowPoison u r b).index = s.index := rfl
@[simp] theorem State.setRowPoison_domains (s : State) (u r : Nat) (b : Bool) : (s.setRowPoison u r b).domains = s.domains := rfl
@[simp] theorem State.setRowPoison_clock (s : State) (u r : Nat) (b : Bool) : (s.setRowPoison u r b).clock = s.clock := rfl
@[simp] theorem State.setRowPoison_power (s : State) (u r : Nat) (b : Bool) : (s.setRowPoison u r b).power = s.power := rfl
@[simp] theorem State.setRowPoison_ports (s : State) (u r : Nat) (b : Bool) : (s.setRowPoison u r b).ports = s.ports := rfl
@[simp] theorem State.setRowPoison_switch (s : State) (u r : Nat) (b : Bool) : (s.setRowPoison u r b).switch = s.switch := rfl
@[simp] theorem State.setRowPoison_cores (s : State) (u r : Nat) (b : Bool) : (s.setRowPoison u r b).cores = s.cores := rfl
@[simp] theorem State.setRowPoison_stash (s : State) (u r : Nat) (b : Bool) : (s.setRowPoison u r b).stash = s.stash := rfl
@[simp] theorem State.setRowPoison_binding (s : State) (u r : Nat) (b : Bool) : (s.setRowPoison u r b).binding = s.binding := rfl
@[simp] theorem State.setRowPoison_ctxs (s : State) (u r : Nat) (b : Bool) : (s.setRowPoison u r b).ctxs = s.ctxs := rfl
@[simp] theorem State.setRowPoison_marks (s : State) (u r : Nat) (b : Bool) : (s.setRowPoison u r b).marks = s.marks := rfl
@[simp] theorem State.setRowPoison_proof (s : State) (u r : Nat) (b : Bool) : (s.setRowPoison u r b).proof = s.proof := rfl
@[simp] theorem State.setRowPoison_boot (s : State) (u r : Nat) (b : Bool) : (s.setRowPoison u r b).boot = s.boot := rfl

@[simp] theorem State.colophonSet_pending (s : State) (off v : Nat) : (s.colophonSet off v).pending = s.pending := rfl
@[simp] theorem State.colophonSet_freshCount (s : State) (off v : Nat) : (s.colophonSet off v).freshCount = s.freshCount := rfl
@[simp] theorem State.colophonSet_lastStatus (s : State) (off v : Nat) : (s.colophonSet off v).lastStatus = s.lastStatus := rfl
@[simp] theorem State.colophonSet_lastData (s : State) (off v : Nat) : (s.colophonSet off v).lastData = s.lastData := rfl
@[simp] theorem State.colophonSet_dev (s : State) (off v : Nat) : (s.colophonSet off v).dev = s.dev := rfl
@[simp] theorem State.colophonSet_index (s : State) (off v : Nat) : (s.colophonSet off v).index = s.index := rfl
@[simp] theorem State.colophonSet_domains (s : State) (off v : Nat) : (s.colophonSet off v).domains = s.domains := rfl
@[simp] theorem State.colophonSet_clock (s : State) (off v : Nat) : (s.colophonSet off v).clock = s.clock := rfl
@[simp] theorem State.colophonSet_power (s : State) (off v : Nat) : (s.colophonSet off v).power = s.power := rfl
@[simp] theorem State.colophonSet_ports (s : State) (off v : Nat) : (s.colophonSet off v).ports = s.ports := rfl
@[simp] theorem State.colophonSet_switch (s : State) (off v : Nat) : (s.colophonSet off v).switch = s.switch := rfl
@[simp] theorem State.colophonSet_mem (s : State) (off v : Nat) : (s.colophonSet off v).mem = s.mem := rfl
@[simp] theorem State.colophonSet_cores (s : State) (off v : Nat) : (s.colophonSet off v).cores = s.cores := rfl
@[simp] theorem State.colophonSet_stash (s : State) (off v : Nat) : (s.colophonSet off v).stash = s.stash := rfl
@[simp] theorem State.colophonSet_ctxs (s : State) (off v : Nat) : (s.colophonSet off v).ctxs = s.ctxs := rfl
@[simp] theorem State.colophonSet_marks (s : State) (off v : Nat) : (s.colophonSet off v).marks = s.marks := rfl
@[simp] theorem State.colophonSet_proof (s : State) (off v : Nat) : (s.colophonSet off v).proof = s.proof := rfl
@[simp] theorem State.colophonSet_boot (s : State) (off v : Nat) : (s.colophonSet off v).boot = s.boot := rfl

@[simp] theorem State.clearMem_pending (s : State) (a n : Nat) : (s.clearMem a n).pending = s.pending := rfl
@[simp] theorem State.clearMem_freshCount (s : State) (a n : Nat) : (s.clearMem a n).freshCount = s.freshCount := rfl
@[simp] theorem State.clearMem_lastStatus (s : State) (a n : Nat) : (s.clearMem a n).lastStatus = s.lastStatus := rfl
@[simp] theorem State.clearMem_lastData (s : State) (a n : Nat) : (s.clearMem a n).lastData = s.lastData := rfl
@[simp] theorem State.clearMem_dev (s : State) (a n : Nat) : (s.clearMem a n).dev = s.dev := rfl
@[simp] theorem State.clearMem_index (s : State) (a n : Nat) : (s.clearMem a n).index = s.index := rfl
@[simp] theorem State.clearMem_domains (s : State) (a n : Nat) : (s.clearMem a n).domains = s.domains := rfl
@[simp] theorem State.clearMem_clock (s : State) (a n : Nat) : (s.clearMem a n).clock = s.clock := rfl
@[simp] theorem State.clearMem_power (s : State) (a n : Nat) : (s.clearMem a n).power = s.power := rfl
@[simp] theorem State.clearMem_ports (s : State) (a n : Nat) : (s.clearMem a n).ports = s.ports := rfl
@[simp] theorem State.clearMem_switch (s : State) (a n : Nat) : (s.clearMem a n).switch = s.switch := rfl
@[simp] theorem State.clearMem_cores (s : State) (a n : Nat) : (s.clearMem a n).cores = s.cores := rfl
@[simp] theorem State.clearMem_stash (s : State) (a n : Nat) : (s.clearMem a n).stash = s.stash := rfl
@[simp] theorem State.clearMem_binding (s : State) (a n : Nat) : (s.clearMem a n).binding = s.binding := rfl
@[simp] theorem State.clearMem_ctxs (s : State) (a n : Nat) : (s.clearMem a n).ctxs = s.ctxs := rfl
@[simp] theorem State.clearMem_marks (s : State) (a n : Nat) : (s.clearMem a n).marks = s.marks := rfl
@[simp] theorem State.clearMem_proof (s : State) (a n : Nat) : (s.clearMem a n).proof = s.proof := rfl
@[simp] theorem State.clearMem_boot (s : State) (a n : Nat) : (s.clearMem a n).boot = s.boot := rfl

@[simp] theorem State.setLeafPattern_pending (s : State) (h w p : Nat) : (s.setLeafPattern h w p).pending = s.pending := rfl
@[simp] theorem State.setLeafPattern_freshCount (s : State) (h w p : Nat) : (s.setLeafPattern h w p).freshCount = s.freshCount := rfl
@[simp] theorem State.setLeafPattern_lastStatus (s : State) (h w p : Nat) : (s.setLeafPattern h w p).lastStatus = s.lastStatus := rfl
@[simp] theorem State.setLeafPattern_lastData (s : State) (h w p : Nat) : (s.setLeafPattern h w p).lastData = s.lastData := rfl
@[simp] theorem State.setLeafPattern_dev (s : State) (h w p : Nat) : (s.setLeafPattern h w p).dev = s.dev := rfl
@[simp] theorem State.setLeafPattern_index (s : State) (h w p : Nat) : (s.setLeafPattern h w p).index = s.index := rfl
@[simp] theorem State.setLeafPattern_domains (s : State) (h w p : Nat) : (s.setLeafPattern h w p).domains = s.domains := rfl
@[simp] theorem State.setLeafPattern_clock (s : State) (h w p : Nat) : (s.setLeafPattern h w p).clock = s.clock := rfl
@[simp] theorem State.setLeafPattern_power (s : State) (h w p : Nat) : (s.setLeafPattern h w p).power = s.power := rfl
@[simp] theorem State.setLeafPattern_ports (s : State) (h w p : Nat) : (s.setLeafPattern h w p).ports = s.ports := rfl
@[simp] theorem State.setLeafPattern_switch (s : State) (h w p : Nat) : (s.setLeafPattern h w p).switch = s.switch := rfl
@[simp] theorem State.setLeafPattern_cores (s : State) (h w p : Nat) : (s.setLeafPattern h w p).cores = s.cores := rfl
@[simp] theorem State.setLeafPattern_stash (s : State) (h w p : Nat) : (s.setLeafPattern h w p).stash = s.stash := rfl
@[simp] theorem State.setLeafPattern_binding (s : State) (h w p : Nat) : (s.setLeafPattern h w p).binding = s.binding := rfl
@[simp] theorem State.setLeafPattern_ctxs (s : State) (h w p : Nat) : (s.setLeafPattern h w p).ctxs = s.ctxs := rfl
@[simp] theorem State.setLeafPattern_marks (s : State) (h w p : Nat) : (s.setLeafPattern h w p).marks = s.marks := rfl
@[simp] theorem State.setLeafPattern_proof (s : State) (h w p : Nat) : (s.setLeafPattern h w p).proof = s.proof := rfl
@[simp] theorem State.setLeafPattern_boot (s : State) (h w p : Nat) : (s.setLeafPattern h w p).boot = s.boot := rfl

@[simp] theorem State.idxBump_pending (s : State) (i sub hi lo n : Nat) : (s.idxBump i sub hi lo n).pending = s.pending := rfl
@[simp] theorem State.idxBump_freshCount (s : State) (i sub hi lo n : Nat) : (s.idxBump i sub hi lo n).freshCount = s.freshCount := rfl
@[simp] theorem State.idxBump_lastStatus (s : State) (i sub hi lo n : Nat) : (s.idxBump i sub hi lo n).lastStatus = s.lastStatus := rfl
@[simp] theorem State.idxBump_lastData (s : State) (i sub hi lo n : Nat) : (s.idxBump i sub hi lo n).lastData = s.lastData := rfl
@[simp] theorem State.idxBump_dev (s : State) (i sub hi lo n : Nat) : (s.idxBump i sub hi lo n).dev = s.dev := rfl
@[simp] theorem State.idxBump_domains (s : State) (i sub hi lo n : Nat) : (s.idxBump i sub hi lo n).domains = s.domains := rfl
@[simp] theorem State.idxBump_clock (s : State) (i sub hi lo n : Nat) : (s.idxBump i sub hi lo n).clock = s.clock := rfl
@[simp] theorem State.idxBump_power (s : State) (i sub hi lo n : Nat) : (s.idxBump i sub hi lo n).power = s.power := rfl
@[simp] theorem State.idxBump_ports (s : State) (i sub hi lo n : Nat) : (s.idxBump i sub hi lo n).ports = s.ports := rfl
@[simp] theorem State.idxBump_switch (s : State) (i sub hi lo n : Nat) : (s.idxBump i sub hi lo n).switch = s.switch := rfl
@[simp] theorem State.idxBump_mem (s : State) (i sub hi lo n : Nat) : (s.idxBump i sub hi lo n).mem = s.mem := rfl
@[simp] theorem State.idxBump_cores (s : State) (i sub hi lo n : Nat) : (s.idxBump i sub hi lo n).cores = s.cores := rfl
@[simp] theorem State.idxBump_stash (s : State) (i sub hi lo n : Nat) : (s.idxBump i sub hi lo n).stash = s.stash := rfl
@[simp] theorem State.idxBump_binding (s : State) (i sub hi lo n : Nat) : (s.idxBump i sub hi lo n).binding = s.binding := rfl
@[simp] theorem State.idxBump_ctxs (s : State) (i sub hi lo n : Nat) : (s.idxBump i sub hi lo n).ctxs = s.ctxs := rfl
@[simp] theorem State.idxBump_marks (s : State) (i sub hi lo n : Nat) : (s.idxBump i sub hi lo n).marks = s.marks := rfl
@[simp] theorem State.idxBump_proof (s : State) (i sub hi lo n : Nat) : (s.idxBump i sub hi lo n).proof = s.proof := rfl
@[simp] theorem State.idxBump_boot (s : State) (i sub hi lo n : Nat) : (s.idxBump i sub hi lo n).boot = s.boot := rfl

@[simp] theorem State.count_pending (s : State) (i sub n : Nat) : (s.count i sub n).pending = s.pending := rfl
@[simp] theorem State.count_freshCount (s : State) (i sub n : Nat) : (s.count i sub n).freshCount = s.freshCount := rfl
@[simp] theorem State.count_lastStatus (s : State) (i sub n : Nat) : (s.count i sub n).lastStatus = s.lastStatus := rfl
@[simp] theorem State.count_lastData (s : State) (i sub n : Nat) : (s.count i sub n).lastData = s.lastData := rfl
@[simp] theorem State.count_dev (s : State) (i sub n : Nat) : (s.count i sub n).dev = s.dev := rfl
@[simp] theorem State.count_domains (s : State) (i sub n : Nat) : (s.count i sub n).domains = s.domains := rfl
@[simp] theorem State.count_clock (s : State) (i sub n : Nat) : (s.count i sub n).clock = s.clock := rfl
@[simp] theorem State.count_power (s : State) (i sub n : Nat) : (s.count i sub n).power = s.power := rfl
@[simp] theorem State.count_ports (s : State) (i sub n : Nat) : (s.count i sub n).ports = s.ports := rfl
@[simp] theorem State.count_switch (s : State) (i sub n : Nat) : (s.count i sub n).switch = s.switch := rfl
@[simp] theorem State.count_mem (s : State) (i sub n : Nat) : (s.count i sub n).mem = s.mem := rfl
@[simp] theorem State.count_cores (s : State) (i sub n : Nat) : (s.count i sub n).cores = s.cores := rfl
@[simp] theorem State.count_stash (s : State) (i sub n : Nat) : (s.count i sub n).stash = s.stash := rfl
@[simp] theorem State.count_binding (s : State) (i sub n : Nat) : (s.count i sub n).binding = s.binding := rfl
@[simp] theorem State.count_ctxs (s : State) (i sub n : Nat) : (s.count i sub n).ctxs = s.ctxs := rfl
@[simp] theorem State.count_marks (s : State) (i sub n : Nat) : (s.count i sub n).marks = s.marks := rfl
@[simp] theorem State.count_proof (s : State) (i sub n : Nat) : (s.count i sub n).proof = s.proof := rfl
@[simp] theorem State.count_boot (s : State) (i sub n : Nat) : (s.count i sub n).boot = s.boot := rfl

@[simp] theorem State.colophonAdd_pending (s : State) (off n : Nat) : (s.colophonAdd off n).pending = s.pending := rfl
@[simp] theorem State.colophonAdd_freshCount (s : State) (off n : Nat) : (s.colophonAdd off n).freshCount = s.freshCount := rfl
@[simp] theorem State.colophonAdd_lastStatus (s : State) (off n : Nat) : (s.colophonAdd off n).lastStatus = s.lastStatus := rfl
@[simp] theorem State.colophonAdd_lastData (s : State) (off n : Nat) : (s.colophonAdd off n).lastData = s.lastData := rfl
@[simp] theorem State.colophonAdd_dev (s : State) (off n : Nat) : (s.colophonAdd off n).dev = s.dev := rfl
@[simp] theorem State.colophonAdd_index (s : State) (off n : Nat) : (s.colophonAdd off n).index = s.index := rfl
@[simp] theorem State.colophonAdd_domains (s : State) (off n : Nat) : (s.colophonAdd off n).domains = s.domains := rfl
@[simp] theorem State.colophonAdd_clock (s : State) (off n : Nat) : (s.colophonAdd off n).clock = s.clock := rfl
@[simp] theorem State.colophonAdd_power (s : State) (off n : Nat) : (s.colophonAdd off n).power = s.power := rfl
@[simp] theorem State.colophonAdd_ports (s : State) (off n : Nat) : (s.colophonAdd off n).ports = s.ports := rfl
@[simp] theorem State.colophonAdd_switch (s : State) (off n : Nat) : (s.colophonAdd off n).switch = s.switch := rfl
@[simp] theorem State.colophonAdd_mem (s : State) (off n : Nat) : (s.colophonAdd off n).mem = s.mem := rfl
@[simp] theorem State.colophonAdd_cores (s : State) (off n : Nat) : (s.colophonAdd off n).cores = s.cores := rfl
@[simp] theorem State.colophonAdd_stash (s : State) (off n : Nat) : (s.colophonAdd off n).stash = s.stash := rfl
@[simp] theorem State.colophonAdd_ctxs (s : State) (off n : Nat) : (s.colophonAdd off n).ctxs = s.ctxs := rfl
@[simp] theorem State.colophonAdd_marks (s : State) (off n : Nat) : (s.colophonAdd off n).marks = s.marks := rfl
@[simp] theorem State.colophonAdd_proof (s : State) (off n : Nat) : (s.colophonAdd off n).proof = s.proof := rfl
@[simp] theorem State.colophonAdd_boot (s : State) (off n : Nat) : (s.colophonAdd off n).boot = s.boot := rfl

/-- What a meaning's end says of the next state: the body's, with the fixed values and the queue as they were. -/
theorem State.ends_answers {s b t : State} {Q : State → Prop} (e : b = t) (h : Q { t with dev := s.dev, pending := s.pending }) :
    ∃ u, s.ends b = .next u ∧ Q u := ⟨_, by rw [e]; rfl, h⟩

/-- A meaning that changes nothing. -/
theorem State.ends_self {s b : State} (e : b = s) : s.ends b = .next s := by rw [e]; rfl

end Sys2Proof.Machine
end

