-- ==== Sys2Proof/Tests/Slice0.lean ====
section
/-!
SUPPORT. Sys2Proof/Tests/Slice0.lean: the author's tests. The first part shows every check of WellFormed refusing a term; each theorem
after it meets the hypotheses of one statement's clauses on small states together and looks at what the command then does there.
-/
open Sys2Proof Sys2Proof.Machine

namespace Sys2Proof.Tests

set_option Elab.async false

/-! ### Helpers -/

/-- A next state that satisfies p. -/
def ok (o : Out) (p : State → Bool) : Bool :=
  match o with
  | .next t => p t
  | _ => false

/-- The command changes nothing. -/
def stays (c : Instr) (s : State) : Bool := ok (exec c s) (fun t => t == s)

/-- An aligned folio. -/
def aligned : State :=
  { State.reset with clock := { Clock.reset with resetN := true, phase := .aligned, alignDone := true } }

/-- The reset state with its clock changed. -/
def clocked (f : Clock → Clock) : State := { State.reset with clock := f Clock.reset }

/-- The aligned folio with its power state changed. -/
def powered (f : Power → Power) : State := { aligned with power := f Power.reset }

/-- The aligned folio with a binding loaded that runs. -/
def bound : State := { aligned with binding := { Binding.reset with loaded := true, phase := 5 } }

/-- Core c runs in its first region with an instruction word at its program counter. -/
def coreAt (c w : Nat) (f : Core → Core) : State :=
  let s := aligned.setCore c (f { Core.reset with run := .running, declared := true, regions := 1 })
  { s with mem := s.mem.setBytes (instrAddress c 0) (leBytes 16 w) }

/-- A port whose link is up and whose partner takes every channel. -/
def upPort : Port := { Port.reset with up := true, openMask := 15, limit := [(4, 1000), (5, 1000), (6, 1000), (7, 1000)] }

/-- The aligned folio with a port changed. -/
def ported (p : Nat) (x : Port) : State := aligned.setPort p x

/-- Sixteen sensors of one temperature. -/
def reading (t : Int) : QuireReading := ⟨List.replicate 16 (some t), 7000⟩

/-! ### WellFormed refuses -/

theorem test_wf_phase_cycles : Instr.wellFormed (.clockRecoveryLock (2 ^ 32)) = false ∧ Instr.wellFormed (.oscillatorStable (2 ^ 32)) = false ∧
    Instr.wellFormed (.referenceLock (2 ^ 32)) = false ∧ Instr.wellFormed (.domainLock (2 ^ 32)) = false ∧
    Instr.wellFormed (.releaseBoundary (2 ^ 32)) = false := by decide +kernel

theorem test_wf_echo : Instr.wellFormed (.echoReplyReceive 95) = false ∧ Instr.wellFormed (.echoReplyReceive (2 ^ 32)) = false := by decide +kernel

theorem test_wf_readings : Instr.wellFormed (.stitchBoundary [reading 0, reading 0, reading 0]) = false ∧
    Instr.wellFormed (.stitchBoundary [⟨[], 0⟩, reading 0, reading 0, reading 0]) = false ∧
    Instr.wellFormed (.stitchBoundary [reading 32768, reading 0, reading 0, reading 0]) = false ∧
    Instr.wellFormed (.stitchBoundary [reading (-32769), reading 0, reading 0, reading 0]) = false ∧
    Instr.wellFormed (.stitchBoundary [{ reading 0 with droop := 65536 }, reading 0, reading 0, reading 0]) = false ∧
    Instr.wellFormed (.stitchBoundary [reading 0, reading 0, reading 0, reading 0]) = true := by decide +kernel

theorem test_wf_codewords : Instr.wellFormed (.uncorrectableCodeword 0 0 400) = false ∧
    Instr.wellFormed (.retryControlBlock 0 0 400) = false ∧ Instr.wellFormed (.replayArrival 0 0 400) = false := by decide +kernel

theorem test_wf_addresses : Instr.wellFormed (.scrubRead 8) = false ∧ Instr.wellFormed (.scrubRead (2 ^ 49)) = false ∧
    Instr.wellFormed (.hostMemoryRead 65536) = false ∧ Instr.wellFormed (.firmwareHalt 0) = false ∧
    Instr.wellFormed (.firmwareHalt 0x0F) = false ∧ Instr.wellFormed (.diagRef 0 0) = false := by decide +kernel

/-- Lengths are told by their replicated list, which is too long to unfold. -/
theorem test_wf_lengths : Instr.wellFormed (.frameLand 0 (List.replicate 65536 0)) = false ∧
    Instr.wellFormed (.hostMemoryWrite (List.replicate 9177 0)) = false ∧
    Instr.wellFormed (.registerWrite 0 0 (List.replicate 9177 0)) = false ∧
    Instr.wellFormed (.imageSegment (List.replicate 9177 0)) = false ∧
    Instr.wellFormed (.firmwareSegment (List.replicate 9177 0)) = false ∧
    Instr.wellFormed (.attestationNonce (List.replicate 9177 0)) = false := by
  simp only [Instr.wellFormed, List.length_replicate]; decide +kernel

theorem test_no_word_spells_a_command : decodeTableWord 0 0 = none ∧ decodeTableWord 128 5 = none := by decide +kernel

/-! ### Start-up, clocks and temperature -/

theorem test_reset_legal : Canonical State.reset ∧ PinsLegal State.reset ∧ SensorsLegal State.reset ∧ BootLegal State.reset :=
  ⟨by decide, by decide, by decide, by decide⟩

theorem test_aligned_legal : Canonical aligned ∧ PinsLegal aligned ∧ SensorsLegal aligned ∧ BootLegal aligned :=
  ⟨by decide, by decide, by decide, by decide⟩

theorem test_step_takes_the_front : ok (step { aligned with pending := [.linkDown 3, .resetAssert] }) (fun t => t.pending == [.resetAssert]) = true ∧
    ok (step State.reset) (fun t => t == State.reset) = true := by decide +kernel

theorem test_reset_assert : ok (exec .resetAssert { bound with freshCount := 7 }) (fun t =>
    t.binding == Binding.reset && t.clock == Clock.reset && t.freshCount == 7 && t.index == []) = true := by decide +kernel

/-- Port C's marker lock holds on its lane. -/
def locked : Port := { Port.reset with lanes := List.replicate 4 { Lane.reset with codeword := true, marker := true } }

theorem test_start_up : let root := (clocked (fun c => { c with phase := .domainLock, path := .root, selfRefresh := true })).setPort 128 locked
    ok (exec .resetRelease State.reset) (fun t => t.clock.phase == .awaitingSignal) = true ∧
    ok (exec .signalDetect (clocked (fun c => { c with phase := .awaitingSignal }))) (fun t => t.clock.phase == .clockRecovery) = true ∧
    ok (exec (.clockRecoveryLock 5) (clocked (fun c => { c with phase := .clockRecovery }))) (fun t => t.clock.phase == .oscillatorStart) = true ∧
    ok (exec (.oscillatorStable 5) (clocked (fun c => { c with phase := .oscillatorStart }))) (fun t => t.clock.phase == .referenceLock) = true ∧
    ok (exec (.referenceLock 5) (clocked (fun c => { c with phase := .referenceLock }))) (fun t => t.clock.phase == .domainLock) = true ∧
    ok (exec (.domainLock 5) (clocked (fun c => { c with phase := .domainLock }))) (fun t => t.clock.phase == .marksAndEcho && t.index == []) = true ∧
    Canonical root ∧ root.markerLock portC = true ∧
    ok (exec (.domainLock 5) root) (fun t => t.clock.phase == .release && t.idx 0x2004 0 == 0 && t.clock.offsetDone && !t.clock.selfRefresh) = true := by
  decide +kernel

theorem test_release_and_check :
    ok (exec (.releaseBoundary 5) (clocked (fun c => { c with phase := .release, path := .root }))) (fun t =>
      t.clock.phase == .check && t.clock.stitch == 2 ^ 64 - 3) = true ∧
    ok (exec (.releaseBoundary 5) (clocked (fun c => { c with phase := .release, path := .worker, lastMarkValid := true, lastMarkStitch := 9 })))
      (fun t => t.clock.phase == .check && t.clock.stitch == 9) = true ∧
    ok (exec (.releaseBoundary 5) (clocked (fun c => { c with phase := .release, path := .worker, lastMarkValid := true, lastMarkStitch := 10 })))
      (fun t => t.clock.phase == .release) = true ∧
    ok (exec (.alignmentCheckEnd true) (clocked (fun c => { c with phase := .check, stitch := 2, releaseStitch := 0 }))) (fun t =>
      t.clock.phase == .passed) = true ∧
    ok (exec (.alignmentCheckEnd false) (clocked (fun c => { c with phase := .check, stitch := 2, releaseStitch := 0 }))) (fun t =>
      t.clock.phase == .release) = true := by decide +kernel

/-- (197 - 96) / 2 rounded down is 50 (R365). -/
theorem test_echo : let e := fun r => clocked (fun c => { c with phase := .marksAndEcho, path := .worker, echoes := [r, r, r] })
    Canonical (e 197) ∧ (e 197).clock.echoesOwed = 0 ∧
    ok (exec (.echoReplyReceive 197) (e 197)) (fun t => t.clock.offsetDone && t.idx 0x2004 0 == 50 && t.idx 0x2006 0 == 197) = true ∧
    ok (exec (.echoReplyReceive 198) (e 197)) (fun t => !t.clock.offsetDone && t.clock.echoesOwed == 4 && t.clock.echoes == []) = true := by
  decide +kernel

theorem test_echo_of_a_feeder : let s := (ported 3 upPort).idxSet 0x3100 3 1
    s.native 3 = true ∧ s.transmits 3 = true ∧ s.idx 0x3100 3 = 1 ∧
    ok (exec (.echoRequestReceive 3) s) (fun t => (t.port 3).echoesOwed == [96]) = true ∧
    (let t := s.setPort 3 { upPort with echoesOwed := [0] }
     t.transmits 3 = true ∧ ok (exec (.echoReplySend 3) t) (fun t => (t.port 3).echoesOwed == []) = true) := by decide +kernel

theorem test_marks : let s := clocked (fun c => { c with phase := .aligned, path := .worker, alignDone := true, stitch := 6 })
    let good := BitVec.ofNat 96 (buildMark 6 true)
    let bad := BitVec.ofNat 96 (buildMark 9 true)
    let start := clocked (fun c => { c with phase := .release })
    Canonical s ∧ markOk good.toNat = true ∧ bit good.toNat 31 = true ∧ bits good.toNat 95 32 = 6 ∧ markOk bad.toNat = true ∧
    start.clock.starting = true ∧ Canonical start ∧
    ok (exec (.stitchMarkReceive good 1600) start) (fun t => t.clock.lastMarkStitch == 6 && t.clock.lastMarkValid) = true ∧
    ok (exec (.stitchMarkReceive (good + 1) 1600) start) (fun t => t.clock == start.clock && bits (t.idx 0x3006 portC) 31 0 == 1) = true ∧
    ok (exec (.stitchMarkReceive good 1600) { s with clock := { s.clock with marksApart := 1 } }) (fun t => t.clock.marksApart == 0) = true ∧
    ok (exec (.stitchMarkReceive bad 1600) s) (fun t => t.clock.marksApart == 1 && bits (t.idx 0x2008 0) 31 0 == 1 && !t.clock.coasting) = true ∧
    ok (exec (.stitchMarkReceive bad 1600) { s with clock := { s.clock with marksApart := 1 } }) (fun t =>
      t.clock.coasting && !t.clock.alignDone && t.clock.lossCause == 5) = true := by decide +kernel

theorem test_marker_lock : let l := { Lane.reset with good := 1, lastNumber := 5, lastValid := true }
    let m := buildMark 6 true
    markOk m = true ∧ bit m 31 = l.lastValid ∧ bits m 95 32 = (l.lastNumber + 1) % 2 ^ 64 ∧ (l.group true m).marker = true ∧
    (Lane.reset.group true m).marker = false ∧ markOk 0 = false ∧ (l.group true 0).marker = false ∧
    ((({ l with marker := true }).group false m).group false m).marker = false ∧
    aligned.native 3 = true ∧ 0 < aligned.laneCount 3 ∧ (aligned.port 3).up = false ∧
    ok (exec (.markerLock 3 0 true (BitVec.ofNat 96 m)) aligned) (fun t => ((t.port 3).lanes.getD 0 Lane.reset).good == 1) = true := by decide +kernel

theorem test_boundary : let r := fun t => [reading t, reading 0, reading 0, reading 0]
    SensorsLegal aligned ∧
    ok (exec (.stitchBoundary (r 13440)) aligned) (fun t =>
      t.clock.stitch == 1 && t.clock.cycle == 0 && t.clock.thermalReq == 1 && !t.power.tripped && t.power.hotRun == 1) = true ∧
    ok (exec (.stitchBoundary (r 16000)) aligned) (fun t => t.power.tripped) = true ∧
    ok (exec (.stitchBoundary (r 0)) (clocked (fun c => { c with phase := .passed, resetN := true }))) (fun t =>
      t.clock.phase == .aligned && t.clock.alignDone) = true ∧
    ok (exec (.stitchBoundary (r 0)) (clocked (fun c => { c with phase := .marksAndEcho, echoesOwed := 4 }))) (fun t =>
      t.clock.echoesOwed == 3) = true := by decide +kernel

theorem test_throttle : let s := fun (q h k : Nat) => { powered (fun p => { p with hotRun := h, coolRun := k }) with
      clock := { aligned.clock with thermalReq := q } }
    ok (exec .throttleEscalate (s 1 1024 0)) (fun t => t.clock.thermalReq == 2) = true ∧
    ok (exec .throttleEscalate (s 1 1023 0)) (fun t => t.clock.thermalReq == 1) = true ∧
    ok (exec .throttleRelease (s 2 0 1024)) (fun t => t.clock.thermalReq == 1 && t.power.coolRun == 0) = true ∧
    ok (exec .throttleRelease (s 2 0 1023)) (fun t => t.clock.thermalReq == 2) = true ∧
    ok (exec (.stitchBoundary [reading 0, reading 0, reading 0, reading 0]) (s 2 5 5)) (fun t =>
      t.power.hotRun == 0 && t.power.coolRun == 6 && bits (t.idx 0x9021 0) 31 0 == 1 && t.clock.thermalReq == 2) = true ∧
    aligned.entryValue 0x9022 0 = 12800 * 2 ^ 32 + 13440 * 2 ^ 16 + 16000 := by decide +kernel

theorem test_failsafe : let s := powered (fun p => { p with invalidRun := [(2, 8)] })
    Canonical s ∧ 8 ≤ fget 0 s.power.invalidRun 2 ∧
    ok (exec (.sensorFailsafe 2) s) (fun t => t.power.tripped && t.idx 0x9001 2 == 16000 && t.idx 0x9001 1 == 0) = true ∧
    stays (.sensorFailsafe 1) s = true := by decide +kernel

/-- A product that runs on core 9, which keeps no ring. -/
def running : Cmd := { Cmd.make 9 0x20 ⟨0, noBatch, 1⟩ 0 0 [] with phase := .running, opcode := 0x20 }

theorem test_trip : let t := powered (fun p => { p with tripped := true })
    let late := { t with clock := { t.clock with stitch := 1024 }, cores := { t.cores with cmds := [running] } }
    late.cores.cmds.filter Cmd.started = [running] ∧ running.failed = [] ∧ (late.core 9).records = [] ∧ (late.core 9).ringSize = 0 ∧
    ok (exec .tripClockStop { t with clock := { t.clock with drained := true } }) (fun t => t.power.clocksStopped && !t.power.thermTripN) = true ∧
    ok (exec .tripClockStop late) (fun t => t.power.clocksStopped && t.cores.cmds == []) = true ∧
    ok (exec .tripClockStop { t with clock := { t.clock with stitch := 1023 } }) (fun t => t.power.clocksStopped) = false ∧
    stays (.tripClockStop) aligned = true ∧ stays (.coreRailsRemoved) t = true ∧
    ok (exec .coreRailsRemoved (powered (fun p => { p with tripped := true, clocksStopped := true }))) (fun t =>
      t.power.railsAbsent && t.answers 0x1002 && t.answers 0x9001 && !t.answers 0x3001) = true := by
  decide +kernel

theorem test_reference_loss : let s := clocked (fun c => { c with phase := .release, signal := true })
    ok (exec (.referenceLoss .missingEdges) aligned) (fun t => t.clock.coasting && !t.clock.alignDone && t.clock.lossCause == lossCode .missingEdges &&
      decide (2 ≤ t.stepRequested)) = true ∧ s.dark = false ∧
    ok (exec (.referenceLoss .laneLock) s) (fun t => t.clock.phase == .awaitingSignal && t.clock.phaseCycles == []) = true ∧
    ok (exec (.referenceLoss .signal) s) (fun t => t.clock.phase == .awaitingSignal && t.index == []) = true := by decide +kernel

theorem test_drain_and_return : let s := fun (d r : Bool) => { aligned with
      clock := { aligned.clock with coasting := true, alignDone := false, drained := d, restartPending := r }, index := [(0x401200, 5)] }
    (s false false).anyRunning = false ∧
    ok (exec .drainComplete (s false false)) (fun t => t.clock.drained && t.clock.coasting) = true ∧
    ok (exec .drainComplete (s false true)) (fun t => t.clock.phase == .clockRecovery && !t.clock.coasting && t.index == []) = true ∧
    ok (exec .signalReturn (s false false)) (fun t => t.clock.restartPending) = true ∧
    ok (exec .signalReturn (s true false)) (fun t => t.clock.phase == .clockRecovery && t.index == []) = true := by decide +kernel

/-! ### Links and the switch -/

theorem test_links : let r := { locked with creditSeen := true, cleanStitch := true, spent := [(4, 9)] }
    let f := { Frame.blank with sender := some (9, 0, 2), inPort := 0xFF, vc := 4 }
    let q := upPort.setQueue 4 { Queue.reset with frames := [f] }
    let s := { ported 3 q with cores := { aligned.cores with cmds := [running] } }
    Canonical (ported 3 r) ∧ (ported 3 r).linkReady 3 = true ∧ aligned.linkReady 3 = false ∧ (ported 3 r).native 3 = true ∧
    (ported 3 r).codewordLock 3 = true ∧ (ported 3 r).markerLock 3 = true ∧ (ported 3 r).served = true ∧
    ok (exec (.linkUp 3) (ported 3 r)) (fun t => (t.port 3).up && (t.port 3).spent == []) = true ∧ stays (.linkUp 3) aligned = true ∧
    ok (exec (.linkDown 3) (ported 3 upPort)) (fun t => !(t.port 3).up && !t.clock.coasting) = true ∧
    Canonical s ∧ s.feeds 3 = false ∧ s.paired = false ∧ fwf Queue.reset q.queues = true ∧ s.cmd 9 0 = some running ∧
    ok (exec (.linkDown 3) s) (fun t => !(t.port 3).up && t.idx 0x3008 3 == 1 && ((t.port 3).queue 4).frames == [] &&
      (t.cmd 9 0).any (fun (k : Cmd) => k.sentItems == [2] && k.failed == [(2, 8, Counts.zero)])) = true ∧
    ok (exec (.linkDown 128) (ported 128 upPort)) (fun t => t.clock.coasting && t.clock.lossCause == 4) = true ∧
    stays (.linkDown 3) aligned = true := by decide +kernel

theorem test_link_retry : let s := ported 3 upPort
    let w := ported 3 { upPort with retry := some (7, 9, 0), retrySent := true }
    let late := { w with clock := { w.clock with stitch := 2, base := 3200 } }
    let compat := s.idxSet 0x3001 3 4
    s.native 3 = true ∧ Canonical s ∧ s.dark = false ∧ compat.mode 3 = 4 ∧ Canonical compat ∧
    ok (exec (.uncorrectableCodeword 3 7 9) s) (fun t => (t.port 3).retry == some (7, 9, 0) && (t.port 3).dirty && t.creditDue 3 &&
      !t.receives 3 && t.idx 0x3006 3 == 2 ^ 32) = true ∧
    ok (exec (.uncorrectableCodeword 3 7 9) compat) (fun t => t.ports == compat.ports && t.idx 0x3006 3 == 2 ^ 32) = true ∧
    ok (exec (.replayArrival 3 7 9) w) (fun t => (t.port 3).retry == none && t.receives 3) = true ∧ late.now = 3200 ∧
    ok (exec (.retryTimeout 3) late) (fun t => !(t.port 3).up && t.idx 0x3007 3 == 1) = true ∧ stays (.retryTimeout 3) w = true ∧
    s.heldCodewords 3 0 0 = some 1 ∧ ok (exec (.retryControlBlock 3 0 0) s) (fun t => (t.port 3).replay == some (0, 0, 4) && !t.transmitterFree 3) = true ∧
    s.heldCodewords 3 7 0 = none ∧ ok (exec (.retryControlBlock 3 7 0) s) (fun t => !(t.port 3).up) = true ∧
    0 < s.laneCount 3 ∧ ok (exec (.codewordLock 3 0 false) s) (fun t => !(t.port 3).cleanStitch && (t.port 3).crossing == none) = true := by decide +kernel

theorem test_credits : let sent := { upPort with lanes := locked.lanes, crossing := some 4, creditFrame := [0] }
    let s := ported 3 sent
    let b := 2 * 2 ^ 252 + 2 ^ 248 + 15 * 2 ^ 244 + 5 * 2 ^ 200 + 2000 * 2 ^ 160 + 900 * 2 ^ 128
    let next := { s with clock := { s.clock with base := 1600 } }
    let ask := ported 3 { sent with retry := some (7, 9, 0) }
    let risen := { ported 3 { sent with freed := [(4, 64)], advertised := [4, 5, 6, 7].map (fun v => (v, s.limitNow 3 v)) } with
      clock := { s.clock with cycle := 32 } }
    s.transmits 3 = true ∧ s.native 3 = true ∧ (s.port 3).lastCredit < next.clock.base ∧ s.creditDue 3 = false ∧
    64 ≤ subMod 32 (risen.limitNow 3 4) (fget 0 (risen.port 3).advertised 4) ∧ fwf 0 (risen.port 3).advertised = true ∧
    ok (exec (.creditFrameSend 3) next) (fun t => (t.port 3).creditFrame == next.creditFrame 3 && (t.port 3).lastCredit == 1600) = true ∧
    ok (exec (.creditFrameSend 3) (ported 3 upPort)) (fun t => (t.port 3).creditFrame.length == 64) = true ∧
    ok (exec (.creditFrameSend 3) ask) (fun t => (t.port 3).retrySent) = true ∧
    ok (exec (.creditFrameSend 3) risen) (fun t => fget 0 (t.port 3).advertised 4 == risen.limitNow 3 4) = true ∧
    stays (.creditFrameSend 3) s = true ∧ (s.creditFrame 3).length = 64 ∧ s.delivers 3 = true ∧ s.dark = false ∧
    creditOk b = true ∧ bit b 31 = false ∧ creditOk (b + 2 ^ 192) = false ∧ fwf 0 (s.port 3).limit = true ∧
    ok (exec (.creditFrameReceive 3 (BitVec.ofNat 256 b)) s) (fun t => (t.port 3).partner == 0x500 && (t.port 3).openMask == 15 &&
      fget 0 (t.port 3).limit 4 == 2000 && fget 0 (t.port 3).limit 5 == 1000) = true ∧
    ok (exec (.creditFrameReceive 3 (BitVec.ofNat 256 (b + 2 ^ 192))) s) (fun t => t.idx 0x4005 0 == 1 && t.ports == s.ports) = true ∧
    ok (exec (.creditFrameReceive 3 (BitVec.ofNat 256 b)) (s.idxSet 0x3001 3 4)) (fun t => t.idx 0x3008 3 == 1 && t.ports == s.ports) = true := by
  decide +kernel

/-- An Index read of 0x1002.00 for folio 5, as a manager's frame carries it. -/
def indexRequest (op : Nat) (rs : List IndexRecord) : Frame :=
  aligned.indexFrame ⟨1, false, op, 0, rs.length, 5, 1, 77⟩ rs

theorem test_frame_lands : let s := (ported 3 upPort).idxSet 0x1002 0 5
    let b := (indexRequest 0 [requestRecord 0x1002 0 0 []]).bytes
    let h : FolioHeader := { FolioHeader.blank with vc := 4, destination := 9, source := 2, group := 0x55, count := 4, length := 16, check := crc32c (zeros 16) }
    let c := etherFrame 0x88B5 9 2 (h.encode ++ zeros 16)
    let e := parseFrame c
    Canonical s ∧ s.receives 3 = true ∧ b.length = 64 ∧ fcsOk b = true ∧ s.classOf (parseFrame b).etype = .index ∧ s.mode 3 = 1 ∧
    beAt b ((parseFrame b).body + 4) 2 = s.address ∧ bit (beAt b (parseFrame b).body 4) 27 = false ∧ fcsOk (b.drop 1) = false ∧
    fcsOk c = true ∧ 64 ≤ c.length ∧ s.classOf e.etype = .compute ∧ bits (beAt c e.body 1) 7 4 = 1 ∧ folioHeaderOk c e.body (c.length - 4 - e.body) = true ∧
    bits (beAt c e.body 4) 23 21 = 4 ∧ s.mem.poolErrors = [] ∧ s.switch.onDie.chain = 0 ∧ fwf 0 (s.port 3).charged = true ∧
    ok (exec (.frameLand 3 b) s) (fun t => (t.port 3).waiting.map (fun f => f.vc) == [7] && (t.port 3).charge 7 == 0) = true ∧
    ok (exec (.frameLand 3 c) s) (fun t => (t.port 3).waiting.map (fun f => (f.vc, f.handles)) == [(4, [0])] && (t.port 3).charge 4 == 1) = true ∧
    ok (exec (.frameLand 3 (b.set 40 1)) s) (fun t => (t.port 3).waiting == [] && t.idx 0x4005 0 == 1 && fget 0 (t.port 3).freed 7 == 1) = true ∧
    ok (exec (.frameLand 3 (b.take 63)) s) (fun t => (t.port 3).waiting == []) = true := by decide +kernel

theorem test_lookup : let s := (aligned.idxSet 0x1002 0 5)
    let at3 := fun (f : Frame) => s.setPort 3 { upPort with waiting := [f] }
    let own := { indexRequest 0 [] with inPort := 3 }
    let none' := { indexRequest 0 [] with inPort := 3, destination := 0 }
    let lost := { Frame.blank with cls := .compute, destination := 9, inPort := 3, vc := 4 }
    let local' := { lost with destination := 5, group := 0x55 }
    let ctx := (at3 local').setCtx 7 { Ctx.reset with declared := true, group := 0x55, slice := 2 }
    let via := ((at3 lost).idxSet 0x4400 0 (9 * 2 ^ 48 + 2 ^ 32 + 4)).setPort 4 upPort
    let back := { Frame.blank with cls := .ordinary, vid := 1, bytes := [0, 0, 0, 0, 0, 8, 0, 0, 0, 0, 0, 9], inPort := 3 }
    let b := { at3 back with switch := { s.switch with macs := [⟨1, 8, 3, true, 0⟩] } }
    Canonical (at3 own) ∧ s.takesAsOwn lost = false ∧ s.slotFor 9 = none ∧ b.macEntry 1 8 = some ⟨1, 8, 3, true, 0⟩ ∧ s.paired = false ∧
    isGroup (beAt (b.frameBytes back) 0 6) = false ∧ ctx.groupCtx 0x55 = some 7 ∧ via.routeTo lost = some 4 ∧ Canonical via ∧ Canonical ctx ∧
    fwf Queue.reset (via.port 4).queues = true ∧ (via.port 4).closed 4 = false ∧ via.mode 4 ≠ 4 ∧
    ok (exec (.lookup 3) (at3 own)) (fun t => t.switch.requests == [own] && (t.port 3).waiting == []) = true ∧
    ok (exec (.lookup 3) (at3 none')) (fun t => t.switch.requests == [] && (t.port 3).waiting == []) = true ∧
    ok (exec (.lookup 3) ctx) (fun t => t.switch.fragments == [(2, local')]) = true ∧
    ok (exec (.lookup 3) via) (fun t => ((t.port 4).queue 4).frames == [lost] && (t.port 3).waiting == []) = true ∧
    ok (exec (.lookup 3) (at3 lost)) (fun t => t.idx 0x4007 0 == 1) = true ∧
    ok (exec (.lookup 3) b) (fun t => (t.port 3).waiting == [] && t.idx 0x4005 0 == 1) = true := by decide +kernel

/-- A frame of 300 bytes takes two credits; the frame with a leaf is told by its count, the sent item by its number. -/
theorem test_egress : let f := { Frame.blank with length := 300, vc := 7 }
    let s := ported 3 (upPort.setQueue 7 { Queue.reset with frames := [f] })
    let u := (s.leaveHeads 3).wheelVisit 3
    let w := ported 3 (upPort.setQueue 2 { Queue.reset with wheel := some (5, 1) })
    let sends := fun (g : Frame) => ported 3 { upPort with sending := some g }
    let leaf := { sends { f with handles := [6] } with switch := { Switch.reset with counts := [(6, 2)] } }
    let item := { sends { f with sender := some (9, 0, 2) } with cores := { Cores.reset with cmds := [running] } }
    s.transmitterFree 3 = true ∧ u.selectQueue 3 = some 7 ∧ Canonical u ∧ fwf Queue.reset (u.port 3).queues = true ∧ fwf 0 (u.port 3).spent = true ∧
    ok (exec (.egressSelect 3) s) (fun t => (t.port 3).sending.isSome && fget 0 (t.port 3).spent 7 == 2 &&
      ((t.port 3).queue 7).frames == []) = true ∧
    ok (exec (.wheelSlot 3) { w with clock := { w.clock with cycle := 80 } }) (fun t => ((t.port 3).queue 2).wheel == some (5, 0)) = true ∧
    ok (exec (.wheelSlot 3) { w with clock := { w.clock with cycle := 79 } }) (fun t => ((t.port 3).queue 2).wheel == some (5, 1)) = true ∧
    ok (exec (.frameTransmitted 3) (sends f)) (fun t => (t.port 3).sending == none && t.idx 0x415F 3 == 300 + aligned.idx 0x4016 3) = true ∧
    leaf.leafCount 6 = 2 ∧ fwf 0 leaf.switch.counts = true ∧ leaf.mem.poolErrors = [] ∧
    ok (exec (.frameTransmitted 3) leaf) (fun t => (t.port 3).sending == none && t.leafCount 6 == 1) = true ∧ item.cmd 9 0 = some running ∧
    ok (exec (.frameTransmitted 3) item) (fun t => (t.cmd 9 0).any (fun (k : Cmd) => k.sentItems == [2] && k.failed == [])) = true := by decide +kernel

theorem test_aging : let e : MacEntry := ⟨1, 8, 3, false, 0⟩
    let s := fun (n : Nat) => { aligned.idxSet 0x4012 0 2 with
      switch := { Switch.reset with macs := [e] }, clock := { aligned.clock with stitch := n } }
    (s 0).macEntry 1 8 = some e ∧ ok (exec (.macAging 1 8) (s 1562500)) (fun t => t.switch.macs == []) = true ∧
    stays (.macAging 1 8) (s 1562499) = true := by decide +kernel

theorem test_sampling : let q := aligned.idxSet 0x4020 0 4
    let m := { q with switch := { q.switch with sample := some [] } }
    m.idx 0x4020 0 = 4 ∧ Canonical m ∧
    ok (exec .queueSample m) (fun t => t.idx 0x4023 0 == 1 && t.switch.sample == none) = true ∧
    stays .queueSample q = true ∧ stays .queueSample { m with clock := { q.clock with stitch := 2 } } = true ∧
    stays .queueSample { m with clock := { q.clock with cycle := 1 } } = true := by decide +kernel

theorem test_scrub : let s := aligned.idxSet 0x7020 0 65536
    let e := fun p => { s with mem := { s.mem with cells := [(16, 1)], errors := [(1, p)] } }
    let done := (ok (exec (.scrubRead 16) s) (fun t => t.scrubDone false 0 16))
    Canonical (e 1) ∧ s.scrubbed false (s.now / (s.idx 0x7020 0 * s.fabricCycles)) = 0 ∧ symbolsHit 1 = 1 ∧ symbolsHit 0x101 = 2 ∧
    s.scrubDone false 0 16 = false ∧ fwf 0 s.mem.scrubbed = true ∧ 0 < s.fabricCycles ∧ done = true ∧
    ok (exec (.scrubRead 16) s) (fun t => t.scrubbed false 0 == 1 && stays (.scrubRead 16) t) = true ∧
    ok (exec (.scrubRead 16) (e 1)) (fun t => t.pattern 1 == 0 && t.mem.cells == [(16, 1)]) = true ∧
    ok (exec (.scrubRead 16) (e 0x101)) (fun t => t.pattern 1 == 0x101 && t.idx 0x7002 0 == 1) = true := by decide +kernel

/-! ### The Index -/

/-- The aligned folio with address 5. -/
def addressed : State := aligned.idxSet 0x1002 0 5

theorem test_register_writes : let e := (entryOf 0x1004 0).getD ⟨0, 0, 0, 0, .u16, .ro⟩
    Serves aligned ∧ entryOf 0x0000 0 = none ∧ ok (exec (.registerWrite 0x0000 0 []) aligned) (fun t => t.lastStatus == 3) = true ∧
    entryOf 0x1004 0 = some e ∧ aligned.writeForbidden e 0x1004 = true ∧ aligned.answers 0x1004 = true ∧
    ok (exec (.registerWrite 0x1004 0 [1]) aligned) (fun t => t.lastStatus == 4) = true ∧
    ok (exec (.registerWrite 0x4012 0 [1]) aligned) (fun t => t.lastStatus == 7) = true ∧
    ok (exec (.registerWrite 0x4012 0 [1, 2]) (powered (fun p => { p with railsAbsent := true }))) (fun t => t.lastStatus == 1) = true ∧
    Plain 0x4012 0 ∧ (entryOf 0x4012 0).any (fun e => !e.type.isBytes) = true ∧
    aligned.writeStatus aligned true [(0x4012, 0)] 0x4012 0 [1, 2] = 0 ∧
    ok (exec (.registerWrite 0x4012 0 [1, 2]) aligned) (fun t => t.lastStatus == 0 && t.idx 0x4012 0 == 258) = true ∧
    stays (.registerWrite 0x4012 0 [1, 2]) State.reset = true := by decide +kernel

theorem test_security_lock : let l := { aligned with boot := { Boot.reset with locked := true } }
    Serves aligned ∧ Serves bound ∧ Serves l ∧
    ok (exec .securityLock aligned) (fun t => t.boot.locked && t.lastStatus == 0) = true ∧
    ok (exec .securityLock l) (fun t => t.boot == l.boot && t.lastStatus == 0) = true ∧
    ok (exec .securityLock bound) (fun t => !t.boot.locked && t.lastStatus == 1) = true ∧
    (entryOf 0xA020 0).any (fun e => e.access == .rw || e.access == .rwi) = true ∧
    ok (exec (.registerWrite 0xA020 0 []) l) (fun t => t.lastStatus == 4) = true ∧
    ok (exec .droopClear l) (fun t => t.boot.locked) = true := by decide +kernel

/-- The folio with address 5 and port C up, one request of manager 1 waiting. -/
def requested (op : Nat) (rs : List IndexRecord) : State :=
  { addressed.setPort 128 upPort with switch := { Switch.reset with requests := [indexRequest op rs] } }

/-- The records that a request of manager 1 carries, as they are read. -/
def carried (op : Nat) (rs : List IndexRecord) : Option (List IndexRecord) :=
  requestRecords (IndexHeader.decode (indexBody (indexRequest op rs).bytes)) (indexBody (indexRequest op rs).bytes)

theorem test_index_reads : let rd := [requestRecord 0x1002 0 2 []]
    let s := requested 0
    RepliesLeave (s rd) ∧ Canonical (s rd) ∧ (s rd).served = true ∧ carried 0 rd = some rd ∧ carried 2 rd = some rd ∧ carried 5 rd = none ∧
    (s rd).popRequest.readStatus false 0x1002 0 2 = 0 ∧ (s rd).popRequest.readSize 0x1002 0 2 = 2 ∧
    (s rd).popRequest.readStatus true 0x1002 0 2 = 0 ∧
    ok (exec .indexRead (s rd)) (fun t => t.lastData == [0, 5] && t.switch.requests == [] && ((t.port 128).queue 7).frames.length == 1) = true ∧
    ok (exec .indexBlockRead (requested 2 rd)) (fun t => t.lastData == [0, 5] && t.lastStatus == 0) = true ∧
    ok (exec .indexRead (requested 5 rd)) (fun t => t.lastStatus == 8) = true := by decide +kernel

theorem test_index_writes : let wr := [requestRecord 0x4012 0 2 [1, 2]]
    let two := [requestRecord 0x4012 0 2 [1, 2], requestRecord 0x1004 0 1 [0]]
    let u := (requested 1 wr).popRequest
    Canonical (requested 1 wr) ∧ RepliesLeave (requested 1 wr) ∧ carried 1 wr = some wr ∧ carried 3 wr = some wr ∧ carried 3 two = some two ∧
    Plain 0x4012 0 ∧ u.writeStatus u false [(0x4012, 0)] 0x4012 0 [1, 2] = 0 ∧ (requested 1 wr).accessWaits wr = false ∧
    (requested 3 two).accessWaits two = false ∧ (State.foldWrites u true (recordGroup wr) wr 0 u).2 = none ∧
    (State.foldWrites u true (recordGroup two) two 0 u).2 = some (1, 4) ∧
    ok (exec .indexWrite (requested 1 wr)) (fun t => t.idx 0x4012 0 == 258 && t.lastStatus == 0 &&
      ((t.port 128).queue 7).frames.length == 1) = true ∧
    ok (exec .indexBlockWrite (requested 3 wr)) (fun t => t.idx 0x4012 0 == 258 && t.lastStatus == 0) = true ∧
    ok (exec .indexBlockWrite (requested 3 two)) (fun t => t.idx 0x4012 0 == addressed.idx 0x4012 0 && t.lastStatus == 5 &&
      ((t.port 128).queue 7).frames.length == 1) = true := by decide +kernel

/-- A reply to address d under a sequence, with records. -/
def indexReply (op d sequence : Nat) (rs : List IndexRecord) : Frame :=
  { aligned.indexFrame ⟨1, true, op, 0, rs.length, d, 1, sequence⟩ rs with destination := d, inPort := 3, vc := 7 }

theorem test_index_replies :
    let s := fun d => { addressed.setPort 128 upPort with switch := { Switch.reset with replies := [indexReply 0 d 9 []] } }
    Canonical (s 7) ∧ (s 7).served = true ∧ RepliesLeave (s 7) ∧ NoMirror (s 7) ∧ ((s 5).port 3).attach.step = 0 ∧
    ok (exec .indexReplyReceive (s 7)) (fun t => (((t.port 128).queue 7).frames).length == 1 && t.switch.replies == []) = true ∧
    ok (exec .indexReplyReceive (s 5)) (fun t => t.lastStatus == 0 && t.switch.replies == []) = true := by decide +kernel

/-- Whether a certificate is accepted is open: one of the two clauses for it applies to the reply that waits in `told`. -/
theorem test_attachment :
    let s := (((((addressed.idxSet 0x1010 0 1).idxSet 0x1012 0 0x100).idxSet 0x1015 0 100).idxSet 0x1022 3 1).idxSet 0x3100 3 1).setPort 3 upPort
    let w := s.setPort 3 { upPort with attach := ⟨4, some 9, 0x103, 0, 77, 0⟩ }
    let f := indexReply 3 5 77 []
    let id := [requestRecord 0x1001 0 8 (beBytes 8 77), requestRecord 0x1003 0 4 [1, 2, 3, 4]]
    let told := { s.setPort 3 { upPort with attach := ⟨1, none, 0, 0, 77, 0⟩ } with switch := { s.switch with replies := [indexReply 2 5 77 id] } }
    let g := indexReply 2 5 77 id
    Canonical s ∧ s.discovers 3 = true ∧ aligned.discovers 3 = false ∧ s.mode 3 = 1 ∧ fwf Queue.reset (s.port 3).queues = true ∧
    s.workerAddress 3 = 0x103 ∧ w.attaches 3 = true ∧ w.slotFor 0x103 = none ∧ Canonical w ∧
    ok (exec (.attachDiscovery 3) s) (fun t => (t.port 3).attach.step == 1 && ((t.port 3).queue 7).frames.length == 1) = true ∧
    ok (exec (.attachTimeout 3) { w with clock := { w.clock with stitch := 64 } }) (fun t => (t.port 3).attach.retryAt == 164) = true ∧
    stays (.attachTimeout 3) { w with clock := { w.clock with stitch := 63 } } = true ∧
    ok (exec .indexReplyReceive { w with switch := { w.switch with replies := [f] } }) (fun t => t.idx 0x1020 3 == 0x103 &&
      t.idx 0x1022 3 == 2 && t.idx 0x4400 9 == 0x103 * 2 ^ 48 + 2 ^ 32 + 3 && (t.port 3).attach == Attach.reset) = true ∧
    Canonical told ∧ told.attaches 3 = true ∧ told.emptySlot = some 0 ∧
    (readRecords (indexBody (told.frameBytes g)) true (IndexHeader.decode (indexBody (told.frameBytes g))).count 12).any (fun rs =>
      match rs with
      | [r, c] => r.status == 0 && c.status == 0 && r.data.length == 8 && beNat r.data == 77 && c.data == [1, 2, 3, 4]
      | _ => false) = true ∧ (IndexHeader.decode (indexBody (told.frameBytes g))).sequence = 77 := by decide +kernel

theorem test_addresses : let r := addressed.idxSet 0x1010 0 2
    Serves aligned ∧ Serves r ∧ Canonical r ∧ Serves bound ∧ Canonical aligned ∧
    ok (exec (.assignAddress 0xFFFE 2 9) aligned) (fun t => t.address == 0xFFFE && t.idx 0x1016 0 == 2 && t.idx 0x1011 0 == 9) = true ∧
    ok (exec (.assignAddress 0xFFFF 2 9) aligned) (fun t => t.address == 0 && t.lastStatus == 1) = true ∧
    ok (exec (.assignAddress 7 2 9) addressed) (fun t => t.address == 5 && t.lastStatus == 1 && t.idx 0x1016 0 == 0) = true ∧
    ok (exec (.registerWrite 0x1002 0 [0, 7]) aligned) (fun t => t.address == 0 && t.lastStatus == 1) = true ∧
    ok (exec (.folioRelease 5) r) (fun t => t.address == 0 && t.idx 0x1010 0 == 0 && t.lastStatus == 0) = true ∧
    ok (exec (.folioRelease 6) addressed) (fun t => t.address == 5 && t.lastStatus == 1) = true ∧
    ok (exec (.folioRelease 0) bound) (fun t => t.lastStatus == 1) = true := by decide +kernel

theorem test_routes : let v := BitVec.ofNat 64 (9 * 2 ^ 48 + 2 ^ 32 + 3)
    aligned.slotOk 16383 v.toNat = true ∧ aligned.slotTaken 0 = false ∧ aligned.slotOk 0 0 = true ∧ aligned.slotOk 0 (2 ^ 32 + 3) = false ∧
    ok (exec (.routeSlotWrite 16383 v) aligned) (fun t => t.idx 0x443F 255 == v.toNat && t.lastStatus == 0) = true ∧
    ok (exec (.routeSlotWrite 0 (BitVec.ofNat 64 (2 ^ 32 + 3))) aligned) (fun t => t.lastStatus == 1) = true := by decide +kernel

theorem test_bridge_tables : let e : MacEntry := ⟨4094, 8, 3, true, 0⟩
    let d : MacEntry := ⟨1, 9, 3, false, 0⟩
    let s := { aligned with switch := { Switch.reset with macs := [e, d] } }
    Serves s ∧ (s.macEntry 4094 8).isSome = true ∧ aligned.macSetFull 2 5 = false ∧
    ok (exec (.macAddStatic 4094 8 0x80) s) (fun t => t.macEntry 4094 8 == some ⟨4094, 8, 0x80, true, 0⟩ && t.lastStatus == 0) = true ∧
    ok (exec (.macAddStatic 2 5 0) aligned) (fun t => t.macEntry 2 5 == some ⟨2, 5, 0, true, 0⟩) = true ∧
    ok (exec (.macDelete 4094 8) s) (fun t => t.switch.macs == [d]) = true ∧
    ok (exec (.macFlushDynamic 3) s) (fun t => t.switch.macs == [e]) = true ∧
    ok (exec (.macDelete 4095 8) s) (fun t => t.lastStatus == 1) = true ∧
    ok (exec (.vlanOperation 1 6 2) s) (fun t => fget (0, 0) t.switch.vlans 1 == (6, 2)) = true := by decide +kernel

theorem test_port_settings : let r := BitVec.ofNat 64 (1600000 * 2 ^ 32 + 10)
    let u := BitVec.ofNat 64 (16777215 * 2 ^ 32 + 9279)
    Serves aligned ∧ Canonical aligned ∧ fwf Bucket.reset (aligned.port 3).buckets = true ∧ fwf Queue.reset (aligned.port 3).queues = true ∧
    ok (exec (.policerWrite 3 0 false r) aligned) (fun t => t.lastStatus == 0 && t.idx 0x4200 3 == r.toNat &&
      (fget Bucket.reset (t.port 3).buckets 0).tp == bits (aligned.idx 0x4204 3) 63 32 * 10000) = true ∧
    ok (exec (.policerWrite 3 0 false 9) aligned) (fun t => t.lastStatus == 1) = true ∧
    ok (exec (.policerWrite 3 3 true u) aligned) (fun t => t.lastStatus == 0 && t.idx 0x4207 3 == u.toNat) = true ∧
    ok (exec (.shaperWrite 3 7 false 10) aligned) (fun t => t.lastStatus == 0 && t.idx 0x413F 3 == 10) = true ∧
    ok (exec (.shaperWrite 3 7 true 16777215) aligned) (fun t => t.lastStatus == 0 && t.idx 0x4147 3 == 16777215) = true := by decide +kernel

theorem test_port_modes : let o := [5, 6, 7].foldl (fun t p => State.idxSet t 0x3001 p 0) aligned
    let four := (((o.idxSet 0x3001 4 3).idxSet 0x3001 5 5).idxSet 0x3001 6 5).idxSet 0x3001 7 5
    o.modeOk 4 3 = true ∧ borrowsOf 4 3 = [5, 6, 7] ∧ aligned.modeOk 4 5 = false ∧ Canonical (o.setPort 4 upPort) ∧
    four.borrowed 4 = [5, 6, 7] ∧ four.modeOk 4 2 = true ∧ Canonical four ∧
    ok (exec (.portModeWrite 4 3) (o.setPort 4 upPort)) (fun t => t.mode 4 == 3 && t.mode 7 == 5 && !(t.port 4).up && t.lastStatus == 0) = true ∧
    ok (exec (.portModeWrite 4 2) four) (fun t => t.mode 4 == 2 && t.mode 5 == 5 && t.mode 6 == 0 && t.mode 7 == 0) = true ∧
    ok (exec (.portModeWrite 4 5) aligned) (fun t => t.lastStatus == 1) = true ∧
    ok (exec (.portModeWrite 4 3) bound) (fun t => t.lastStatus == 4) = true := by decide +kernel

/-- A frame waits on a lossless queue. -/
def waitingPool : State := ported 3 (upPort.setQueue 7 { Queue.reset with frames := [Frame.blank] })

theorem test_pool : let r := fun (s : State) => { s with switch := { s.switch with reinitSince := some 0 } }
    let owed := fun (s : State) => { r s with switch := { (r s).switch with reinitReply := some (indexReply 3 0 9 []) } }
    let late := fun (s : State) => { s with clock := { s.clock with stitch := 1024 } }
    Serves aligned ∧ aligned.switch.reinitSince = none ∧ Canonical aligned ∧ Canonical waitingPool ∧
    ok (exec .poolReinitialize bound) (fun t => t.lastStatus == 1) = true ∧
    fwf Queue.reset (aligned.port 3).queues = true ∧
    ok (exec .poolReinitialize (r aligned)) (fun t => t.lastStatus == 1) = true ∧
    aligned.losslessEmpty = true ∧ waitingPool.losslessEmpty = false ∧
    stays .poolReinitDrainEnd (r waitingPool) = true ∧
    ok (exec .poolReinitDrainEnd (late (r waitingPool))) (fun t => t.switch.reinitSince == none && t.switch.onDie == LeafList.reset &&
      t.switch.counts == [] && t.switch.poolStatus == 0 && t.idx 0x4049 0 == 1) = true ∧
    ok (exec .poolReinitDrainEnd (owed aligned)) (fun t => t.switch.replies.length == 1 && t.switch.reinitReply == none) = true :=
  by decide +kernel

theorem test_leaves : let s := fun (l : LeafList) => { aligned with switch := { Switch.reset with onDie := l } }
    let twice := fun (h : Nat) => { aligned with switch := { Switch.reset with counts := [(h, 2)] } }
    Serves aligned ∧ Canonical (twice 7) ∧ fwf 0 (twice 7).switch.counts = true ∧ aligned.mem.poolErrors = [] ∧
    aligned.switch.external.fresh < aligned.switch.externalSize ∧ aligned.switch.externalSize ≤ 2 ^ 28 ∧
    ok (exec .diagAllocOnDie (s ⟨nilHandle, 0, 0x5FFFF⟩)) (fun t => t.idx 0xF041 0 == 0x5FFFF && t.leafCount 0x5FFFF == 1) = true ∧
    ok (exec .diagAllocOnDie (s ⟨nilHandle, 0, 0x60000⟩)) (fun t => t.idx 0xF041 0 == 0xFFFFFFFF) = true ∧
    ok (exec .diagAllocOnDie (s ⟨7, 1, 9⟩)) (fun t => t.idx 0xF041 0 == 7 && t.switch.onDie.chain == 0) = true ∧
    ok (exec .diagAllocExternal aligned) (fun t => t.idx 0xF041 0 == 0x80000000 && t.switch.external.fresh == 1) = true ∧
    isExternal 7 = false ∧ aligned.leafCount 7 = 0 ∧ isExternal 0x80000007 = true ∧ aligned.leafCount 0x80000007 = 0 ∧
    ok (exec (.diagFree 7) aligned) (fun t => t.switch.onDie == ⟨7, 1, 0⟩ && t.leafCount 7 == 255) = true ∧
    ok (exec (.diagFree 0x80000007) aligned) (fun t => t.switch.external == ⟨0x80000007, 1, 0⟩ && t.leafCount 0x80000007 == 255) = true ∧
    ok (exec (.diagFree 7) (twice 7)) (fun t => t.leafCount 7 == 1) = true ∧
    ok (exec (.diagRef 7 255) aligned) (fun t => t.leafCount 7 == 255) = true := by decide +kernel

theorem test_clears : let s := { (aligned.idxSet 0x4023 0 9).idxSet 0x9004 2 5 with domains := [(ikey 0x4148 3, [1])] }
    Canonical s ∧ ok (exec .histogramClear s) (fun t => t.idx 0x4023 0 == 0 && t.domain 0x4148 3 == []) = true ∧
    ok (exec .droopClear s) (fun t => t.idx 0x9004 2 == 0xFFFF && t.idx 0x4023 0 == 9) = true := by decide +kernel

theorem test_host_memory : let s := aligned.idxSet 0x7010 0 0xC7FFFFFF8
    let d : Bytes := [1, 2, 3, 4, 5, 6, 7, 8]
    let bad := { s with mem := { s.mem with errors := [(0xC7FFFFFF, 0x11)] } }
    let guarded := aligned.idxSet 0x7010 0 imemBase
    Canonical s ∧ Serves s ∧ Sound s ∧ s.hostProtected 0xC7FFFFFF8 8 = false ∧ Canonical bad ∧ Canonical guarded ∧
    symbolsHit (bad.pattern (0xC7FFFFFF8 / 16)) = 2 ∧ guarded.hostProtected imemBase 8 = true ∧
    ok (exec (.hostMemoryWrite d) s) (fun t => t.lastStatus == 0 && t.loadByte 0xC7FFFFFFF == 8) = true ∧
    ok (exec (.hostMemoryWrite (d.take 7)) s) (fun t => t.lastStatus == 1) = true ∧
    ok (exec (.hostMemoryWrite d) guarded) (fun t => t.lastStatus == 1) = true ∧
    ok (exec (.hostMemoryRead 8) s) (fun t => t.lastData == zeros 8 && t.lastStatus == 0) = true ∧
    ok (exec (.hostMemoryRead 8) bad) (fun t => t.lastStatus == 1 && t.idx 0x7012 0 == 0xC7FFFFFF0) = true := by decide +kernel

/-! ### Binding -/

/-- The generator as an operator's or the vendor's key. -/
def testKey : Bytes := [4] ++ beBytes 48 curveGx ++ beBytes 48 curveGy

/-- The header of an image whose declaration has d bytes and which has no section. -/
def imageHead (d : Nat) : Bytes :=
  ascii "TFBIND01" ++ leBytes 56 (1 + (272 + d) * 2 ^ 64 + 64 * 2 ^ 192 + d * 2 ^ 256 + (64 + d) * 2 ^ 320)

/-- The signature block of an image for the key, with its second half. -/
def imageTail (s : Nat) : Bytes := testKey ++ zeros 15 ++ beBytes 48 curveGx ++ beBytes 48 s

/-- A smallest image: one unit record that names no unit, signed for that key. -/
def smallImage : Bytes :=
  imageHead 32 ++ leBytes 32 (1 + 32 * 2 ^ 32) ++
    imageTail 0x82b7e84e10133fea568b221c35e71bd2e440aec6167772f9e216d0d656b5f1ff4caf34c4ab4b7cb89caa2b07378ee0ba

/-- The same with a scratch region of 8 bytes at 0x1000. -/
def scratchImage : Bytes :=
  imageHead 64 ++ leBytes 32 (1 + 32 * 2 ^ 32) ++
    leBytes 32 (8 + 32 * 2 ^ 32 + 4 * 2 ^ 64 + 0xFFFFFFFF * 2 ^ 96 + 0x1000 * 2 ^ 128 + 8 * 2 ^ 192) ++
    imageTail 0x2ff00511cd1933c6c0c55e8478ad17ef3d6447fa9d4d276a2fe4830dfdfa47da41caf92d15aaf7161b3eca4897a1b526

/-- Firmware runs. -/
def firm : State := { aligned with boot := { Boot.reset with state := 2 } }

/-- An image stands in the staging region. -/
def holding (b : Bytes) : State :=
  { firm with mem := { firm.mem with
      cells := ((List.range b.length).map (fun i => (firm.stagingBase + i, b.getD i 0))).filter (fun e => e.2 != 0) } }.idxSet 0x5086 0 b.length

/-- The key of an image is registered. -/
def keyed (s : State) : State := s.domainSet 0xA020 0 (sha384 testKey)

/-- The smallest image, its key registered. -/
def staged : State := keyed (holding smallImage)

/-- The image with a scratch region, whose word carries an uncorrectable error. -/
def scratchy : State := let s := keyed (holding scratchImage); { s with mem := { s.mem with errors := [(0x100, 0x11)] } }

/-- A context whose one item is open: the CSTEP of the running command opened its step. -/
def lone : Ctx := { Ctx.reset with declared := true, state := ctxOpen, stepCmd := some (9, 0), count := 1 }

/-- A binding runs in which that command and context are all there is. -/
def loneState : State := { (bound.setCtx 7 lone) with cores := { Cores.reset with cmds := [running] } }

theorem test_images_staged : let d := zeros 8 ++ [1, 2]
    Serves aligned ∧ Canonical aligned ∧ InLimits aligned ∧ lpddrBase ≤ aligned.stagingBase ∧
    aligned.stagingBase + aligned.stagingSize ≤ deviceArea ∧
    ok (exec (.imageSegment d) aligned) (fun t => t.idx 0x5086 0 == 2 && t.stagedImage.2 == [1, 2]) = true ∧
    ok (exec (.imageSegment (d.take 7)) aligned) (fun t => t.lastStatus == 1) = true ∧
    ok (exec (.imageSegment (zeros 8)) aligned) (fun t => t.lastStatus == 0 && t.idx 0x5086 0 == 0) = true ∧
    ok (exec (.imageSegment (beBytes 8 (aligned.stagingSize - 1) ++ [1, 2])) aligned) (fun t => t.lastStatus == 1) = true ∧
    ok (exec (.imageSegment d) bound) (fun t => t.lastStatus == 1) = true ∧
    ok (exec .discard { aligned with mem := aligned.mem.setBytes aligned.stagingBase [7] }) (fun t => t.idx 0x5086 0 == 0 && t.loadByte t.stagingBase == 0 && t.mem.cells == []) = true ∧
    aligned.overflowBase = deviceArea - 16 * 2 ^ 30 ∧ aligned.stagingBase = aligned.overflowBase - aligned.stagingSize ∧ aligned.idx 0x5083 0 ≤ 256 ∧
    aligned.idx 0x5083 0 ≠ 256 ∧
    ok (exec (.stagingSizeWrite 256) aligned) (fun t => t.stagingBase + 256 * 2 ^ 30 == aligned.overflowBase && t.lastStatus == 0) = true ∧
    ok (exec (.stagingSizeWrite 15) aligned) (fun t => t.lastStatus == 1) = true := by decide +kernel

/-- The staged bytes are the image, which passes every check and can be installed. -/
theorem test_load_accepts : staged.stagedImage.2 = smallImage ∧ scratchy.stagedImage.2 = scratchImage := by decide +kernel

theorem test_load_checks : (match parseImage smallImage with
    | .ok m => m == ⟨smallImage, [], [⟨1, 64, 32⟩]⟩
    | .error _ => false) = true := by decide +kernel

theorem test_load_passes : let m : Image := ⟨smallImage, [], [⟨1, 64, 32⟩]⟩
    Serves staged ∧ Canonical staged ∧ staged.firmwareRunning = true ∧ staged.binding.loaded = false ∧
    staged.checkImage m = none ∧ (staged.clearBinding.fillAll m m.stashOf).2 = none := by decide +kernel

/-- A word that cannot be read under a scratch region: the image is found sound and its installation fails. -/
theorem test_load_fails : let m : Image := ⟨scratchImage, [], [⟨1, 64, 32⟩, ⟨8, 96, 32⟩]⟩
    (match parseImage scratchImage with
    | .ok i => i == m
    | .error _ => false) = true ∧ Serves scratchy ∧ Canonical scratchy ∧
    scratchy.checkImage m = none ∧ (scratchy.clearBinding.fillAll m m.stashOf).2 = some 0x1000 := by decide +kernel

/-- No operator's key is registered. -/
theorem test_load_unregistered : Serves (holding smallImage) ∧ Canonical (holding smallImage) ∧
    (holding smallImage).checkImage ⟨smallImage, [], [⟨1, 64, 32⟩]⟩ = some (2, 0) := by decide +kernel

theorem test_load_refuses : (match parseImage firm.stagedImage.2 with | .ok _ => 1 | .error o => o) = 0 ∧ Canonical firm ∧
    ok (exec .load firm) (fun t => t.binding.refusal == 3 && t.colophonPhase == 2 && !t.binding.loaded) = true ∧
    firm.firmwareRunning = true ∧ aligned.firmwareRunning = false ∧ aligned.boot.state ≠ 2 ∧ Serves aligned ∧
    ok (exec .load aligned) (fun t => t.lastStatus == 1) = true ∧
    aligned.writeStatus aligned false [] 0x5081 0 [1] = 1 := by decide +kernel

theorem test_cores_start : let s := { bound with
        binding := { bound.binding with coresPending := true }, cores := { Cores.reset with cores := [(3, { Core.reset with declared := true, entry := 9 })] } }
    let late := { s with clock := { s.clock with stitch := 7 }, binding := { s.binding with startStitch := 6 } }
    (s.core 3).declared = true ∧ s.clock.cycle = 0 ∧
    ok (exec .coresStart s) (fun t => (t.core 3).run == .running && (t.core 3).pc == 9 && (t.core 4).run == .idle && !bit t.binding.flags 19) = true ∧
    ok (exec .coresStart late) (fun t => (t.core 3).run == .running && bit t.binding.flags 19) = true ∧
    stays .coresStart { s with binding := { s.binding with startStitch := 1 } } = true := by decide +kernel

theorem test_bindings_are_released :
    let run := (coreAt 3 0 (fun c => c)).setCore 2 { Core.reset with run := .halted }
    let b := { run with binding := { Binding.reset with loaded := true } }
    Quiet b ∧ Serves b ∧ Serves loneState ∧ Canonical loneState ∧ Lone 7 lone running loneState ∧ loneState.binding.loaded = true ∧
    ok (exec .bindingRelease b) (fun t => (t.core 3).run == .stopped && (t.core 2).run == .halted && t.binding.releasing && t.binding.loaded) = true ∧
    ok (exec .bindingRelease loneState) (fun t => (t.ctx 7).state == ctxIdle && (t.ctx 7).expected == 0 && t.cores.cmds == []) = true ∧
    Canonical { b with binding := { b.binding with releasing := true } } ∧
    ok (exec .releaseComplete { b with binding := { b.binding with releasing := true } }) (fun t => !t.binding.loaded && !t.binding.releasing) = true ∧
    stays .releaseComplete b = true ∧ stays .releaseComplete { loneState with binding := { loneState.binding with releasing := true } } = true ∧
    ok (exec .bindingRelease aligned) (fun t => t.lastStatus == 1) = true := by decide +kernel

theorem test_overlays : let s := { bound with
        binding := { bound.binding with overlays := [(5, 64, 4096, 16)] }, cores := { Cores.reset with regionKind := [(1, 1), (64, 2)] } }
    let l := { s with cores := { s.cores with regionLoading := [(64, (6, 0, 0))] } }
    Serves s ∧ Canonical s ∧ Sound s ∧ InLimits s ∧ lpddrBase ≤ s.stagingBase + 4096 ∧ (s.stagingBase + 4096) % 16 = 0 ∧
    s.stagingBase + 4096 + 16 ≤ deviceArea ∧ s.regionStatus 64 5 = 0 ∧ s.overlayFor 64 5 = some (4096, 16) ∧ s.regionStatus 1 5 = 1 ∧ s.regionStatus 64 6 = 1 ∧ l.regionStatus 64 5 = 2 ∧
    fwf (0, 0, 0) l.cores.regionLoading = true ∧ fwf 0xFFFF l.cores.regionOverlay = true ∧
    ok (exec (.regionLoad 64 5) s) (fun t => fget (0, 0, 0) t.cores.regionLoading 64 == (6, 0, 0) && t.lastStatus == 0) = true ∧
    ok (exec (.regionLoad 1 5) s) (fun t => t.lastStatus == 1) = true ∧ ok (exec (.regionLoad 64 5) l) (fun t => t.lastStatus == 2) = true ∧
    ok (exec (.overlayLoadDone 64) { l with mem := l.mem.setBytes (l.stagingBase + 4096) (leBytes 16 77) }) (fun t =>
      fget 0xFFFF t.cores.regionOverlay 64 == 5 && t.cores.regionLoading == [] && t.loadByte (imemBase + 0x800000) == 77) = true ∧
    stays (.overlayLoadDone 64) s = true := by decide +kernel

theorem test_cores_and_rings : let s := coreAt 3 0 (fun c => { c with ringBase := 0x1000, ringSize := 64, producer := 5 })
    let m := { s with mem := s.mem.setBytes 0x1008 (leBytes 8 2) }
    let past := { s with mem := s.mem.setBytes 0x1008 (leBytes 8 6) }
    let q := { Cmd.make 3 0 ⟨0, noBatch, 1⟩ 0 0 [] with phase := .queued }
    let held := { coreAt 3 0 (fun c => c) with cores := { (coreAt 3 0 (fun c => c)).cores with cmds := [q] } }
    Canonical held ∧ held.cores.cmds = [q] ∧ (held.core 3).ringSize = 0 ∧
    ok (exec (.stopCore 3) held) (fun t => (t.core 3).run == .stopped && t.cores.cmds == [] && t.idx 0x5069 3 == 1) = true ∧
    2 ^ 63 ≤ subMod 64 5 (past.peek64 0x1008) ∧
    ok (exec (.consumerIndex 3 6) past) (fun t => t.lastStatus == 1) = true ∧
    Serves s ∧ Quiet s ∧ (s.core 3).run = .running ∧ Canonical m ∧ Sound m ∧ (m.core 3).ringSize ≠ 0 ∧
    ok (exec (.stopCore 3) s) (fun t => (t.core 3).run == .stopped && (t.core 3).regs == (s.core 3).regs && t.lastStatus == 0) = true ∧
    ok (exec (.stopCore 4) s) (fun t => t.cores == s.cores && t.lastStatus == 0) = true ∧
    ok (exec (.registerWrite 0x5073 3 [0]) s) (fun t => t.lastStatus == 1) = true ∧
    ok (exec (.consumerIndex 3 5) m) (fun t => t.peek64 0x1008 == 5 && t.lastStatus == 0) = true ∧
    ok (exec (.consumerIndex 3 6) m) (fun t => t.peek64 0x1008 == 2 && t.lastStatus == 1) = true ∧
    ok (exec (.consumerIndex 3 1) m) (fun t => t.peek64 0x1008 == 2 && t.lastStatus == 1) = true := by decide +kernel

theorem test_contexts : let s := fun n => aligned.setCtx 7 { Ctx.reset with declared := true, state := n }
    Canonical (s ctxFenced) ∧ Serves (s ctxFenced) ∧ Canonical (s ctxIdle) ∧ Lone 7 lone running loneState ∧ Canonical loneState ∧ Serves loneState ∧
    ok (exec (.contextReset 7) (s ctxFenced)) (fun t => (t.ctx 7).state == ctxIdle && t.lastStatus == 0) = true ∧
    ok (exec (.contextReset 7) (s ctxIdle)) (fun t => (t.ctx 7).state == ctxIdle && t.lastStatus == 0) = true ∧
    ok (exec (.contextReset 7) loneState) (fun t => (t.ctx 7).state == ctxIdle && (t.ctx 7).expected == 1 && (t.ctx 7).unclean &&
      t.cores.cmds == []) = true ∧
    ok (exec (.contextRestart 7 44) (s ctxIdle)) (fun t => (t.ctx 7).expected == 44 && (t.ctx 7).unclean) = true ∧
    ok (exec (.contextRestart 7 44) (s ctxFenced)) (fun t => t.lastStatus == 1) = true ∧
    ok (exec (.contextReset 8) (s ctxIdle)) (fun t => t.lastStatus == 1) = true := by decide +kernel

theorem test_runs_fail : let b := { (coreAt 3 0 (fun c => c)).idxSet 0x8030 0 9 with binding := { Binding.reset with loaded := true } }
    let failed := b.idxSet 0x8033 0 (2 ^ 63)
    let one := loneState.idxSet 0x8030 0 9
    Serves b ∧ Quiet b ∧ Canonical b ∧ b.runFailed = false ∧ failed.runFailed = true ∧
    Serves one ∧ Canonical one ∧ Lone 7 lone running one ∧ one.cores.cores = [] ∧ one.runFailed = false ∧
    ok (exec (.runFail 9) b) (fun t => t.runFailed && t.binding.phase == 6 && (t.core 3).run == .stopped) = true ∧
    ok (exec (.runFail 9) one) (fun t => t.runFailed && (t.ctx 7).state == ctxIdle && t.cores.cmds == []) = true ∧
    ok (exec (.runFail 9) failed) (fun t => t.idx 0x8033 0 == 2 ^ 63 && t.lastStatus == 0) = true ∧
    ok (exec (.runFail 8) b) (fun t => t.lastStatus == 1) = true ∧ ok (exec (.runFail 0) (b.idxSet 0x8030 0 0)) (fun t => t.lastStatus == 1) = true := by
  decide +kernel

/-! ### Firmware -/

/-- A smallest firmware image, signed for the key. -/
def smallFirmware : Bytes :=
  ascii "TFFIRM01" ++ leBytes 32 (1 + 352 * 2 ^ 64) ++
    leBytes 40 (80 + 16 * 2 ^ 32 + 96 * 2 ^ 64 + 16 * 2 ^ 96 + 112 * 2 ^ 128 + 16 * 2 ^ 160 + 128 * 2 ^ 192 + 16 * 2 ^ 224) ++ zeros 64 ++
    testKey ++ zeros 15 ++ beBytes 48 curveGx ++ beBytes 48 0x58f0fffd398b94baca2a9a14d44633a8d8d1d2b18f4e678cb54f1b9e1f2a9cf3efbfac670f35755de88fbd46c8553ea3

/-- The checks stand at a stage that ends now; the half holds the image. -/
def checking (n : Nat) (keys : List Bytes) : State :=
  { aligned with dev := { aligned.dev with fusedFirmwareKeys := keys }, mem := { aligned.mem with firmware := [smallFirmware, []] },
                 boot := { Boot.reset with state := 1, stage := n } }

theorem test_firmware_store : aligned.mem.firmware.length = 2 ∧
    ok (exec (.firmwareSegment (zeros 8 ++ [1, 2])) aligned) (fun t => t.firmwareHalf 0 == [1, 2] && t.firmwareHalf 1 == []) = true ∧
    ok (exec (.firmwareSegment (zeros 8)) aligned) (fun t => t.lastStatus == 0) = true ∧
    ok (exec (.firmwareSegment [1]) (checking 1 [])) (fun t => t.lastStatus == 1) = true ∧
    ok (exec .firmwareDiscard { aligned with mem := { aligned.mem with firmware := [[1], [2]] } }) (fun t => t.mem.firmware == [[], [2]]) = true ∧
    ok (exec .firmwareBoot aligned) (fun t => t.boot.state == 1 && t.boot.stage == 1 && t.boot.due == 200) = true ∧
    ok (exec .firmwareBoot bound) (fun t => t.lastStatus == 1) = true ∧
    ok (exec .firmwareBoot (checking 1 [])) (fun t => t.lastStatus == 1 && t.boot.stage == 1) = true := by decide +kernel

theorem test_boot_checks : let key := sha384 testKey
    let named := (checking 2 []).domainSet 0xA013 0 (zeros 47 ++ [1])
    (named.entryBytes 0xA013 0).any (· != 0) = true ∧ named.entryBytes 0xA013 0 ≠ sha384 (smallFirmware.take 144) ∧
    ok (exec .firmwareDigestDone named) (fun t => t.boot.state == 3 && t.boot.refusal == 4) = true ∧
    firmwareFault smallFirmware = none ∧ aligned.mem.firmwareErrors = [] ∧
    ok (exec .bootChecksDecided (checking 1 [key])) (fun t => t.boot.stage == 2 && t.boot.due == 18) = true ∧
    ok (exec .bootChecksDecided (checking 1 [])) (fun t => t.boot.state == 3 && t.boot.refusal == 2) = true ∧
    ok (exec .firmwareDigestDone (checking 2 [])) (fun t => t.boot.stage == 3 && t.boot.due == 204800) = true ∧
    stays .bootChecksDecided { checking 1 [key] with boot := { (checking 1 [key]).boot with due := 1 } } = true ∧
    ok (exec .firmwareStart (checking 4 [])) (fun t => t.boot.state == 2 && t.firmwareRunning && t.boot.everRan) = true := by decide +kernel

theorem test_boot_signature : let s := checking 3 []
    let d := { s with boot := { s.boot with digest := sha384 (smallFirmware.take 144) } }
    ok (exec .signatureCheckDone d) (fun t => t.boot.stage == 4 && t.boot.due == 200) = true ∧
    let ran := { s with boot := { s.boot with wasRunning := true } }
    ok (exec .signatureCheckDone ran) (fun t => t.boot.stage == 1 && t.boot.recheck && t.boot.refusal == 5) = true ∧
    ok (exec .signatureCheckDone s) (fun t => t.boot.state == 3 && t.boot.refusal == 5) = true := by decide +kernel

theorem test_firmware_halts_and_reports : let n := zeros 31 ++ [9]
    let p := fun (d : Nat) => { aligned with boot := { Boot.reset with reportState := 1, report := [1], reportDue := d } }
    let late := { p 3 with clock := { aligned.clock with cycle := 24 } }
    firm.clock.phase = .aligned ∧ n.length = 32 ∧ Serves aligned ∧
    ok (exec (.firmwareHalt 0x10) firm) (fun t => decide (2 ≤ t.stepRequested) && !t.firmwareRunning && t.boot.state == 4 && t.boot.haltReason == 0x10) = true ∧
    stays (.firmwareHalt 0x10) aligned = true ∧ late.reference = 3 ∧
    ok (exec (.attestationNonce n) aligned) (fun t => t.boot.nonce == n && t.boot.reportState == 1 && t.lastStatus == 0) = true ∧
    ok (exec (.attestationNonce n) (p 3)) (fun t => t.lastStatus == 1) = true ∧
    ok (exec .reportReady late) (fun t => t.boot.reportState == 2 && t.boot.issued == 1) = true ∧
    stays .reportReady { late with clock := { aligned.clock with cycle := 23 } } = true := by decide +kernel

/-! ### The control instructions of a core -/

/-- The word of a control instruction (Table 6.4). -/
def ctl (op sub rd ra rb aux imm : Nat) : Nat :=
  op * 2 ^ 120 + rd * 2 ^ 115 + ra * 2 ^ 110 + rb * 2 ^ 105 + sub * 2 ^ 97 + aux * 2 ^ 64 + imm

/-- The core reads this word and takes it. -/
def taken (s : State) (c op w : Nat) : Bool :=
  s.fetches c && (s.core c).inRegions (s.core c).pc && (s.fetchWord c).2 == (w, false) && wOp w == op && !bit w 96

/-- Core c takes this instruction, and then its record looks so. -/
def runs (i : CoreId → Instr) (c : CoreId) (s : State) (op w : Nat) (p : Core → Bool) : Bool :=
  taken s c op w && ok (exec (i c) s) (fun t => p (t.core c))

/-- Registers 1 and 2 hold these, and the core's window is open behind a point. -/
def withRegs (a b : Nat) (c : Core) : Core := { c with regs := [(1, a), (2, b)] }

theorem test_scalar_operations : scalarOp 0x08 (2 ^ 63) 1 = 3 * 2 ^ 62 ∧ scalarOp 0x06 3 65 = 6 ∧ scalarOp 0x01 0 1 = 2 ^ 64 - 1 ∧
    scalarOp 0x0D (2 ^ 63) 0 = 1 ∧ scalarOp 0x0E (2 ^ 63) 0 = 0 ∧ branchTaken 2 (2 ^ 63) 0 = true ∧ branchTaken 4 (2 ^ 63) 0 = false := by decide

theorem test_register_instructions : let s := fun w => coreAt 9 w (withRegs 5 (2 ^ 64 - 1))
    fwf 0 ((s 0).core 9).regs = true ∧
    runs .nop 9 (s (ctl 0 0 0 0 0 0 0)) 0x00 (ctl 0 0 0 0 0 0 0) (fun c => c.pc == 1) = true ∧
    runs .sop 9 (s (ctl 4 0 3 1 2 0 0)) 0x04 (ctl 4 0 3 1 2 0 0) (fun c => c.pc == 1 && c.reg 3 == 4) = true ∧
    runs .sop 9 (s (ctl 4 0x81 3 1 0 0 6)) 0x04 (ctl 4 0x81 3 1 0 0 6) (fun c => c.reg 3 == 2 ^ 64 - 1) = true ∧
    runs .ldi 9 (s (ctl 5 0 0 0 0 0 77)) 0x05 (ctl 5 0 0 0 0 0 77) (fun c => c.reg 0 == 0 && c.pc == 1) = true ∧
    runs .ldi 9 (s (ctl 5 0 31 0 0 0 77)) 0x05 (ctl 5 0 31 0 0 0 77) (fun c => c.reg 31 == 77) = true ∧
    runs .rdq 9 (s (ctl 0x0A 0 3 0 0 0x40 0)) 0x0A (ctl 0x0A 0 3 0 0 0x40 0) (fun c => c.reg 3 == 64 * 2 ^ 56 + 64 * 2 ^ 40) = true := by
  decide +kernel

theorem test_jumps : let s := fun w => coreAt 9 w (withRegs 5 5)
    runs .jmp 9 (s (ctl 2 0 0 1 0 0 8186)) 0x02 (ctl 2 0 0 1 0 0 8186) (fun c => c.pc == 8191) = true ∧
    runs .jmp 9 (s (ctl 2 0 0 1 0 0 8187)) 0x02 (ctl 2 0 0 1 0 0 8187) (fun c => c.run == .halted && c.pc == 0 && c.halt.getD 3 0 == 8192) = true ∧
    runs .br 9 (s (ctl 3 0 0 1 2 0 7)) 0x03 (ctl 3 0 0 1 2 0 7) (fun c => c.pc == 7) = true ∧
    runs .br 9 (s (ctl 3 1 0 1 2 0 7)) 0x03 (ctl 3 1 0 1 2 0 7) (fun c => c.pc == 1) = true ∧
    runs .br 9 (s (ctl 3 5 0 1 2 0 8192)) 0x03 (ctl 3 5 0 1 2 0 8192) (fun c => c.run == .halted && c.halt.getD 3 0 == 8192) = true := by
  decide +kernel

theorem test_loads_and_stores : let s := fun w => coreAt 9 w (withRegs 0x1000 (2 ^ 40 + 3))
    let win := windowBase + 8
    let z := s (ctl 7 0 0 1 2 0 8)
    let m := fun w => { s w with mem := (s w).mem.setBytes 0x1008 (leBytes 8 99) }
    Canonical z ∧ Sound z ∧ InLimits z ∧ Quiet z ∧ z.pattern (0x1008 / 16) = 0 ∧ z.inData 0x1008 8 = true ∧ z.spanWeights (0x1008, 0x1010) = false ∧ windowAt 0x1008 = none ∧ (z.core 9).runAhead = false ∧
    runs .lds 9 (m (ctl 6 0 3 1 0 0 8)) 0x06 (ctl 6 0 3 1 0 0 8) (fun c => c.reg 3 == 99) = true ∧
    runs .lds 9 (m (ctl 6 0 3 1 0 0 7)) 0x06 (ctl 6 0 3 1 0 0 7) (fun c => c.run == .halted && c.halt.getD 3 0 == 0x1007) = true ∧
    ok (exec (.sts 9) z) (fun t => t.peek64 0x1008 == 2 ^ 40 + 3 && t.peek64 0x1010 == 0 && (t.core 9).pc == 1) = true ∧
    runs .sts 9 (s (ctl 7 0 0 1 2 0 9)) 0x07 (ctl 7 0 0 1 2 0 9) (fun c => c.run == .halted && c.halt.getD 3 0 == 0x1009) = true ∧
    (windowAt win).any (fun x => z.present x.1 && !z.rowWritten x.1 x.2.1) = true ∧
    ok (exec (.sts 9) (s (ctl 7 0 0 0 2 0 win))) (fun t => (windowAt win).any (fun x => t.acc x.1 x.2.1 x.2.2 == (2 ^ 40 + 3) % 2 ^ 36)) = true ∧
    runs .lds 9 (s (ctl 6 0 3 0 0 0 win)) 0x06 (ctl 6 0 3 0 0 0 win) (fun c => c.reg 3 == 0x400000000) = true := by decide +kernel

theorem test_descriptors : let s := fun w => coreAt 9 w (withRegs 0x1000 5)
    let m := fun w => { s w with mem := (s w).mem.setBytes 0x1010 [1, 2] }
    Sound (m 0) ∧ InLimits (m 0) ∧ fwf 0 ((m 0).core 9).descs = true ∧ (m 0).inData 0x1010 160 = true ∧
    runs .ldd 9 (m (ctl 8 63 0 1 0 0 16)) 0x08 (ctl 8 63 0 1 0 0 16) (fun c => fget 0 c.descs 63 == 513) = true ∧
    runs .setd 9 (s (ctl 9 7 0 2 0 3 1)) 0x09 (ctl 9 7 0 2 0 3 1) (fun c => dBase (fget 0 c.descs 7) 3 == 6 && dTrip (fget 0 c.descs 7) 5 == 0) = true ∧
    runs .setd 9 (s (ctl 9 7 0 0 0 9 (2 ^ 24 - 1))) 0x09 (ctl 9 7 0 0 0 9 (2 ^ 24 - 1)) (fun c => dTrip (fget 0 c.descs 7) 5 == 2 ^ 24 - 1) = true := by
  decide +kernel

theorem test_points : let s := fun w => coreAt 9 w (withRegs 5 5)
    let late := fun w => { s w with clock := { aligned.clock with stitch := 9 } }
    runs .sync 9 (s (ctl 0x0B 0 0 0 0 255 0)) 0x0B (ctl 0x0B 0 0 0 0 255 0) (fun c => c.window.map (fun e => e.point) == [some (.sync 255)] && c.syncIssued == 1) = true ∧
    runs .waitc 9 (s (ctl 0x0D 4 0 1 0 0 0)) 0x0D (ctl 0x0D 4 0 1 0 0 0) (fun c => c.window.map (fun e => e.point) == [some (.waitc 4 5)]) = true ∧
    runs .waitst 9 (late (ctl 0x0E 0 0 1 0 (65536 + 4) 0)) 0x0E (ctl 0x0E 0 0 1 0 (65536 + 4) 0) (fun c => c.window.length == 1) = true ∧
    runs .waitst 9 (late (ctl 0x0E 0 0 1 0 (65536 + 3) 0)) 0x0E (ctl 0x0E 0 0 1 0 (65536 + 3) 0) (fun c => c.run == .halted && c.halt.getD 3 0 == 9) = true ∧
    runs .sig 9 (s (ctl 0x0C 4 0 0 0 0 0)) 0x0C (ctl 0x0C 4 0 0 0 0 0) (fun c => c.sigs == [⟨4, c.serial, 0⟩]) = true ∧
    runs .endCore 9 (s (ctl 1 0 0 0 0 0 0)) 0x01 (ctl 1 0 0 0 0 0 0) (fun c => c.run == .ended && c.pc == 1) = true ∧
    runs .endCore 9 (coreAt 9 (ctl 1 0 0 0 0 0 0) (fun c => { c with window := [⟨0, some (.sync 1), 0, 0⟩], syncIssued := 1 })) 0x01 (ctl 1 0 0 0 0 0 0)
      (fun c => c.run == .running && c.window.length == 2) = true := by decide +kernel

theorem test_commits : let p := fun k r => coreAt 9 0 (fun c => { c with window := ⟨0, some k, 0, 0⟩ :: r, syncIssued := 1 })
    let e : WinEntry := ⟨1, none, 0, 0⟩
    let g := fun n => coreAt 9 0 (fun c => { c with sigs := [⟨4, 0, n⟩] })
    (p (.sync 0x40) [e]).pointHolds 9 ⟨0, some (.sync 0x40), 0, 0⟩ = true ∧ (g 0).proofing = false ∧ ((g 0).core 9).declared = true ∧
    ok (exec (.syncPointCommit 9) (p (.sync 0x40) [e])) (fun t => (t.core 9).window == [] && (t.core 9).syncDone == 1) = true ∧
    ok (exec (.syncPointCommit 9) (p .endPoint [])) (fun t => (t.core 9).run == .ended) = true ∧
    stays (.syncPointCommit 9) (p (.waitc 4 1) [e]) = true ∧ stays (.syncPointCommit 9) (p (.waitst 1 false 0) []) = true ∧
    ok (exec (.sigApply 9) (g 0)) (fun t => fget 0 t.cores.syncs 4 == 1 && (t.core 9).sigs == []) = true ∧ stays (.sigApply 9) (g 1) = true := by
  decide +kernel

theorem test_index_instructions : let s := fun c w => coreAt c w (withRegs 7 5)
    let r := ctl 0x0F 0 3 0 4 (0x4012 * 256) 0
    let n := ctl 0x0F 0 3 0 4 0 0
    let w := ctl 0x10 0 3 1 0 (0x4012 * 256) 0
    let bad := ctl 0x10 0 3 1 0 (0x1004 * 256) 0
    let run := { s 9 (ctl 0x11 2 0 0 0 0 0) with boot := { Boot.reset with state := 2 } }
    let held := fun (x : State) => x.setCore 9 (x.core 9).holdRegion
    let busy := fun (x : State) => { x with switch := { x.switch with requests := [indexRequest 0 []] } }
    Canonical (s 9 w) ∧ Plain 0x4012 0 ∧ (held (s 9 w)).coreWrite 0x4012 0 7 = some [0, 7] ∧ (held (s 9 r)).coreRead 0x4012 0 = some 300 ∧
    taken (busy (s 9 r)) 9 0x0F r = true ∧ stays (.idxr 9) (busy (s 9 r)) = true ∧
    taken (busy (s 9 w)) 9 0x10 w = true ∧ stays (.idxw 9) (busy (s 9 w)) = true ∧
    wEntry w = (0x4012, 0) ∧ (s 9 r).coreRead 0x4012 0 = some 300 ∧ (s 9 n).coreRead 0 0 = none ∧ (s 9 bad).coreWrite 0x1004 0 7 = none ∧
    runs .idxr 9 (s 9 r) 0x0F r (fun c => c.reg 3 == 300 && c.reg 4 == 0) = true ∧
    runs .idxr 9 (s 9 n) 0x0F n (fun c => c.reg 3 == 0 && c.reg 4 == 1) = true ∧
    ok (exec (.idxw 9) (s 9 w)) (fun t => t.idx 0x4012 0 == 7 && (t.core 9).reg 3 == 0) = true ∧
    runs .idxw 9 (s 9 bad) 0x10 bad (fun c => c.reg 3 == 1 && c.pc == 1) = true ∧
    runs .idxw 10 (s 10 w) 0x10 w (fun c => c.run == .halted && bits (c.halt.getD 0 0) 63 56 == 0x0C) = true ∧
    ok (exec (.pstate 9) run) (fun t => t.clock.bindingReq == 2 && (t.core 9).pc == 1) = true ∧
    ok (exec (.pstate 9) { run with boot := Boot.reset }) (fun t => t.clock.bindingReq == 0 && (t.core 9).pc == 1) = true ∧
    runs .pstate 10 (s 10 (ctl 0x11 2 0 0 0 0 0)) 0x11 (ctl 0x11 2 0 0 0 0 0) (fun c => c.run == .halted) = true := by decide +kernel

theorem test_fetch_halts : let s := fun w => coreAt 9 w (withRegs 7 5)
    let bad := { s 0 with mem := (s 0).mem.setPattern (instrAddress 9 0 / 16) 0x101 }
    let out := coreAt 9 0 (fun c => { c with pc := 8192 })
    let idle := coreAt 9 0 (fun c => { c with run := .idle })
    (0xFF : Nat) ∉ opcodes ∧
    ok (exec (.illegalOpcode 9) (s (ctl 0xFF 0 0 0 0 0 0))) (fun t => (t.core 9).run == .halted && bits ((t.core 9).halt.getD 0 0) 63 56 == 1) = true ∧
    Quiet bad ∧ (bad.fetchWord 9).2.2 = true ∧ bad.fetches 9 = true ∧ (bad.core 9).inRegions 0 = true ∧
    ok (exec (.nop 9) (s (2 ^ 96))) (fun t => bits ((t.core 9).halt.getD 0 0) 63 56 == 2 && (t.core 9).halt.getD 3 0 == 96) = true ∧
    out.fetches 9 = true ∧ ok (exec (.nop 9) out) (fun t => bits ((t.core 9).halt.getD 0 0) 63 56 == 3 && (t.core 9).halt.getD 3 0 == 8192) = true ∧
    idle.fetches 9 = false ∧ stays (.nop 9) idle = true := by decide +kernel

/-! ### Commands and units -/

/-- The word of a command on a unit (Table 6.6) and its own fields; with descriptor 1 where it uses one. -/
def cmd (op unit rest : Nat) : Nat :=
  op * 2 ^ 120 + unit * 2 ^ 112 + (if op / 16 = 4 || op = 0x50 then 0 else 2 ^ 99) + rest

/-- A descriptor of one level: enables, trip count, and base, pitch and stride of its generators. -/
def level (on trip : Nat) (gens : List (Nat × Nat × Nat)) : Nat :=
  2 ^ 120 + on * 2 ^ 123 + trip +
    ((gens.zipIdx).map (fun e => (e.1.1 + e.1.2.1 * 2 ^ 48 + e.1.2.2 * 2 ^ 64) * 2 ^ (256 * (e.2 + 1)))).foldl (· + ·) 0

/-- A SUM of sixteen FP32 elements from two contributors, emitted to memory. -/
def sumCtx : Ctx :=
  { Ctx.reset with declared := true, state := ctxIdle, group := 0x55, shape := 2 ^ 48 + 2 ^ 32 + 15 * 2 ^ 16,
                   program := [2 ^ 26, 13 * 2 ^ 26 + 1, 0], dests := [2 ^ 60 + 0x4000] }

/-- Core 9 takes a command word with a descriptor; its rows, a context and a stash of two slots are declared. -/
def issuing (w d : Nat) : State :=
  let s := (coreAt 9 w (fun c => { c with descs := [(1, d)] })).setCtx 7 sumCtx
  { s with binding := { bound.binding with rows := [(0, 9, 0, 0, 16)] }
           stash := { Stash.reset with slotCount := 2, sets := [(3, { WeightSet.reset with kind := 2, size := 4096 })] } }

/-- Core 9 takes the command, and one command then waits in the queue of its unit. -/
def issues (i : Instr) (op unit rest d : Nat) (check : State → Header → Option Halt) : Bool :=
  let s := issuing (cmd op unit rest) d
  taken s 9 op (cmd op unit rest) && (check s (header (s.core 9) (cmd op unit rest))).isNone &&
    ok (exec i s) (fun t => (t.core 9).pc == 1 && (t.core 9).run == .running && t.cores.cmds.map (fun k => (k.opcode, k.unit, k.serial)) == [(op, unit, 0)])

def prodDesc : Nat := level 7 2 [(0x1000, 0, 64), (0x2000, 1, 0), (0, 0, 1)]
def woutDesc : Nat := level 3 1 [(0, 0, 1), (0x3000, 0, 0)]
def copyDesc : Nat := level 3 2 [(0x1000, 0, 64), (0x2000, 0, 64)]
def prodWord : Nat := 1 * 2 ^ 92 + 1 * 2 ^ 88 + 16 * 2 ^ 23 + 4 * 2 ^ 13

theorem test_commands_enter : 
    issues (.prod 9) 0x20 0 prodWord prodDesc (fun s h => s.prodChecks 9 (cmd 0x20 0 prodWord) h prodDesc 0) = true ∧
    issues (.wout 9) 0x21 0 (2 ^ 67) woutDesc (fun s h => s.woutChecks 9 (cmd 0x21 0 (2 ^ 67)) h woutDesc) = true ∧
    issues (.vop 9) 0x30 0x40 0 (level 9 4 [(0x1000, 0, 4), (0, 0, 0), (0, 0, 0), (0x2000, 0, 4)])
      (fun s h => s.vopChecks (cmd 0x30 0x40 0) h (level 9 4 [(0x1000, 0, 4), (0, 0, 0), (0, 0, 0), (0x2000, 0, 4)]) 0) = true ∧
    issues (.vred 9) 0x31 0x40 (2 ^ 76) (level 9 4 [(0x1000, 0, 4), (0, 0, 0), (0, 0, 0), (0x2000, 0, 0)])
      (fun s h => s.vredChecks (cmd 0x31 0x40 (2 ^ 76)) h (level 9 4 [(0x1000, 0, 4), (0, 0, 0), (0, 0, 0), (0x2000, 0, 0)])) = true ∧
    issues (.copy 9) 0x60 0x90 0 copyDesc (fun s h => s.copyChecks (cmd 0x60 0x90 0) h copyDesc) = true := by decide +kernel

theorem test_collator_commands_enter : Canonical (issuing 0 0) ∧
    issues (.csub 9) 0x51 0x80 (7 * 2 ^ 84) (level 1 16 [(0x1000, 0, 4)])
      (fun s h => s.csubChecks (cmd 0x51 0x80 (7 * 2 ^ 84)) h (level 1 16 [(0x1000, 0, 4)])) = true ∧
    issues (.fsend 9) 0x61 0x90 (9 * 2 ^ 80 + 4 * 2 ^ 77 + 7 * 2 ^ 65) (level 1 1 [(0x1000, 0, 64)])
      (fun s h => s.fsendChecks (cmd 0x61 0x90 (9 * 2 ^ 80 + 4 * 2 ^ 77 + 7 * 2 ^ 65)) h (level 1 1 [(0x1000, 0, 64)])) = true ∧
    issues (.wout 9) 0x21 0 (3 * 2 ^ 86 + 2 ^ 67 + 9 * 2 ^ 51 + 4 * 2 ^ 48 + 7 * 2 ^ 36) (level 1 1 [(0, 0, 1)])
      (fun s h => s.woutChecks 9 (cmd 0x21 0 (3 * 2 ^ 86 + 2 ^ 67 + 9 * 2 ^ 51 + 4 * 2 ^ 48 + 7 * 2 ^ 36)) h (level 1 1 [(0, 0, 1)])) = true ∧
    issues (.cstep 9) 0x50 0x80 (7 * 2 ^ 84 + 2 ^ 30) 0
      (fun s h => s.cstepChecks (cmd 0x50 0x80 (7 * 2 ^ 84 + 2 ^ 30)) h) = true := by decide +kernel

/-- A COPY of core 9 with a serial, as it stands in its queue. -/
def copyCmd (n : Nat) (p : CmdPhase) : Cmd :=
  { Cmd.make 9 (cmd 0x60 0x90 0) ⟨0x90, noBatch, 1⟩ copyDesc 0 [] with serial := n, phase := p }

theorem test_queues_fill : let full := List.replicate 64 (copyCmd 0 .queued)
    let at9 := fun (w : Nat) k => { issuing w copyDesc with cores := { (issuing w copyDesc).cores with cmds := k } }
    let w := cmd 0x60 0x90 0
    let sub := { (coreAt 10 w (fun c => { c with descs := [(1, copyDesc)] })) with binding := bound.binding }
    let sub := { sub with cores := { sub.cores with cmds := full.map (fun k => { k with core := 10 }) } }
    let held := fun k => (at9 w k).setCore 9 { (issuing w copyDesc).core 9 with stalled := some (copyCmd 0 .queued) }
    ((at9 w full).queueOf 9 0x90).length = 64 ∧ (sub.queueOf 10 0x90).length = 64 ∧ taken sub 10 0x60 w = true ∧
    ok (exec (.copy 9) (at9 w full)) (fun t => (t.core 9).stalled.isSome && t.cores.cmds.length == 64) = true ∧
    ok (exec (.copy 10) sub) (fun t => (t.core 10).run == .halted && bits ((t.core 10).halt.getD 0 0) 63 56 == 4) = true ∧
    ok (exec (.queueStallRelease 9) (held [])) (fun t => (t.core 9).stalled.isNone && t.cores.cmds.length == 1 && (t.core 9).pc == 1) = true ∧
    stays (.queueStallRelease 9) (held full) = true ∧ stays (.queueStallRelease 9) (at9 w []) = true := by decide +kernel

theorem test_stash_commands : let batch := 2 ^ 110
    let s := fun w => issuing w 0
    let slot := fun x w => { s w with stash := { (s w).stash with slots := [(0, x)] } }
    let set := fun x w => { s w with stash := { (s w).stash with sets := [(3, x)] } }
    let held := { Slot.reset with state := 1, owner := 0 }
    let opened := { WeightSet.reset with kind := 2, openState := 2 }
    let claim := cmd 0x40 0x88 batch
    let rel := cmd 0x41 0x88 batch
    let ahead := fun (x : State) => x.setCore 9 { x.core 9 with window := [⟨0, some (.waitc 1 1), 0, 0⟩], syncIssued := 1 }
    let waits := fun (t : State) => t.cores.cmds.map (fun (k : Cmd) => k.phase) == [.queued]
    let openW := cmd 0x42 0x88 (3 * 2 ^ 88 + 2 ^ 56)
    let pub := cmd 0x43 0x88 (3 * 2 ^ 88)
    fwf Slot.reset (slot held 0).stash.slots = true ∧ fwf WeightSet.reset (set opened 0).stash.sets = true ∧
    (s claim).claimChecks claim (header ((s claim).core 9) claim) 0 = none ∧ taken (s claim) 9 0x40 claim = true ∧
    ok (exec (.claim 9) (s claim)) (fun t => (t.slot 0).claim == some (0, 0, none) && (t.core 9).serial == 1) = true ∧
    (slot held rel).relChecks rel (header ((slot held rel).core 9) rel) = none ∧ taken (slot held rel) 9 0x41 rel = true ∧
    ok (exec (.rel 9) (slot held rel)) (fun t => (t.slot 0).state == 2) = true ∧
    (s openW).openChecks openW (header ((s openW).core 9) openW) 1 = none ∧
    ok (exec (.openSet 9) (s openW)) (fun t => (t.wset 3).openState == 1) = true ∧
    (set opened pub).pubChecks pub (header ((set opened pub).core 9) pub) = none ∧
    ok (exec (.pub 9) (set opened pub)) (fun t => (t.wset 3).publish == some 0) = true ∧
    ok (exec (.claim 9) (ahead (s claim))) (fun t => (t.slot 0).claim == none && waits t) = true ∧
    ok (exec (.rel 9) (ahead (slot held rel))) (fun t => (t.slot 0).state == 1 && waits t) = true ∧
    ok (exec (.openSet 9) (ahead (s openW))) (fun t => (t.wset 3).openState == 0 && waits t) = true ∧
    ok (exec (.pub 9) (ahead (set opened pub))) (fun t => (t.wset 3).publish == none && waits t) = true := by
  decide +kernel

/-- Units with these commands, on an aligned folio with core 9 declared. -/
def working (k : List Cmd) : State :=
  let s := aligned.setCore 9 { Core.reset with declared := true, run := .running, regions := 1 }
  { s with cores := { s.cores with cmds := k } }

/-- A product of one pass, or a write-out of one row, of core 9 on unit 0. -/
def unitCmd (op rest d : Nat) (p : CmdPhase) : Cmd := { Cmd.make 9 (cmd op 0 rest) ⟨0, noBatch, 1⟩ d 0 [0] with phase := p }

theorem test_units_start : let p := unitCmd 0x20 prodWord prodDesc .queued
    let s := working [p]
    let low := s.idxSet 0x9010 0 0
    let told := { low with clock := { s.clock with stitch := 3, base := 4800 }, power := { s.power with held := [(9, 0, 0)], loadNotice := true, noticeSince := 0 } }
    (working [copyCmd 0 .queued]).startable 0x90 = [copyCmd 0 .queued] ∧ s.startable 0 = [p] ∧ s.startable 1 = [] ∧
    ok (exec (.commandStart 0x90) (working [copyCmd 0 .queued])) (fun t => t.cores.cmds == [copyCmd 0 .running] && fget 31 t.cores.served 0x90 == 9) = true ∧
    ok (exec (.commandStart 0) s) (fun t => t.cores.cmds.map (fun (k : Cmd) => k.phase) == [.running]) = true ∧ stays (.commandStart 1) s = true ∧
    Canonical low ∧ ok (exec (.commandStart 0) low) (fun t => t.power.loadNotice && t.cores == low.cores && t.power.held.length == 1) = true ∧
    (working [copyCmd 0 .queued]).power.held = [] ∧ (working [copyCmd 0 .queued]).power.clocksStopped = false ∧
    low.noticed = false ∧ stays .noticeExpiry low = true ∧ told.noticed = true ∧ p ∈ told.startable 0 ∧
    ok (exec .noticeExpiry told) (fun t => t.power.held == [] && t.cores.cmds.map (fun (k : Cmd) => k.phase) == [.running]) = true := by decide +kernel

theorem test_units_carry : let p := fun n => { unitCmd 0x20 prodWord prodDesc .running with next := n }
    let o := unitCmd 0x21 (2 ^ 67) woutDesc .running
    let s := working [o]
    ((working [p 0]).runningOn 0).find? Cmd.streams = some (p 0) ∧ (s.runningOn 0).find? Cmd.streams = none ∧
    ok (exec (.passSwap 0) (working [p 0])) (fun t => t.cores.cmds.map (fun (k : Cmd) => k.next) == [1]) = true ∧ stays (.passSwap 0) s = true ∧
    (s.runningOn 0).find? (fun k => k.opcode == 0x21) = some o ∧ woutIdle o.word o.primary = false ∧ itemCount o.primary = 1 ∧
    Canonical s ∧ Sound s ∧ InLimits s ∧ s.rowPoison 0 0 = false ∧ s.pairActive = false ∧ wfMask o.word = 0 ∧ dTrip o.primary 0 = 1 ∧
    ok (exec (.woutItem 0) (s.setAcc 0 0 0 0xFF800000)) (fun t => t.peek64 0x3000 == 0x3F800000) = true ∧ stays (.woutItem 1) s = true := by decide +kernel

theorem test_items_go_on : let o := fun (rest : Nat) => unitCmd 0x21 (2 ^ 67 + rest) woutDesc .running
    let s := fun (rest n : Nat) => (working [o rest]).setCtx 7 { sumCtx with state := n }
    let tile := 1 * 2 ^ 86
    let ctx := 2 * 2 ^ 86 + 7 * 2 ^ 55
    let far := 3 * 2 ^ 86 + 9 * 2 ^ 51 + 4 * 2 ^ 48 + 7 * 2 ^ 36
    let bs := packCodes (fmtBits 0) [0]
    wfDest (o tile).word = 1 ∧ wfDest (o ctx).word = 2 ∧ wfDest (o far).word = 3 ∧ wfTile (o ctx).word = 7 ∧ wfCols (o far).word = 1 ∧
    ((s ctx ctxIdle).runningOn 0).find? (fun k => k.opcode == 0x21) = some (o ctx) ∧ (s ctx ctxIdle).rowPoison 0 0 = false ∧
    ((s ctx ctxIdle).contributeAcross 7 0 0 bs).isNone = true ∧
    ((s ctx ctxFenced).contributeAcross 7 0 0 bs).any (fun v => v.2 == 0x0A) = true ∧
    ok (exec (.woutItem 0) (s tile ctxIdle)) (fun t => t.cores.cmds.map (fun (k : Cmd) => k.next) == [1]) = true ∧
    ok (exec (.woutItem 0) (s ctx ctxIdle)) (fun t => t.cores.cmds.map (fun (k : Cmd) => (k.next, k.waited)) == [(0, true)]) = true ∧
    ok (exec (.woutItem 0) (s ctx ctxFenced)) (fun t => t.cores.cmds.map (fun (k : Cmd) => (k.next, k.waited)) == [(1, false)]) = true ∧
    ok (exec (.woutItem 0) (s far ctxIdle)) (fun t => t.cores.cmds.map (fun (k : Cmd) => k.next) == [1]) = true := by decide +kernel

theorem test_commands_complete : let p := { unitCmd 0x20 prodWord prodDesc .running with next := 1 }
    let s := working [p]
    let r := s.setCore 9 { s.core 9 with ringBase := 0x1000, ringSize := 64, records := [(0, 0x40, false, List.replicate 64 7)] }
    let full := r.setCore 9 { r.core 9 with producer := 64 }
    let out := { unitCmd 0x21 (2 ^ 67) woutDesc .running with next := 1, serial := 3 }
    let sent := { unitCmd 0x61 0 woutDesc .running with sentItems := [0], serial := 4 }
    let done := { out with phase := .done }
    let last := (working [done]).setCore 9 { r.core 9 with records := [(3, 0, true, List.replicate 64 7)] }
    itemCount out.primary = 1 ∧ itemCount sent.primary = 1 ∧ InLimits r ∧ (working [out]).power.clocksStopped = false ∧ Canonical last ∧
    ok (exec (.commandComplete 9 3) (working [out])) (fun t => t.cores.cmds == []) = true ∧
    ok (exec (.commandComplete 9 4) (working [sent])) (fun t => t.cores.cmds == []) = true ∧
    ok (exec (.completionRecordWrite 9) last) (fun t => t.cores.cmds == [] && (t.core 9).records == []) = true ∧
    prodIdle p.word p.primary = false ∧ passesOf p.primary = 1 ∧ r.ringFull 9 = false ∧ full.ringFull 9 = true ∧ Canonical r ∧ Sound r ∧
    ok (exec (.commandComplete 9 0) s) (fun t => t.cores.cmds == [] && fget 0 (t.core 9).completions 0 == 1) = true ∧
    stays (.commandComplete 9 1) s = true ∧
    ok (exec (.completionRecordWrite 9) r) (fun t => (t.core 9).producer == 1 && t.peek64 0x1000 == 1 && t.loadByte 0x107F == 7 && t.loadByte 0x1080 == 0) = true ∧
    stays (.completionRecordWrite 9) full = true := by decide +kernel

/-- A slot and a set of a stash of two slots, with these commands on the units. -/
def stashed (x : Slot) (y : WeightSet) (k : List Cmd) : State :=
  { aligned with stash := { Stash.reset with slotCount := 2, slots := [(1, x)], sets := [(3, y)] }, cores := { Cores.reset with cmds := k } }

theorem test_stash_controller : let s := fun x y => stashed x y []
    let w := { WeightSet.reset with kind := 2, size := 4096, buffer0 := 0x1000 }
    let c := { Slot.reset with claim := some (5, 0, none) }
    let h := { Slot.reset with state := 2, owner := 5, pins := [(3, 0)], release := 4 }
    let o := { w with openState := 2, publish := some 9 }
    let reads := fun n => stashed h w [{ copyCmd 0 .running with order := n }]
    let names := fun n => stashed h w [{ unitCmd 0x21 (2 ^ 86 + 2 ^ 67) woutDesc .running with microBatch := 5, order := n }]
    let stores := { unitCmd 0x30 (2 * 2 ^ 39 + 3 * 2 ^ 31) 0 .running with order := 8 }
    fwf Slot.reset (s c w).stash.slots = true ∧ fwf WeightSet.reset (s c w).stash.sets = true ∧ stores.storesInto = some 3 ∧
    (s c w).slotOf 5 = 1 ∧ (s c w).grantable 0 c = true ∧ (s c { w with version := 1 }).grantable 0 c = false ∧
    ok (exec (.claimGrant 5) (s c w)) (fun t => (t.slot 1).state == 1 && (t.slot 1).pins == [(3, 0)] && (t.wset 3).pinsOf 0 == 1) = true ∧
    stays (.claimGrant 5) (s c { w with version := 1 }) = true ∧
    ok (exec (.releaseEffect 5) (s h (w.setPins 0 1))) (fun t => (t.slot 1).state == 0 && (t.wset 3).pinsOf 0 == 0) = true ∧
    stays (.releaseEffect 5) (reads 3) = true ∧ ok (exec (.releaseEffect 5) (reads 4)) (fun t => (t.slot 1).state == 0) = true ∧
    stays (.releaseEffect 5) (names 3) = true ∧ ok (exec (.releaseEffect 5) (names 4)) (fun t => (t.slot 1).state == 0) = true ∧
    ok (exec (.openGrant 3) (s c { w with openState := 1 })) (fun t => (t.wset 3).openState == 2) = true ∧
    stays (.openGrant 3) (s c { w with openState := 1, pins0 := 1 }) = true ∧
    ok (exec (.publishEffect 3) (s c o)) (fun t => (t.wset 3).version == 1 && (t.wset 3).publish == none) = true ∧
    stays (.publishEffect 3) (stashed c o [stores]) = true ∧ stays (.publishEffect 3) (s c w) = true := by decide +kernel

/-! ### The Collator and proof mode -/

/-- A CSTEP of core 9 for context 7 with a sequence number. -/
def stepCmd (n : Nat) : Cmd := { Cmd.make 9 (cmd 0x50 0x80 (7 * 2 ^ 84 + 2 ^ 30)) ⟨0x80, noBatch, 0⟩ 0 0 [n] with phase := .queued }

/-- Context 7 with an open step of one item, one contribution already in. -/
def openCtx : Ctx :=
  { sumCtx with state := ctxOpen, sequence := 4, expected := 4, count := 1, stepCmd := some (9, 0),
                items := [(0, { Item.fresh with opened := true })] }

/-- A fragment from folio 2 for context 7 of 16 elements of 1.0 at a sequence number. -/
def ones (sequence : Nat) : Frame :=
  { aligned.fragment { FolioHeader.blank with vc := 4, source := 2, group := 0x55, sequence := sequence, count := 16 } (leBytes 64
      ((List.range 16).foldl (fun n k => n + 0x3F800000 * 2 ^ (32 * k)) 0)) with handles := [] }

/-- The contribution that such a fragment brings to slice 0, as it is read in s. -/
def brings (f : Frame) (s : State) : Contribution :=
  contributionOf (s.readFragment 0 f).2.1 (s.readFragment 0 f).2.2.1 (s.readFragment 0 f).2.2.2 (landingOf f)
    (crc32c (s.readFragment 0 f).2.2.1 == (s.readFragment 0 f).2.1.check)

/-- The open step runs in context 7, whose state is y. -/
def stepping (y : Ctx) : State := (working [{ stepCmd 4 with phase := .running }]).setCtx 7 y

theorem test_contexts_step : let s := fun n => (working [stepCmd n]).setCtx 7 { sumCtx with expected := 4 }
    let early := (working [stepCmd 4]).setCtx 7 { sumCtx with expected := 4, lead := [leadOf 0 (ones 4) [0] aligned] }
    let o := stepping openCtx
    let got := { o with switch := { Switch.reset with fragments := [(0, ones 4)] } }
    let b := brings (ones 4) o
    let it := (o.loadStates 0x80 (openCtx.item 0) b.offset b.count).2.1
    Canonical got ∧ Canonical (s 4) ∧ Still (s 4) ∧ (s 4).nextStep 7 = some (stepCmd 4) ∧ cfItems (stepCmd 4).word = 1 ∧ StillBut 7 got ∧
    (s 5).pairActive = false ∧ Still early ∧ early.nextStep 7 = some (stepCmd 4) ∧ sumCtx.win ≠ 0 ∧
    ok (exec (.cstepStart 7) (s 4)) (fun t => (t.ctx 7).state == ctxOpen && (t.ctx 7).count == 1) = true ∧
    ok (exec (.cstepStart 7) early) (fun t => (t.ctx 7).state == ctxOpen && (t.ctx 7).lead == []) = true ∧
    ok (exec (.cstepStart 7) (s 5)) (fun t => (t.ctx 7).state == ctxFenced) = true ∧ stays (.cstepStart 7) o = true ∧
    OnTime 7 openCtx 0 (ones 4) b o ∧ Adds openCtx it b o.now ∧ openCtx.keepsStates = true ∧ (openCtx.item 0).opened = true ∧
    (o.loadStates 0x80 (openCtx.item 0) b.offset b.count).2.2 = false ∧
    ok (exec (.fragmentArrive 0) got) (fun t => t.switch.fragments == [] && (fget Elem.fresh ((t.ctx 7).item 0).elems 15).count == 1) = true := by decide +kernel

theorem test_fragments_wait : let idle := (working []).setCtx 7 { sumCtx with expected := 4 }
    let via := fun (w : Switch) (s : State) => { s with switch := w }
    let ahead := via { Switch.reset with fragments := [(0, ones 5)] } idle
    let fenced := via { Switch.reset with fragments := [(0, ones 4)] } ((working []).setCtx 7 { sumCtx with state := ctxFenced })
    let full := stepping { openCtx with shape := 2 ^ 32 + 15 * 2 ^ 16, items := [] }
    let b := brings (ones 4) full
    Still ahead ∧ Still fenced ∧ Canonical ahead ∧ Canonical fenced ∧ Ahead 7 { sumCtx with expected := 4 } 0 (ones 5) 1 idle ∧
    ok (exec (.fragmentArrive 0) ahead) (fun t => (t.ctx 7).lead.length == 1 && t.switch.fragments == []) = true ∧
    ok (exec (.fragmentArrive 0) fenced) (fun t => t.idx 0x6120 7 == 2 ^ 32 && t.switch.fragments == []) = true ∧
    ok (exec (.leadRetry 0) (via { Switch.reset with stalled := [(0, true, ones 5)] } idle)) (fun t => (t.ctx 7).lead.length == 1 &&
      t.switch.stalled == []) = true ∧
    StillBut 7 full ∧ OnTime 7 (full.ctx 7) 0 (ones 4) b full ∧ ((full.ctx 7).item 0).opened = false ∧ (full.ctx 7).win ≤ (full.ctx 7).openItems ∧
    (full.ctx 7).itemLeaves ≤ full.freeCount true ∧ full.switch.external.fresh ≤ full.switch.externalSize ∧
    ((full.ctx 7).item 0).leaves = [] ∧ Adds (full.ctx 7) { (full.ctx 7).item 0 with opened := true, spilled := true } b full.now ∧
    ok (exec (.spillRetry 0) (via { Switch.reset with stalled := [(0, false, ones 4)] } full)) (fun t => t.switch.stalled == [] &&
      ((t.ctx 7).item 0).spilled && ((t.ctx 7).item 0).leaves.length == (full.ctx 7).itemLeaves) = true := by decide +kernel

theorem test_strays_and_deadlines : let f := aligned.fragment { FolioHeader.blank with vc := 4, source := 2, group := 0x56, count := 1 } [1, 2, 3, 4]
    let q := fun (w : Switch) => { aligned with switch := w }
    let o := ((working [{ stepCmd 4 with phase := .running }]).setCtx 7 openCtx).idxSet 0x6140 7 3
    let late := { o with clock := { o.clock with stitch := 3 } }
    (let one := { loneState.idxSet 0x6140 7 3 with clock := { loneState.clock with stitch := 3 } }
     Lone 7 lone running one ∧ Canonical one ∧
     ok (exec (.stepDeadline 7) one) (fun t => (t.ctx 7).state == ctxIdle && (t.ctx 7).memberFailed && (t.ctx 7).expected == 1 &&
       t.cores.cmds == []) = true) ∧
    aligned.groupCtx f.group = none ∧ f.handles = [] ∧ StillBut 7 late ∧ Still aligned ∧ (openCtx.item 0).finished = false ∧ (openCtx.item 0).outstanding = 0 ∧
    ok (exec (.fragmentArrive 2) (q { Switch.reset with fragments := [(2, f)] })) (fun t => t.idx 0x6007 0 == 1 && t.switch.fragments == []) = true ∧
    ok (exec (.stepDeadline 7) late) (fun t => (t.ctx 7).state == ctxIdle && (t.ctx 7).memberFailed && (t.ctx 7).expected == 5) = true ∧
    stays (.stepDeadline 7) { late with clock := { o.clock with stitch := 2 } } = true ∧
    ok (exec (.leadRetry 2) (q { Switch.reset with stalled := [(2, true, f)] })) (fun t => t.idx 0x6007 0 == 1 && t.switch.stalled == []) = true ∧
    ok (exec (.spillRetry 2) (q { Switch.reset with stalled := [(2, false, f)] })) (fun t => t.idx 0x6007 0 == 1 && t.switch.stalled == []) = true ∧
    stays (.spillRetry 2) (q { Switch.reset with stalled := [(2, true, f)] }) = true := by decide +kernel

/-- A folio of a proof pair with a binding: role 1 leads and role 2 shadows, proof port 3 is up, and phase n stands. -/
def pair (role n : Nat) : State :=
  let s := ((((bound.idxSet 0x8010 0 role).idxSet 0x8012 0 3).idxSet 0x8040 0 (256 + 5)).idxSet 0x8041 0 2).setPort 3 upPort
  { s with clock := { s.clock with stitch := 9 }
           proof := { s.proof with phase := n, sentFrame := true, gotFrame := true, lastFrame := 9, sentStitch := 8 } }

/-- A digest of core 9. -/
def digest (serial item stitch : Nat) : Digest := { Digest.decode (zeros 16) stitch with core := 9, serial := serial, item := item }

/-- The digest frame of the stitch before with these records, as it waits for the proof unit. -/
def digestFrame (s : State) (ds : List Digest) : Frame :=
  s.fragment (s.proofHeader 0xFFFFFFFF 8 0 (ds.length + 1) true) (s.streamWord 8 ds.length ++ ds.flatMap Digest.encode)

theorem test_digests_arrive : let s := pair 1 4
    let d := digest 6 7 8
    let told := fun (s : State) (f : Frame) => { s with switch := { Switch.reset with proofFrames := [f] } }
    let bad := { digestFrame s [] with bytes := (digestFrame s []).bytes.take 50 }
    let good := told s (digestFrame s [d])
    let quiet := told (pair 1 1) (digestFrame s [])
    let bs := (good.readProofFrame (digestFrame s [d])).2.2.1
    Canonical s ∧ s.comparing = true ∧ (pair 1 1).comparing = false ∧ (pair 1 1).pairActive = true ∧
    (good.readProofFrame (digestFrame s [d])).2.2.2 = true ∧ (good.readProofFrame (digestFrame s [d])).2.1.count = 2 ∧ leAt bs 2 2 = 1 ∧
    leAt bs 4 4 = beAt (s.domain 0x5084 0) 0 4 ∧ Digest.decode (slice bs 16 16) (leAt bs 8 8) = d ∧ s.pendingRecords < 65536 ∧
    ((told s bad).readProofFrame bad).2.2.2 = false ∧ (quiet.readProofFrame (digestFrame s [])).2.2.2 = true ∧
    ok (exec .digestReceive (told s bad)) (fun t => t.idx 0x8023 0 == 2 ^ 32 && t.switch.proofFrames == []) = true ∧
    ok (exec .digestReceive good) (fun t => t.proof.partner == [d] && t.switch.proofFrames == []) = true ∧
    ok (exec .digestReceive quiet) (fun t => t.proof.partner == [] && t.proof.gotFrame && t.switch.proofFrames == []) = true := by
  decide +kernel

theorem test_digests : let s := pair 1 4
    let lag := { s.idxSet 0x8013 0 9 with proof := { s.proof with own := [digest 6 7 0] } }
    let lost := { s.idxSet 0x8013 0 9 with proof := { s.proof with lastFrame := 0 } }
    let owed := fun (s : State) => { s with proof := { s.proof with outbox := [digest 6 7 8, digest 7 0 9] } }
    Canonical s ∧ s.pairActive = true ∧ s.comparing = true ∧ s.recording = true ∧ ProofLinkOpen s ∧ s.proofPort = 3 ∧ Serves s ∧
    ok (exec .digestSend (owed s)) (fun t => ((t.port 3).queue 6).frames.length == 1 && t.proof.sentStitch == 9 &&
      t.proof.outbox == [digest 7 0 9]) = true ∧
    ok (exec .digestSend (owed (s.setPort 3 Port.reset))) (fun t => t.proof.outbox == [digest 7 0 9] && t.proof.sentStitch == 9) = true ∧
    stays .digestSend { s with proof := { s.proof with sentStitch := 9 } } = true ∧
    ok (exec (.lagExpiry 9 6 7) lag) (fun t => t.proof.own == [] && t.proof.records.length == 1) = true ∧ stays (.lagExpiry 9 6 7) (pair 1 4) = true ∧
    ok (exec .streamLost lost) (fun t => t.proof.lost && t.idx 0x8022 0 == 1) = true ∧ stays .streamLost aligned = true ∧
    ok (exec .divergenceClear s) (fun t => t.proof.records == [] && t.lastStatus == 0) = true := by decide +kernel

/-- A copy record of a kind, address, ordinal and data, as its frame brings it. -/
def copyFrame (s : State) (kind address ordinal : Nat) (data : Bytes) : State :=
  let w := kind * 2 ^ 124 + address * 2 ^ 64 + data.length * 2 ^ 48 + ordinal
  { s with switch := { Switch.reset with copyFrames := [s.fragment (s.proofHeader 0xFFFFFFFE 0 0 (1 + data.length / 16) true) (leBytes 16 w ++ data)] } }

theorem test_state_copy : let lead := pair 1 2
    let blocks := { lead with binding := { lead.binding with regions := [⟨2, 1, 0x1000, 64⟩] } }
    let shadow := copyFrame { pair 2 2 with proof := { (pair 2 2).proof with applyOrdinal := 1 } } 1 0x1000 1 (leBytes 16 77)
    let gap := copyFrame (pair 2 2) 1 0x1000 1 (leBytes 16 77)
    let sound := fun (s : State) => s.takeCopy.any (fun x => x.1.copying && x.2.sound && x.2.ordinal == 1 && x.2.address == 0x1000)
    let table := copyFrame { pair 2 2 with proof := { (pair 2 2).proof with applyOrdinal := 1 } } 3 5 1 (leBytes 16 77)
    ProofLinkOpen blocks ∧ lead.proof.mirror = [] ∧ Canonical shadow ∧ Sound shadow ∧ InLimits shadow ∧ table.copyKind = 3 ∧ sound gap = true ∧
    table.takeCopy.any (fun x => x.1.copying && x.2.sound && x.2.ordinal == 1 && x.2.kind == 3) = true ∧
    ok (exec .copyRecordApply table) (fun t => t.proof.phase == 3 && t.proof.applyOrdinal == 2 && fget 0 t.proof.stateTable 5 == 77) = true ∧
    Serves lead ∧ lead.copyAllowed = true ∧ (pair 2 2).copyAllowed = false ∧ blocks.stateBlocks.length = 1 ∧ lead.stateBlocks = [] ∧
    ok (exec .stateCopyStart lead) (fun t => t.proof.phase == 2 && t.lastStatus == 0) = true ∧ ok (exec .stateCopyStart (pair 2 2)) (fun t => t.lastStatus == 1) = true ∧
    ok (exec .copyBlockSend lead) (fun t => t.proof.phase == 3) = true ∧ ok (exec .copyBlockSend blocks) (fun t => t.proof.phase == 3 && t.proof.copyOrdinal == 1) = true ∧
    stays .copyBlockSend (pair 2 2) = true ∧ shadow.copyKind = 1 ∧ sound shadow = true ∧ sound gap = true ∧
    ok (exec .copyRecordApply shadow) (fun t => t.loadByte 0x1000 == 77 && t.proof.applyOrdinal == 2) = true ∧
    ok (exec .copyRecordApply gap) (fun t => t.proof.phase == 7 && t.loadByte 0x1000 == 0) = true := by decide +kernel

theorem test_switch_and_judgement : let sw := copyFrame { pair 2 3 with proof := { (pair 2 3).proof with applyOrdinal := 1 } } 4 0 1 []
    let start := { coreAt 9 0 (fun c => { c with run := .idle, entry := 5 }) with proof := { Proof.reset with coresAt := some 0 } }
    let j := fun (b : Bool) n => { pair 2 4 with proof := { (pair 2 4).proof with steps := [([], b)], clean := n } }
    let notice := copyFrame (pair 1 4) 5 0 9 []
    let here := copyFrame (pair 2 5) 6 1 9 []
    let passed := { here with cores := { here.cores with syncs := [(5, 1)] } }
    sw.copyKind = 4 ∧ (sw.takeCopy.any (fun x => x.1.copying && x.2.sound && x.2.ordinal == 1 && x.1.proof.phase == 3)) = true ∧
    ok (exec .switchRecordApply sw) (fun t => t.proof.phase == 4 && t.proof.coresAt == some 10) = true ∧ stays .switchRecordApply (pair 2 3) = true ∧
    ok (exec .shadowCoresStart start) (fun t => (t.core 9).run == .running && (t.core 9).pc == 5 && t.proof.coresAt == none) = true ∧
    let held := { j false 1 with proof := { (j false 1).proof with steps := [([0, 0, 0, 0, 0, 0, 0, 0, 0, 8], false)], own := [digest 6 7 0] } }
    let wide := (j false 1).idxSet 0x8042 0 1
    wide.idx 0x8042 0 ≠ 0 ∧ (j false 1).idx 0x8042 0 = 0 ∧ Quiet (j false 1) ∧ stays .stepJudgement held = true ∧
    ok (exec .stepJudgement wide) (fun t => t.proof.phase == 5 && t.proof.copyOrdinal == 1) = true ∧
    (start.core 9).declared = true ∧ stays .shadowCoresStart { start with proof := { Proof.reset with coresAt := some 1 } } = true ∧
    sw.idx 0x8041 0 ≠ 0 ∧ fwf 0 sw.cores.syncs = true ∧
    (j false 0).idx 0x8041 0 = 2 ∧ ok (exec .stepJudgement (j false 0)) (fun t => t.proof.clean == 1 && t.proof.phase == 4) = true ∧
    ok (exec .stepJudgement (j true 1)) (fun t => t.proof.clean == 0 && t.proof.steps == []) = true ∧
    ok (exec .stepJudgement (j false 1)) (fun t => t.proof.phase == 5 && t.proof.clean == 2) = true ∧
    notice.copyKind = 5 ∧ ok (exec .promotionNotice notice) (fun t => t.proof.handoverAt == some 1) = true ∧ stays .promotionNotice (pair 1 4) = true ∧
    here.copyKind = 6 ∧ ok (exec .handoverConfirmation here) (fun t => t.proof.handoverAt == some 1) = true ∧
    ok (exec .handoverConfirmation passed) (fun t => t.proof.handoverAt == none && t.proof.copyOrdinal == 1) = true ∧
    stays .handoverConfirmation (pair 2 5) = true := by decide +kernel

theorem test_numbers : roundAt 3 0 1 = 2 ∧ roundAt 5 0 1 = 2 ∧ roundAt 7 0 2 = 2 ∧ Elt.fp16.convert (Elt.fp16.decode 0x3C00) = (0x3C00, .none) ∧
    Elt.fp32.convert (.num false 1 0) = (0x3F800000, .none) ∧ Elt.bf16.convert (.num false 257 0) = (0x4380, .none) := by decide +kernel

end Sys2Proof.Tests
end

section
/-!
SUPPORT. Start-up: what each phase's end does to the state (R363, R364, R369), and the settlement of O7.
-/
namespace Sys2Proof.Machine

open Sys2Proof

/-! ### How a meaning ends -/

/-- A meaning whose body leaves fuses, ROM and the queue alone answers its body. -/
theorem State.ends_of_fixed {s t : State} (hd : t.dev = s.dev) (hp : t.pending = s.pending) : s.ends t = .next t := by
  rw [State.ends, ← hd, ← hp]

/-! ### The phases of Table 16.3 -/

/-- The clock after a phase that ends behind so many reference cycles. -/
def Clock.entering (c : Clock) (next : Phase) (cycles : Nat) : Clock :=
  { c with phase := next, phaseCycles := c.phaseCycles ++ [cycles] }

theorem State.endPhase_of_phase {s : State} {now : Phase} (h : s.clock.phase = now) (next : Phase) (cycles : Nat) :
    s.endPhase now next cycles = { s with clock := s.clock.entering next cycles } := if_pos h

theorem State.memLocks_of_domainLock {s : State} (h : s.clock.phase = .domainLock) :
    s.memLocks = { s with clock := { s.clock with selfRefresh := false } } := if_pos h

theorem State.phase6_of_unlocked {s : State} (h : s.markerLock portC = false) : s.phase6 = s := by
  simp [State.phase6, h]

theorem State.phase6_of_pathless {s : State} (h : s.clock.path = .none) : s.phase6 = s := by
  simp [State.phase6, h]

/-- The root path ends phase 6 with marker lock, its offset and its round trip 0 (R364). -/
theorem State.phase6_of_root {s : State} (hp : s.clock.phase = .marksAndEcho) (hl : s.markerLock portC = true)
    (hr : s.clock.path = .root) :
    s.phase6 = (({ s with clock := { s.clock with phase := .release, offsetDone := true } } : State).idxSet 0x2004 0 0).idxSet
      0x2006 0 0 := by
  simp [State.phase6, hp, hl, hr]

theorem State.phase6_of_measured_worker {s : State} (hp : s.clock.phase = .marksAndEcho) (hl : s.markerLock portC = true)
    (hw : s.clock.path = .worker) (ho : s.clock.offsetDone = true) :
    s.phase6 = { s with clock := { s.clock with phase := .release } } := by
  simp [State.phase6, hp, hl, hw, ho]

/-- A worker without its offset stays in phase 6: at most it owes its echo requests (R365). -/
theorem State.phase6_of_unmeasured_worker {s : State} (hw : s.clock.path = .worker) (ho : s.clock.offsetDone = false) :
    s.phase6 = s ∨ s.phase6 = { s with clock := { s.clock with echoesOwed := 4 } } := by
  simp only [State.phase6, hw, ho, Bool.false_eq_true, if_false]
  split
  · exact .inl rfl
  · split
    · exact .inr rfl
    · exact .inl rfl

/-! ### Phases 1 to 5: the commands -/

theorem execResetRelease_of_held {s : State} (h : s.clock.phase = .held) :
    execResetRelease s = .next { s with clock := { s.clock with resetN := true, phase := .awaitingSignal } } := by
  rw [execResetRelease, if_pos h]
  exact State.ends_of_fixed rfl rfl

theorem execSignalDetect_of_awaitingSignal {s : State} (h : s.clock.phase = .awaitingSignal) :
    execSignalDetect s = .next { s with clock := { s.clock with signal := true, phase := .clockRecovery, phaseCycles := [] } } := by
  rw [execSignalDetect, if_pos h]
  exact State.ends_of_fixed rfl rfl

/-- What the events of phases 2 to 4 share: the phase ends, and nothing but the clock changes. -/
theorem State.ends_endPhase {s : State} {now : Phase} (h : s.clock.phase = now) (next : Phase) (cycles : Nat) :
    s.ends (s.endPhase now next cycles) = .next { s with clock := s.clock.entering next cycles } := by
  rw [State.endPhase_of_phase h]
  exact State.ends_of_fixed rfl rfl

/-- The state in which phase 6 begins: phase 5 has ended and LPDDR5X has left self-refresh (R369). -/
def State.atMarks (s : State) (cycles : Nat) : State :=
  { s with clock := { s.clock with
      selfRefresh := false, phase := .marksAndEcho, phaseCycles := s.clock.phaseCycles ++ [cycles] } }

theorem execDomainLock_of_domainLock {s : State} (h : s.clock.phase = .domainLock) (cycles : Nat) :
    execDomainLock cycles s = s.ends (s.atMarks cycles).phase6 := by
  have hm : s.memLocks.endPhase .domainLock .marksAndEcho cycles = s.atMarks cycles := by
    rw [State.memLocks_of_domainLock h]
    exact if_pos h
  rw [execDomainLock, hm]

/-- What the end of phase 5 leaves: the state t, with phase 6 carried on as far as it goes (R364, R369). -/
def PhaseSixBegun (s : State) (cycles : Nat) (t : State) : Prop :=
  t.clock.phase = (if s.markerLock portC ∧ (s.clock.path = .root ∨ s.clock.path = .worker ∧ s.clock.offsetDone = true)
    then .release else .marksAndEcho) ∧
  t.clock.phaseCycles = s.clock.phaseCycles ++ [cycles] ∧ t.clock.selfRefresh = false ∧
  t = { s with clock := t.clock, index := t.index } ∧ (s.clock.path ≠ .root → t.index = s.index) ∧
  (Canonical s → s.clock.path = .root → s.markerLock portC = true → t.idx 0x2004 0 = 0 ∧ t.clock.offsetDone = true)

/-- The root path's offset reads 0 once it is set, whatever the round trip's entry beside it becomes. -/
theorem State.idx_offset_of_set {s : State} (h : indexWf s.index = true) (v w : Nat) :
    ((s.idxSet 0x2004 0 v).idxSet 0x2006 0 w).idx 0x2004 0 = v := by
  rw [State.idx_idxSet_ne _ _ (by decide), State.idx_idxSet_self h]

theorem phaseSixBegun_phase6 (s : State) (cycles : Nat) : PhaseSixBegun s cycles (s.atMarks cycles).phase6 := by
  by_cases hl : s.markerLock portC = true
  · cases hp : s.clock.path with
    | none =>
      rw [State.phase6_of_pathless (s := s.atMarks cycles) hp]
      exact ⟨by simp [State.atMarks, hp], rfl, rfl, rfl, fun _ => rfl, by simp [hp]⟩
    | root =>
      rw [State.phase6_of_root (s := s.atMarks cycles) rfl hl hp]
      exact ⟨by simp [hl, hp], rfl, rfl, rfl, fun h => absurd hp h,
        fun ⟨_, _, _, _, hindex⟩ _ _ => ⟨State.idx_offset_of_set hindex 0 0, rfl⟩⟩
    | worker =>
      cases ho : s.clock.offsetDone with
      | true =>
        rw [State.phase6_of_measured_worker (s := s.atMarks cycles) rfl hl hp ho]
        exact ⟨by simp [hl, hp, ho], rfl, rfl, rfl, fun _ => rfl, by simp [hp]⟩
      | false =>
        obtain hn | hn := State.phase6_of_unmeasured_worker (s := s.atMarks cycles) hp ho
        all_goals
          rw [hn]
          exact ⟨by simp [State.atMarks, hp, ho], rfl, rfl, rfl, fun _ => rfl, by simp [hp]⟩
  · rw [State.phase6_of_unlocked (s := s.atMarks cycles) (Bool.eq_false_iff.2 hl)]
    exact ⟨by simp [State.atMarks, hl], rfl, rfl, rfl, fun _ => rfl, fun _ _ h => absurd h hl⟩

theorem execDomainLock_begins_phase_six {s : State} (h : s.clock.phase = .domainLock) (cycles : Nat) :
    ∃ t, execDomainLock cycles s = .next t ∧ PhaseSixBegun s cycles t := by
  obtain ⟨-, -, -, ht, -, -⟩ := phaseSixBegun_phase6 s cycles
  refine ⟨_, ?_, phaseSixBegun_phase6 s cycles⟩
  rw [execDomainLock_of_domainLock h]
  exact State.ends_of_fixed (congrArg State.dev ht :) (congrArg State.pending ht :)

/-! ### The release boundary and the check -/

/-- The clock at a release boundary that loads a stitch number (R34, R364). -/
def Clock.released (c : Clock) (number cycles : Nat) : Clock :=
  { c with
    phase := .check, base := c.base + c.cycle, stitch := number, cycle := 0, crossings := some 4,
    releaseAttempts := min (c.releaseAttempts + 1) (2 ^ 32 - 1), releaseCycles := cycles, releaseStitch := number }

/-- At a release boundary of its path the device releases with the path's number (R364). -/
theorem execReleaseBoundary_of_boundary {s : State} (hp : s.clock.phase = .release) (hn : s.clock.path ≠ .none)
    (hw : s.clock.path = .worker → s.clock.lastMarkStitch % 3 = 0 ∧ s.clock.lastMarkValid = true) (cycles : Nat) :
    execReleaseBoundary cycles s = .next { s with
      clock := s.clock.released (if s.clock.path = .root then 2 ^ 64 - 3 else s.clock.lastMarkStitch) cycles } :=
  Eq.trans (congrArg s.ends (if_neg (by simpa [hp, hn] using hw))) (State.ends_of_fixed rfl rfl)

theorem execReleaseBoundary_of_root {s : State} (hp : s.clock.phase = .release) (hr : s.clock.path = .root) (cycles : Nat) :
    execReleaseBoundary cycles s = .next { s with clock := s.clock.released (2 ^ 64 - 3) cycles } := by
  rw [execReleaseBoundary_of_boundary hp (by simp [hr]) (by simp [hr]), if_pos hr]

theorem execReleaseBoundary_of_worker {s : State} (hp : s.clock.phase = .release) (hw : s.clock.path = .worker)
    (hv : s.clock.lastMarkValid = true) (hm : s.clock.lastMarkStitch % 3 = 0) (cycles : Nat) :
    execReleaseBoundary cycles s = .next { s with clock := s.clock.released s.clock.lastMarkStitch cycles } := by
  rw [execReleaseBoundary_of_boundary hp (by simp [hw]) (fun _ => ⟨hm, hv⟩), if_neg (by simp [hw])]

/-- A worker lets every boundary pass whose number is no multiple of three (R364). -/
theorem execReleaseBoundary_of_other_number {s : State} (hw : s.clock.path = .worker) (hm : s.clock.lastMarkStitch % 3 ≠ 0)
    (cycles : Nat) : execReleaseBoundary cycles s = .next s :=
  State.ends_self (if_pos (by simp [hw, hm]))

/-- Two stitches after the release the counter stands two past the number loaded, across the wrap as well. -/
theorem subMod_of_add_two {a b : Nat} (h : a = (b + 2) % 2 ^ 64) : subMod 64 a b = 2 := by
  unfold subMod
  omega

theorem execAlignmentCheckEnd_after_two_stitches {s : State} (hp : s.clock.phase = .check)
    (hs : s.clock.stitch = (s.clock.releaseStitch + 2) % 2 ^ 64) (held : Bool) :
    execAlignmentCheckEnd held s = .next { s with clock := { s.clock with
      phase := if held then .passed else .release, crossings := if held then s.clock.crossings else none } } :=
  Eq.trans (congrArg s.ends (if_neg (by simp [hp, subMod_of_add_two hs]))) (State.ends_of_fixed rfl rfl)

/-- Settles O7: each command's effect in its own phase, phase by phase. -/
theorem startUpRunsToTheCheck : Obligations.StartUpRunsToTheCheck := by
  unfold Obligations.StartUpRunsToTheCheck
  refine ⟨fun s n => ⟨?_, ?_, ?_, ?_, ?_, ?_⟩, fun s n held => ⟨?_, ?_, ?_, ?_⟩⟩
  · exact execResetRelease_of_held
  · exact execSignalDetect_of_awaitingSignal
  · exact fun h => State.ends_endPhase h .oscillatorStart n
  · exact fun h => State.ends_endPhase h .referenceLock n
  · exact fun h => State.ends_endPhase h .domainLock n
  · exact fun h => execDomainLock_begins_phase_six h n
  · exact fun hp hr => execReleaseBoundary_of_root hp hr n
  · exact fun hp hw hv hm => execReleaseBoundary_of_worker hp hw hv hm n
  · exact fun _ hw hm => execReleaseBoundary_of_other_number hw hm n
  · exact fun hp hs _ => execAlignmentCheckEnd_after_two_stitches hp hs held

end Sys2Proof.Machine
end

section
/-!
SUPPORT. What a fetch leaves alone (R177, R189, R190), what a halt leaves of a core (R181), and the settlement of O49.
-/
namespace Sys2Proof.OnlyCore

open Sys2Proof.Machine

/-! ### Changes to one core -/

theorem setCore (c : Nat) (s : State) (x : Core) : OnlyCore c s (s.setCore c x) :=
  ⟨rfl, fun _ hk => State.core_setCore_ne s x hk⟩

theorem trans {c : Nat} {f g t : State} (h : OnlyCore c f g) (k : OnlyCore c g t) : OnlyCore c f t := by
  obtain ⟨h1, h2⟩ := h
  obtain ⟨k1, k2⟩ := k
  refine ⟨?_, fun j hj => (k2 j hj).trans (h2 j hj)⟩
  rw [h1] at k1
  exact k1

end Sys2Proof.OnlyCore

namespace Sys2Proof.Machine

open Sys2Proof

/-! ### What a read accounts for -/

/-- From s to t, reads have happened: nothing but the counts and the log of errors and the count of draws may differ. -/
def ReadsOnly (s t : State) : Prop := ∃ n i m, t = { s with freshCount := n, index := i, mem := m }

namespace ReadsOnly

variable {s t u : State}

theorem refl (s : State) : ReadsOnly s s := ⟨_, _, _, rfl⟩

theorem trans (h : ReadsOnly s t) (k : ReadsOnly t u) : ReadsOnly s u := by
  obtain ⟨n, i, m, rfl⟩ := h
  obtain ⟨n', i', m', rfl⟩ := k
  exact ⟨n', i', m', rfl⟩

theorem cores (h : ReadsOnly s t) : t.cores = s.cores := by
  obtain ⟨n, i, m, rfl⟩ := h
  rfl

theorem dev (h : ReadsOnly s t) : t.dev = s.dev := by
  obtain ⟨n, i, m, rfl⟩ := h
  rfl

theorem pending (h : ReadsOnly s t) : t.pending = s.pending := by
  obtain ⟨n, i, m, rfl⟩ := h
  rfl

theorem core (h : ReadsOnly s t) (c : Nat) : t.core c = s.core c := by
  rw [State.core, h.cores, State.core]

end ReadsOnly

theorem State.idxBump_readsOnly (s : State) (i sub hi lo n : Nat) : ReadsOnly s (s.idxBump i sub hi lo n) := ⟨_, _, _, rfl⟩

theorem State.crosses_readsOnly (s : State) : ReadsOnly s s.crosses.2 := by
  unfold State.crosses
  split
  · exact ⟨_, _, _, rfl⟩
  · exact .refl s

theorem State.countRead_readsOnly (s : State) (bad : Bool) (store address : Nat) :
    ReadsOnly s (s.countRead bad store address) := by
  unfold State.countRead
  split <;> exact s.idxBump_readsOnly _ _ _ _ _

theorem State.logError_readsOnly (s : State) (address : Nat) (src : ReadSource) (store unit : Nat) :
    ReadsOnly s (s.logError address src store unit) := by
  unfold State.logError
  split
  · exact ⟨_, _, _, rfl⟩
  · exact s.idxBump_readsOnly _ _ _ _ _

theorem State.accountRead_readsOnly (s : State) (r : WordRead) (src : ReadSource) (store address unit : Nat) :
    ReadsOnly s (s.accountRead r src store address unit) := by
  cases r with
  | clean d => exact .refl s
  | corrected d => exact s.countRead_readsOnly _ _ _
  | bad => exact (s.countRead_readsOnly _ _ _).trans (State.logError_readsOnly _ _ _ _ _)

theorem State.readWord_readsOnly (s : State) (w : Nat) (src : ReadSource) (unit : Nat) : ReadsOnly s (s.readWord w src unit).1 := by
  have ha := s.accountRead_readsOnly (s.wordRead w) src (storeOf (canon (16 * w))) (canon (16 * w)) unit
  have hx := ha.trans (State.crosses_readsOnly _)
  simp only [State.readWord]
  repeat' split
  all_goals assumption

theorem State.fetchWord_readsOnly (s : State) (c : Nat) : ReadsOnly s (s.fetchWord c).1 :=
  -- Through a projection of variables: comparing the projections of the two reads, the kernel would evaluate the address.
  have project : ∀ (t : State) (n : Nat) (b : Bool), ReadsOnly s t → ReadsOnly s (t, n, b).1 := fun _ _ _ h => h
  project _ _ _ (s.readWord_readsOnly _ _ _)

/-- The state a fetch leaves, by the name an obligation gives it. -/
theorem ReadsOnly.of_fetchWord {s f : State} {c w : Nat} {bad : Bool} (h : s.fetchWord c = (f, w, bad)) : ReadsOnly s f := by
  have hf := s.fetchWord_readsOnly c
  rwa [h] at hf

/-! ### Taking an instruction -/

theorem State.onInstr_of_idle {s : State} {c : Nat} (h : s.fetches c = false) (op : Nat) (waits : Bool) (k : State → Nat → State) :
    s.onInstr c op waits k = s := by
  simp [State.onInstr, h]

theorem State.onInstr_of_outside {s : State} {c : Nat} (hf : s.fetches c = true)
    (hr : (s.core c).inRegions (s.core c).pc = false) (op : Nat) (waits : Bool) (k : State → Nat → State) :
    s.onInstr c op waits k =
      s.haltCore c ⟨0x03, (s.core c).pc, 0xF⟩ 0 0 0xFFFFFFFF (if (s.core c).window.isEmpty then 0 else 1) := by
  simp [State.onInstr, hf, hr]

theorem State.onInstr_of_fetched {s f : State} {c w op : Nat} (hf : s.fetches c = true)
    (hr : (s.core c).inRegions (s.core c).pc = true) (hw : s.fetchWord c = (f, w, false)) (ho : wOp w = op) {waits : Bool}
    (hn : (waits && (s.core c).runAhead) = false) (k : State → Nat → State) :
    s.onInstr c op waits k = k (f.setCore c (f.core c).holdRegion) w := by
  simp [State.onInstr, hf, hr, hw, ho, hn]

theorem State.onFetch_of_idle {s : State} {c : Nat} (h : s.fetches c = false) (k : State → Nat → Bool → State) :
    s.onFetch c k = s := by
  simp [State.onFetch, h]

theorem State.onFetch_of_fetched {s f : State} {c w : Nat} {bad : Bool} (hf : s.fetches c = true)
    (hr : (s.core c).inRegions (s.core c).pc = true) (hw : s.fetchWord c = (f, w, bad)) (k : State → Nat → Bool → State) :
    s.onFetch c k = k f w bad := by
  simp [State.onFetch, hf, hr, hw]

theorem State.run_of_fetches {s : State} {c : Nat} (h : s.fetches c = true) : (s.core c).run = .running := by
  simp only [State.fetches, Bool.and_eq_true, beq_iff_eq] at h
  obtain ⟨⟨⟨⟨⟨hrun, -⟩, -⟩, -⟩, -⟩, -⟩ := h
  exact hrun

theorem Core.pc_lt_of_inRegions {x : Core} {pc : Nat} (h : x.inRegions pc = true) : pc < 2 ^ 19 := by
  simp only [Core.inRegions, Bool.and_eq_true, decide_eq_true_eq] at h
  exact h.1

/-- Holding its region changes nothing of a core but its references. -/
theorem Core.holdRegion_eq (x : Core) : ∃ r, x.holdRegion = { x with refs := r } := by
  unfold Core.holdRegion
  split <;> exact ⟨_, rfl⟩

/-- The core that takes an instruction, as its meaning finds it: the core before the fetch, but for the references. -/
theorem State.core_setCore_holdRegion {s f : State} {c : Nat} (hf : s.fetches c = true) (hr : ReadsOnly s f) :
    ∃ r, (f.setCore c (f.core c).holdRegion).core c = { s.core c with refs := r } := by
  obtain ⟨r, hx⟩ := Core.holdRegion_eq (s.core c)
  have hne : (s.core c).holdRegion ≠ Core.reset := fun e =>
    absurd (congrArg Core.run e) (by rw [hx, State.run_of_fetches hf]; decide)
  exact ⟨r, by rw [hr.core, State.core_setCore_listed _ _ hne, hx]⟩

/-- A meaning whose body is a read followed by a change to one core answers its body. -/
theorem State.ends_of_onlyCore {s f t : State} {c : Nat} (hf : ReadsOnly s f) (ht : OnlyCore c f t) : s.ends t = .next t := by
  obtain ⟨h, -⟩ := ht
  exact State.ends_of_fixed ((congrArg State.dev h).trans hf.dev) ((congrArg State.pending h).trans hf.pending)

/-! ### Halts -/

theorem bits_lt (x hi lo : Nat) : bits x hi lo < 2 ^ (hi + 1 - lo) := Nat.mod_lt _ (Nat.two_pow_pos _)

theorem wOp_lt (w : Nat) : wOp w < 256 := bits_lt w 127 120

/-- The reason stands in the top byte of the halt record's first word (Table 7.6). -/
theorem bits_reason {reason run unit opcode gen pc : Nat} (h1 : reason < 256) (h2 : run < 256) (h3 : unit < 256)
    (h4 : opcode < 256) (h5 : gen < 16) (h6 : pc < 2 ^ 19) :
    bits (reason * 2 ^ 56 + run * 2 ^ 48 + unit * 2 ^ 40 + opcode * 2 ^ 32 + gen * 2 ^ 28 + pc) 63 56 = reason := by
  unfold bits
  omega

theorem State.squashAll_of_no_commands {s : State} (h : s.cores.cmds = []) (c : Nat) : s.squashAll c = s := by
  simp [State.squashAll, h]

/-- What a halt makes of a core: a record with the reason and the detail word, no window, no references, the registers and the
program counter as they were (R181). -/
def Core.halted (x : Core) (record : List Nat) : Core :=
  { x with
    run := .halted, halt := record, window := [], sigs := [], stalled := none, refs := [], syncDone := x.syncIssued }

theorem Core.halted_ne_reset (x : Core) (record : List Nat) : x.halted record ≠ Core.reset := fun e =>
  nomatch (congrArg Core.run e : CoreRun.halted = CoreRun.idle)

/-- Without commands to squash, a halt is the halted core put in the core's place. -/
theorem State.haltCore_of_no_commands {s : State} (hq : s.cores.cmds = []) (c : Nat) {reason gen unit : Nat} (hr : reason < 256)
    (hg : gen < 16) (hu : unit < 256) (detail word mb extra : Nat) :
    ∃ record, s.haltCore c ⟨reason, detail, gen⟩ word unit mb extra = s.setCore c ((s.core c).halted record) ∧
      bits (record.getD 0 0) 63 56 = reason ∧ record.getD 3 0 = detail := by
  refine ⟨_, State.squashAll_of_no_commands (s := s.setCore c ((s.core c).halted _)) hq c, ?_, rfl⟩
  exact bits_reason hr (by decide) hu (wOp_lt word) hg (Nat.mod_lt _ (by decide))

/-- A halt with no command to squash touches its own core alone and halts it; s is any state with the same program counter and
registers. -/
theorem State.haltCore_halts {s g : State} {c : Nat} (hq : g.cores.cmds = []) (hpc : (g.core c).pc = (s.core c).pc)
    (hregs : (g.core c).regs = (s.core c).regs) {reason : Nat} (hr : reason < 256) (detail word mb extra : Nat) :
    OnlyCore c g (g.haltCore c ⟨reason, detail, 0xF⟩ word 0 mb extra) ∧
      Halts c reason detail s (g.haltCore c ⟨reason, detail, 0xF⟩ word 0 mb extra) := by
  obtain ⟨record, e, hreason, hdetail⟩ :=
    State.haltCore_of_no_commands hq c hr (by decide : 0xF < 16) (by decide : 0 < 256) detail word mb extra
  rw [e]
  refine ⟨.setCore c g _, ?_⟩
  unfold Halts
  rw [State.core_setCore_listed _ _ (Core.halted_ne_reset _ _)]
  exact ⟨rfl, hreason, hdetail, hpc, hregs, rfl, rfl⟩

/-! ### The halts of a fetch -/

section Fetch

variable {s f : State} {c : CoreId} {w : Nat}

theorem execIllegalOpcode_halts (hf : s.fetches c = true) (hq : Quiet s) (hr : (s.core c).inRegions (s.core c).pc = true)
    (hw : s.fetchWord c = (f, w, false)) (ho : wOp w ∉ opcodes) :
    ∃ t, execIllegalOpcode c s = .next t ∧ OnlyCore c f t ∧ Halts c 0x01 0 s t := by
  have hrd := ReadsOnly.of_fetchWord hw
  obtain ⟨hone, hhalt⟩ := State.haltCore_halts (s := s) (g := f) (c := c) (by rw [hrd.cores, hq.1]) (by rw [hrd.core])
    (by rw [hrd.core]) (by decide : 0x01 < 256) 0 w 0xFFFFFFFF (if (f.core c).window.isEmpty then 0 else 1)
  refine ⟨_, ?_, hone, hhalt⟩
  rw [execIllegalOpcode, State.onFetch_of_fetched hf hr hw, if_neg (by simpa using ho)]
  exact State.ends_of_onlyCore hrd hone

theorem execUncorrectableInstructionFetch_halts (hf : s.fetches c = true) (hq : Quiet s)
    (hr : (s.core c).inRegions (s.core c).pc = true) (hw : s.fetchWord c = (f, w, true)) :
    ∃ t, execUncorrectableInstructionFetch c s = .next t ∧ Halts c 0x0A (s.core c).pc s t ∧ t.mem = f.mem ∧ t.index = f.index := by
  have hrd := ReadsOnly.of_fetchWord hw
  have hdraw : ReadsOnly s f.draw.2 := hrd.trans ⟨_, _, _, rfl⟩
  have hpc : (f.core c).pc % 2 ^ 64 = (s.core c).pc := by
    have := Core.pc_lt_of_inRegions hr
    rw [hrd.core]
    omega
  obtain ⟨hone, hhalt⟩ := State.haltCore_halts (s := s) (g := f.draw.2) (c := c) (by rw [hdraw.cores, hq.1]) (by rw [hdraw.core])
    (by rw [hdraw.core]) (by decide : 0x0A < 256) ((f.core c).pc % 2 ^ 64) (Config.unreadableWord f.draw.1 % 2 ^ 128) 0xFFFFFFFF
    (if (f.draw.2.core c).window.isEmpty then 0 else 1)
  refine ⟨_, ?_, hpc ▸ hhalt, (congrArg State.mem hone.1 :), (congrArg State.index hone.1 :)⟩
  rw [execUncorrectableInstructionFetch, State.onFetch_of_fetched hf hr hw, if_pos rfl]
  exact State.ends_of_onlyCore hdraw hone

/-- A control word whose reserved bit is set halts with 0x02 and that bit's position (R15, R138). -/
theorem controlReserved_of_bit (hb : bit w 96 = true) : controlReserved w none = halt 0x02 96 := by
  have h : reservedAt w 96 96 = some 96 := by simp [reservedAt, lowestIn, hb]
  rw [controlReserved, h]
  rfl

theorem execNop_halts_of_reserved_bit (hf : s.fetches c = true) (hq : Quiet s) (hr : (s.core c).inRegions (s.core c).pc = true)
    (hw : s.fetchWord c = (f, w, false)) (ho : wOp w = 0x00) (hb : bit w 96 = true) :
    ∃ t, execNop c s = .next t ∧ OnlyCore c f t ∧ Halts c 0x02 96 s t := by
  have hrd := ReadsOnly.of_fetchWord hw
  have hnone : f.cores.cmds = [] := by rw [hrd.cores, hq.1]
  obtain ⟨r, hcore⟩ := State.core_setCore_holdRegion hf hrd
  obtain ⟨hone, hhalt⟩ := State.haltCore_halts (s := s) (g := f.setCore c (f.core c).holdRegion) (c := c) hnone (by rw [hcore])
    (by rw [hcore]) (by decide : 0x02 < 256) 96 w 0xFFFFFFFF
    (if ((f.setCore c (f.core c).holdRegion).core c).window.isEmpty then 0 else 1)
  have hall := (OnlyCore.setCore c f _).trans hone
  refine ⟨_, ?_, hall, hhalt⟩
  rw [execNop, State.onInstr_of_fetched hf hr hw ho rfl, controlReserved_of_bit hb]
  exact State.ends_of_onlyCore hrd hall

theorem execNop_halts_outside (hf : s.fetches c = true) (hq : Quiet s) (hr : (s.core c).inRegions (s.core c).pc = false) :
    ∃ t, execNop c s = .next t ∧ OnlyCore c s t ∧ Halts c 0x03 (s.core c).pc s t := by
  obtain ⟨hone, hhalt⟩ := State.haltCore_halts (s := s) (g := s) (c := c) hq.1 rfl rfl (by decide : 0x03 < 256) (s.core c).pc 0
    0xFFFFFFFF (if (s.core c).window.isEmpty then 0 else 1)
  refine ⟨_, ?_, hone, hhalt⟩
  rw [execNop, State.onInstr_of_outside hf hr]
  exact State.ends_of_onlyCore (.refl s) hone

/-- A core that cannot fetch does nothing, whatever the command asks of it. -/
theorem execNop_and_fetchHalts_of_idle (h : s.fetches c = false) :
    execNop c s = .next s ∧ execIllegalOpcode c s = .next s ∧ execUncorrectableInstructionFetch c s = .next s :=
  ⟨State.ends_self (State.onInstr_of_idle h _ _ _), State.ends_self (State.onFetch_of_idle h _),
    State.ends_self (State.onFetch_of_idle h _)⟩

end Fetch

/-- Settles O49: each halt is the halt of one core, on the state the fetch left. -/
theorem fetchesHalt : Obligations.FetchesHalt := by
  unfold Obligations.FetchesHalt
  refine fun s f c w hf hq => ⟨?_, ?_, ?_, ?_, ?_⟩
  · exact execIllegalOpcode_halts hf hq
  · exact execUncorrectableInstructionFetch_halts hf hq
  · exact execNop_halts_of_reserved_bit hf hq
  · exact fun hr _ => execNop_halts_outside hf hq hr
  · exact fun d hd => execNop_and_fetchHalts_of_idle hd

end Sys2Proof.Machine
end

section
/-!
SUPPORT. Writes of the Index by command: what a block write checks and applies, and the settlement of O23 (R26, R340, R350).
-/
namespace Sys2Proof.Machine

open Sys2Proof

/-! ### Big-endian numbers -/

theorem leBytes_length (n x : Nat) : (leBytes n x).length = n := by
  induction n generalizing x with
  | zero => rfl
  | succ n ih => simp [leBytes, ih]

@[simp] theorem beBytes_length (n x : Nat) : (beBytes n x).length = n := by simp [beBytes, leBytes_length]

theorem leNat_leBytes (n x : Nat) : leNat (leBytes n x) = x % 256 ^ n := by
  induction n generalizing x with
  | zero => simp [leBytes, leNat, Nat.mod_one]
  | succ n ih =>
    rw [leBytes, leNat, ih, BitVec.toNat_ofNat, pow_succ' 256 n, Nat.mod_mul (a := 256)]

theorem leNat_lt (b : Bytes) : leNat b < 256 ^ b.length := by
  induction b with
  | nil => decide
  | cons x b ih =>
    have hx : x.toNat < 256 := x.isLt
    rw [leNat, List.length_cons, pow_succ]
    omega

theorem beNat_lt (b : Bytes) : beNat b < 256 ^ b.length := by
  have := leNat_lt b.reverse
  rwa [List.length_reverse] at this

theorem beNat_beBytes (n x : Nat) : beNat (beBytes n x) = x % 256 ^ n := by
  rw [beNat, beBytes, List.reverse_reverse, leNat_leBytes]

/-- A number that fits its bytes is read back. -/
theorem beNat_beBytes_of_lt {n x : Nat} (h : x < 256 ^ n) : beNat (beBytes n x) = x := by
  rw [beNat_beBytes, Nat.mod_eq_of_lt h]

/-! ### The Index store -/

theorem mem_fset {α : Type} [DecidableEq α] {d : α} {m : FMap α} {k : Nat} {v : α} {e : Nat × α} (h : e ∈ fset d m k v) :
    e = (k, v) ∧ v ≠ d ∨ e ∈ m := by
  induction m with
  | nil =>
    unfold fset at h
    split at h <;> simp_all
  | cons x t ih =>
    obtain ⟨a, w⟩ := x
    unfold fset at h
    split at h
    · split at h
      · exact .inr h
      · exact (List.mem_cons.1 h).imp (⟨·, ‹_›⟩) id
    · split at h
      · split at h
        · exact .inr (List.mem_cons_of_mem _ h)
        · exact (List.mem_cons.1 h).imp (⟨·, ‹_›⟩) (List.mem_cons_of_mem _)
      · obtain rfl | h := List.mem_cons.1 h
        · exact .inr List.mem_cons_self
        · exact (ih h).imp id (List.mem_cons_of_mem _)

/-- Setting a key keeps the keys rising. -/
theorem sorted_fset {α : Type} [DecidableEq α] {d : α} {m : FMap α} (h : (m.map Prod.fst).Pairwise (· < ·)) (k : Nat) (v : α) :
    ((fset d m k v).map Prod.fst).Pairwise (· < ·) := by
  rw [List.pairwise_map] at h ⊢
  induction m with
  | nil =>
    unfold fset
    split <;> simp
  | cons x t ih =>
    obtain ⟨a, w⟩ := x
    obtain ⟨hx, ht⟩ := List.pairwise_cons.1 h
    unfold fset
    split
    · split
      · exact h
      · refine List.pairwise_cons.2 ⟨fun e he => ?_, h⟩
        obtain rfl | he := List.mem_cons.1 he
        · assumption
        · exact Nat.lt_trans ‹k < a› (hx e he)
    · split
      · subst_vars
        split
        · exact ht
        · exact List.pairwise_cons.2 ⟨hx, ht⟩
      · refine List.pairwise_cons.2 ⟨fun e he => ?_, ih ht⟩
        obtain ⟨rfl, -⟩ | he := mem_fset he
        · exact Nat.lt_of_le_of_ne (Nat.le_of_not_lt ‹_›) ‹_›
        · exact hx e he

theorem indexWf_iff {m : FMap Nat} :
    indexWf m = true ↔ (m.map Prod.fst).Pairwise (· < ·) ∧ ∀ e ∈ m, e.2 ≠ resetOf e.1 := by
  simp [indexWf]

/-- Setting an entry keeps the canonical form of the Index store. -/
theorem State.indexWf_idxSet {s : State} (h : indexWf s.index = true) (i sub v : Nat) : indexWf (s.idxSet i sub v).index = true := by
  obtain ⟨hs, hd⟩ := indexWf_iff.1 h
  refine indexWf_iff.2 ⟨sorted_fset hs _ _, fun e he => ?_⟩
  obtain ⟨rfl, hv⟩ | he := mem_fset he
  · exact hv
  · exact hd e he

/-! ### Which writes wait -/

/-- An access that does not name 0x7011.00 meets no window row. -/
theorem State.accessWaits_of_no_memory (s : State) {rs : List IndexRecord} (h : ∀ r ∈ rs, r.index ≠ 0x7011) :
    s.accessWaits rs = false := by
  unfold State.accessWaits
  generalize s.idx 0x7010 0 = a
  induction rs generalizing a with
  | nil => rfl
  | cons r rs ih =>
    obtain ⟨hr, hrs⟩ := List.forall_mem_cons.1 h
    rw [List.foldl_cons, if_neg hr]
    split <;> exact ih hrs _

/-! ### The status of one record -/

theorem entryOf_spec {i sub : Nat} {e : EntryDef} (h : entryOf i sub = some e) : e ∈ entryTable ∧ e.lo ≤ i ∧ i ≤ e.hi := by
  have hrow := List.find?_some h
  simp only [Bool.and_eq_true, decide_eq_true_eq] at hrow
  obtain ⟨⟨⟨hlo, hhi⟩, -⟩, -⟩ := hrow
  exact ⟨List.mem_of_find?_eq_some h, hlo, hhi⟩

/-- A numeric record that is accepted has its entry's size, and the entry's own rule allows it. -/
theorem State.numericStatus_of_accepted {s s0 : State} {block : Bool} {group : List (Nat × Nat)} {i sub : Nat} {d : Bytes}
    (h : s.writeStatus s0 block group i sub d = 0) : ∃ e, entryOf i sub = some e ∧
      (e.type.isBytes = false → d.length = e.type.size ∧ s.numericStatus s0 group i sub (beNat d) = 0) := by
  unfold State.writeStatus at h
  cases he : entryOf i sub with
  | none => simp [he] at h
  | some e =>
    refine ⟨e, rfl, fun hn => ?_⟩
    simp only [he] at h
    simp only [hn, Bool.false_eq_true, if_false] at h
    repeat' split at h
    all_goals simp_all

/-- A numeric entry whose bytes may spell any number and that takes writes at any time, but for its own rule (Table 15.3). -/
abbrev EntryDef.TakesNumbers (e : EntryDef) : Prop := (e.access = .rw ∨ e.access = .wo) ∧ e.type.isBytes = false ∧ e.type ≠ .boolean

/-- The status of a record of an entry below 0x4000 with the entry's size: the entry's own rule decides. -/
theorem State.writeStatus_of_low {s s0 : State} (ha : s.power.railsAbsent = false) {i sub : Nat} {e : EntryDef}
    (he : entryOf i sub = some e) (hi : i < 0x4000) (hx : e.TakesNumbers) {d : Bytes} (hd : d.length = e.type.size) (block : Bool)
    (group : List (Nat × Nat)) : s.writeStatus s0 block group i sub d = b2n (s.refusesLow s0 group i sub (beNat d)) := by
  obtain ⟨hx, hn, hb⟩ := hx
  have hans : s.answers i = true := by simp [State.answers, ha]
  have hright : s.rightOf e i = e.access := if_neg (by simp; omega)
  have hfree : s.writeForbidden e i = false := by
    unfold State.writeForbidden
    rw [hright]
    obtain hx | hx := hx <;> rw [hx]
  have hne : i ≠ 0x5071 := by omega
  simp [State.writeStatus, he, hans, hfree, hn, hb, hd, State.numericStatus, hne, hi]

/-! ### A block write by command -/

/-- The records that a command's writes make. -/
def commandRecords (ws : List (Nat × Nat × Bytes)) : List IndexRecord := ws.map (fun w => requestRecord w.1 w.2.1 w.2.2.length w.2.2)

theorem firstStatus_of_applied (rs : List IndexRecord) : firstStatus (rs.map (fun r => r.answer 0 [])) = 0 := by
  have : (rs.map (fun r => r.answer 0 [])).find? (fun r => r.status ≠ 0) = none := by
    simp [IndexRecord.answer]
  rw [firstStatus, this]
  rfl

theorem firstStatus_of_refused_head (r : IndexRecord) (rs : List IndexRecord) {st : Nat} (h : st ≠ 0) :
    firstStatus (refusedRecords (r :: rs) 0 st) = st := by
  simp [firstStatus, refusedRecords, List.range_succ_eq_map, IndexRecord.answer, h]

/-- An accepted record is applied, and the records behind it go on. -/
theorem State.foldWrites_cons_of_accepted {s0 s : State} {block : Bool} {group : List (Nat × Nat)} {r : IndexRecord}
    (h : s.writeStatus s0 block group r.index r.sub r.data = 0) (rs : List IndexRecord) (k : Nat) :
    State.foldWrites s0 block group (r :: rs) k s = State.foldWrites s0 block group rs (k + 1) (s.applyWrite r.index r.sub r.data) :=
  if_pos h

/-- A refused record ends the write, with its position and status. -/
theorem State.foldWrites_cons_of_refused {s0 s : State} {block : Bool} {group : List (Nat × Nat)} {r : IndexRecord}
    (h : s.writeStatus s0 block group r.index r.sub r.data ≠ 0) (rs : List IndexRecord) (k : Nat) :
    State.foldWrites s0 block group (r :: rs) k s = (s, some (k, s.writeStatus s0 block group r.index r.sub r.data)) :=
  if_neg h

/-- A command's block write is one write access, whose status is noted. -/
theorem State.write_of_served {s : State} {ws : List (Nat × Nat × Bytes)} (hs : s.served = true) (hm : ∀ w ∈ ws, w.1 ≠ 0x7011) :
    s.write ws = (s.writeAccess true (commandRecords ws)).1.noteAccess
      (firstStatus (s.writeAccess true (commandRecords ws)).2) [] := by
  have hw : s.accessWaits (commandRecords ws) = false := s.accessWaits_of_no_memory (List.forall_mem_map.2 hm)
  exact if_neg (by rw [hs, ← commandRecords, hw]; decide)

/-- A block write of which no record is refused leaves what its records make of the state. -/
theorem State.write_of_applied {s t : State} {ws : List (Nat × Nat × Bytes)} (hs : s.served = true) (hm : ∀ w ∈ ws, w.1 ≠ 0x7011)
    (h : State.foldWrites s true (recordGroup (commandRecords ws)) (commandRecords ws) 0 s = (t, none)) :
    s.write ws = t.noteAccess 0 [] := by
  rw [State.write_of_served hs hm, State.writeAccess, h, firstStatus_of_applied]

/-- A block write whose first record is refused notes that record's status and changes nothing else (R350). -/
theorem State.write_of_refused_head {s : State} {i sub : Nat} {b : Bytes} {ws : List (Nat × Nat × Bytes)} (hs : s.served = true)
    (hm : ∀ w ∈ (i, sub, b) :: ws, w.1 ≠ 0x7011)
    (h : s.writeStatus s true (recordGroup (commandRecords ((i, sub, b) :: ws))) i sub b ≠ 0) :
    s.write ((i, sub, b) :: ws) =
      s.noteAccess (s.writeStatus s true (recordGroup (commandRecords ((i, sub, b) :: ws))) i sub b) [] := by
  rw [State.write_of_served hs hm, State.writeAccess, commandRecords, List.map_cons, State.foldWrites_cons_of_refused h]
  exact congrArg (s.noteAccess · []) (firstStatus_of_refused_head _ _ h)

/-- Where no record is refused, each was accepted in some state on the way. -/
theorem State.accepted_of_foldWrites {s0 t : State} {block : Bool} {group : List (Nat × Nat)} {rs : List IndexRecord} {k : Nat}
    {s : State} (h : State.foldWrites s0 block group rs k s = (t, none)) {r : IndexRecord} (hr : r ∈ rs) :
    ∃ u : State, u.writeStatus s0 block group r.index r.sub r.data = 0 := by
  induction rs generalizing k s with
  | nil => cases hr
  | cons x rs ih =>
    rw [State.foldWrites] at h
    by_cases hx : s.writeStatus s0 block group x.index x.sub x.data = 0
    · obtain rfl | hr := List.mem_cons.1 hr
      · exact ⟨s, hx⟩
      · exact ih ((if_pos hx).symm.trans h) hr
    · cases (if_neg hx).symm.trans h

theorem State.applyWrite_of_numeric (s : State) {i sub : Nat} {e : EntryDef} (he : entryOf i sub = some e)
    (hn : e.type.isBytes = false) (d : Bytes) : s.applyWrite i sub d = s.applyNumber i sub (beNat d) := by
  simp [State.applyWrite, he, hn]

/-! ### The three entries of R26 -/

/-- A request names all three entries of R26. -/
def namesAll (group : List (Nat × Nat)) : Bool :=
  group.contains (0x1002, 0) && group.contains (0x1011, 0) && group.contains (0x1016, 0)

/-- The rows of the three entries: numeric, written at will but for R26, and the address has two bytes. -/
theorem addressRow {i sub : Nat} (hi : i = 0x1002 ∨ i = 0x1016 ∨ i = 0x1011) {e : EntryDef} (h : entryOf i sub = some e) :
    e.type.isBytes = false ∧ (i = 0x1002 → e.type.size = 2) := by
  have table : ∀ e ∈ entryTable, ∀ i ∈ [0x1002, 0x1016, 0x1011], e.lo ≤ i → i ≤ e.hi →
      e.type.isBytes = false ∧ (i = 0x1002 → e.type.size = 2) := by decide +kernel
  obtain ⟨he, hlo, hhi⟩ := entryOf_spec h
  exact table e he i (by simpa using hi) hlo hhi

theorem State.refusesLow_address (s s0 : State) (group : List (Nat × Nat)) (sub v : Nat) :
    s.refusesLow s0 group 0x1002 sub v = !(namesAll group && s.address == 0 && v != 0 && v != 0xFFFF) := rfl

theorem State.refusesLow_manager (s s0 : State) (group : List (Nat × Nat)) (sub v : Nat) :
    s.refusesLow s0 group 0x1011 sub v = !(namesAll group && s0.address == 0) := rfl

theorem State.refusesLow_depth (s s0 : State) (group : List (Nat × Nat)) (sub v : Nat) :
    s.refusesLow s0 group 0x1016 sub v = !(namesAll group && s0.address == 0 && decide (v ≤ 2)) := rfl

/-- R26 of one accepted record: its request names the three entries, the folio has no address, and the new one is in range. -/
theorem State.setTogether_of_accepted {s s0 : State} {block : Bool} {group : List (Nat × Nat)} {i sub : Nat} {d : Bytes}
    (hi : i = 0x1002 ∨ i = 0x1016 ∨ i = 0x1011) (h : s.writeStatus s0 block group i sub d = 0) :
    namesAll group = true ∧ (i = 0x1002 → s.address = 0 ∧ 1 ≤ beNat d ∧ beNat d ≤ 0xFFFE) ∧ (i ≠ 0x1002 → s0.address = 0) := by
  obtain ⟨e, he, hnum⟩ := State.numericStatus_of_accepted h
  obtain ⟨hn, hsize⟩ := addressRow hi he
  obtain ⟨hlen, hst⟩ := hnum hn
  have hlow : s.refusesLow s0 group i sub (beNat d) = false := by
    have hne : i ≠ 0x5071 := by omega
    have hlt : i < 0x4000 := by omega
    simpa [State.numericStatus, hne, hlt, b2n] using hst
  obtain rfl | rfl | rfl := hi
  · have hd := beNat_lt d
    rw [hlen, hsize rfl] at hd
    simp [State.refusesLow_address] at hlow
    refine ⟨by tauto, fun _ => ⟨by tauto, by omega, by omega⟩, fun h => absurd rfl h⟩
  · simp [State.refusesLow_depth] at hlow
    exact ⟨by tauto, nofun, fun _ => by tauto⟩
  · simp [State.refusesLow_manager] at hlow
    exact ⟨by tauto, nofun, fun _ => by tauto⟩

/-- An entry below 0x4000 that its own rule allows takes the value of a record of its size. -/
theorem State.foldWrites_cons_of_low {s0 s : State} (ha : s.power.railsAbsent = false) {block : Bool} {group : List (Nat × Nat)}
    {i sub n v : Nat} {e : EntryDef} (he : entryOf i sub = some e) (hi : i < 0x4000) (hx : e.TakesNumbers) (hsize : n = e.type.size)
    (hv : v < 256 ^ n) (hr : s.refusesLow s0 group i sub v = false) (rs : List IndexRecord) (k : Nat) :
    State.foldWrites s0 block group (requestRecord i sub (beBytes n v).length (beBytes n v) :: rs) k s =
      State.foldWrites s0 block group rs (k + 1) (s.applyNumber i sub v) := by
  have hval := beNat_beBytes_of_lt hv
  obtain ⟨-, hn, -⟩ := id hx
  have hst : s.writeStatus s0 block group i sub (beBytes n v) = 0 := by
    rw [State.writeStatus_of_low ha he hi hx ((beBytes_length n v).trans hsize), hval, hr]
    rfl
  refine (State.foldWrites_cons_of_accepted hst rs k).trans (congrArg (State.foldWrites s0 block group rs (k + 1)) ?_)
  exact (s.applyWrite_of_numeric he hn _).trans (congrArg _ hval)

/-- The records of an assignment (R26). -/
def assignment (a d m : Nat) : List (Nat × Nat × Bytes) :=
  [(0x1002, 0, beBytes 2 a), (0x1016, 0, beBytes 1 d), (0x1011, 0, beBytes 2 m)]

/-- In a block write of the three entries to a folio without an address, each takes its value. -/
theorem foldWrites_assignment {s : State} (ha : s.power.railsAbsent = false) (h0 : s.address = 0) {a m d : Nat} (h1 : 1 ≤ a)
    (h2 : a ≤ 0xFFFE) (hd : d ≤ 2) (hm : m < 65536) (k : Nat) :
    State.foldWrites s true (recordGroup (commandRecords (assignment a d m))) (commandRecords (assignment a d m)) k s =
      (((s.idxSet 0x1002 0 a).idxSet 0x1016 0 d).idxSet 0x1011 0 m, none) := by
  have hall : namesAll (recordGroup (commandRecords (assignment a d m))) = true := rfl
  generalize recordGroup (commandRecords (assignment a d m)) = group at hall
  have haddress : s.refusesLow s group 0x1002 0 a = false := by
    rw [State.refusesLow_address, hall, h0]
    simp
    omega
  have hdepth : (s.idxSet 0x1002 0 a).refusesLow s group 0x1016 0 d = false := by
    simp [State.refusesLow_depth, hall, h0, hd]
  have hmanager : ((s.idxSet 0x1002 0 a).idxSet 0x1016 0 d).refusesLow s group 0x1011 0 m = false := by
    simp [State.refusesLow_manager, hall, h0]
  refine (State.foldWrites_cons_of_low (n := 2) ha rfl (by decide) (by decide) rfl (by omega) haddress _ k).trans ?_
  refine (State.foldWrites_cons_of_low (s := s.idxSet 0x1002 0 a) (i := 0x1016) (n := 1) ha rfl (by decide) (by decide) rfl (by omega)
    hdepth _ _).trans ?_
  exact State.foldWrites_cons_of_low (s := (s.idxSet 0x1002 0 a).idxSet 0x1016 0 d) (i := 0x1011) (n := 2) ha rfl (by decide)
    (by decide) rfl (by omega) hmanager _ _

/-- The three entries read what an assignment set. -/
theorem State.idx_assignment {s : State} (h : indexWf s.index = true) (a d m : Nat) :
    (((s.idxSet 0x1002 0 a).idxSet 0x1016 0 d).idxSet 0x1011 0 m).address = a ∧
      (((s.idxSet 0x1002 0 a).idxSet 0x1016 0 d).idxSet 0x1011 0 m).idx 0x1016 0 = d ∧
      (((s.idxSet 0x1002 0 a).idxSet 0x1016 0 d).idxSet 0x1011 0 m).idx 0x1011 0 = m := by
  have ha := State.indexWf_idxSet h 0x1002 0 a
  refine ⟨?_, ?_, State.idx_idxSet_self (State.indexWf_idxSet ha _ _ _) _ _ _⟩
  · rw [State.address, State.idx_idxSet_ne _ _ (by decide), State.idx_idxSet_ne _ _ (by decide), State.idx_idxSet_self h]
  · rw [State.idx_idxSet_ne _ _ (by decide), State.idx_idxSet_self ha]

theorem execAssignAddress_sets {s : State} (hs : Serves s) (hc : Canonical s) {a m : BitVec 16} {d : BitVec 8} (h0 : s.address = 0)
    (h1 : 1 ≤ a.toNat) (h2 : a.toNat ≤ 0xFFFE) (hd : d.toNat ≤ 2) :
    ∃ t, execAssignAddress a d m s = .next t ∧ t.address = a.toNat ∧ t.idx 0x1016 0 = d.toNat ∧ t.idx 0x1011 0 = m.toNat ∧
      t = { s with index := t.index, lastStatus := 0, lastData := [] } := by
  obtain ⟨hserved, hrails⟩ := hs
  obtain ⟨-, -, -, -, hindex⟩ := hc
  obtain ⟨haddress, hdepth, hmanager⟩ := State.idx_assignment hindex a.toNat d.toNat m.toNat
  exact State.ends_answers (State.write_of_applied (ws := assignment a.toNat d.toNat m.toNat) hserved (by simp [assignment])
    (foldWrites_assignment hrails h0 h1 h2 hd m.isLt 0)) ⟨haddress, hdepth, hmanager, rfl⟩

/-- A command's block write that names an entry of R26 first and breaks the rule changes nothing but what is noted of it. -/
theorem State.ends_write_of_refused_head {s : State} (hs : s.served = true) {i sub : Nat} {b : Bytes} {ws : List (Nat × Nat × Bytes)}
    (hm : ∀ w ∈ (i, sub, b) :: ws, w.1 ≠ 0x7011)
    (h : s.writeStatus s true (recordGroup (commandRecords ((i, sub, b) :: ws))) i sub b ≠ 0) :
    ∃ t, s.ends (s.write ((i, sub, b) :: ws)) = .next t ∧ t.lastStatus ≠ 0 ∧
      t = { s with lastStatus := t.lastStatus, lastData := [] } :=
  State.ends_answers (State.write_of_refused_head hs hm h) ⟨h, rfl⟩

theorem execAssignAddress_refuses {s : State} (hs : s.served = true) {a m : BitVec 16} {d : BitVec 8}
    (h : s.address ≠ 0 ∨ a = 0 ∨ a = 0xFFFF) :
    ∃ t, execAssignAddress a d m s = .next t ∧ t.lastStatus ≠ 0 ∧ t = { s with lastStatus := t.lastStatus, lastData := [] } := by
  refine State.ends_write_of_refused_head hs (by simp) fun hst => ?_
  obtain ⟨-, haddress, -⟩ := State.setTogether_of_accepted (.inl rfl) hst
  obtain ⟨h0, h1, h2⟩ := haddress rfl
  rw [beNat_beBytes_of_lt a.isLt] at h1 h2
  obtain h | rfl | rfl := h
  · exact h h0
  · exact absurd h1 (by decide)
  · exact absurd h2 (by decide)

theorem execRegisterWrite_refuses_one_of_three {s : State} (hs : s.served = true) {i : BitVec 16} (b : Bytes)
    (hi : i = 0x1002 ∨ i = 0x1016 ∨ i = 0x1011) :
    ∃ t, execRegisterWrite i 0 b s = .next t ∧ t.lastStatus ≠ 0 ∧ t = { s with lastStatus := t.lastStatus, lastData := [] } := by
  have hn : i.toNat = 0x1002 ∨ i.toNat = 0x1016 ∨ i.toNat = 0x1011 := hi.imp (congrArg _) (.imp (congrArg _) (congrArg _))
  refine State.ends_write_of_refused_head hs (by simp; omega) fun hst => ?_
  obtain ⟨hall, -, -⟩ := State.setTogether_of_accepted hn hst
  simp [namesAll, recordGroup, commandRecords, requestRecord] at hall
  omega

/-- What R26 asks of an access of which no record is refused. -/
theorem setTogether_of_foldWrites {s t : State} {block : Bool} {rs : List IndexRecord}
    (h : State.foldWrites s block (recordGroup rs) rs 0 s = (t, none)) {e : IndexRecord} (he : e ∈ rs)
    (hi : e.index = 0x1002 ∨ e.index = 0x1016 ∨ e.index = 0x1011) :
    s.address = 0 ∧ (∀ i, i = 0x1002 ∨ i = 0x1016 ∨ i = 0x1011 → ∃ k ∈ rs, k.index = i ∧ k.sub = 0) ∧
      (e.index = 0x1002 → 1 ≤ beNat e.data ∧ beNat e.data ≤ 0xFFFE) := by
  obtain ⟨u, hu⟩ := State.accepted_of_foldWrites h he
  obtain ⟨hall, hrange, -⟩ := State.setTogether_of_accepted hi hu
  have named : ∀ i, i = 0x1002 ∨ i = 0x1016 ∨ i = 0x1011 → ∃ k ∈ rs, k.index = i ∧ k.sub = 0 := by
    simp [namesAll, recordGroup] at hall
    rintro i (rfl | rfl | rfl) <;> tauto
  obtain ⟨k, hk, hindex, -⟩ := named 0x1011 (by simp)
  obtain ⟨w, hw⟩ := State.accepted_of_foldWrites h hk
  obtain ⟨-, -, hempty⟩ := State.setTogether_of_accepted (.inr (.inr hindex)) hw
  exact ⟨hempty (by rw [hindex]; decide), named, fun h => (hrange h).2⟩

/-- Settles O23: the rule of R26 read off each accepted record; the manager's record says that the folio had no address. -/
theorem anAddressIsSetInOneBlockWrite : Obligations.AnAddressIsSetInOneBlockWrite := by
  unfold Obligations.AnAddressIsSetInOneBlockWrite
  rintro s ⟨hserved, hrails⟩ hc
  refine ⟨?_, ?_, ?_, ?_⟩
  · exact fun a m d => execAssignAddress_sets ⟨hserved, hrails⟩ hc
  · exact fun a m d => execAssignAddress_refuses hserved
  · exact fun i b => execRegisterWrite_refuses_one_of_three hserved b
  · exact fun block rs t h e he hi => setTogether_of_foldWrites h he hi

end Sys2Proof.Machine
end

section
/-!
SUPPORT. Requests that the device sends out of a port, discovery, its timeout, and release of the address (R25, R31).
-/
namespace Sys2Proof.Machine

open Sys2Proof

/-! ### Release of the address (R31) -/

theorem State.idx_idxSet_other (s : State) {i sub j k : Nat} (hk : k < 256) (hs : sub < 256) (v : Nat) (h : j ≠ i) :
    (s.idxSet i sub v).idx j k = s.idx j k :=
  s.idx_idxSet_ne v fun e => h (ikey_inj hk hs e).1

/-- A release returns the address, the feed depth, the manager and the role to zero, and no other entry changes. -/
theorem State.idx_releaseFolio {s : State} (h : indexWf s.index = true) :
    (∀ i ∈ [0x1002, 0x1010, 0x1011, 0x1016], s.releaseFolio.idx i 0 = 0) ∧
      ∀ i sub, sub < 256 → i ∉ [0x1002, 0x1010, 0x1011, 0x1016] → s.releaseFolio.idx i sub = s.idx i sub := by
  have h1 := State.indexWf_idxSet h 0x1002 0 0
  have h2 := State.indexWf_idxSet h1 0x1011 0 0
  have h3 := State.indexWf_idxSet h2 0x1016 0 0
  refine ⟨fun i hi => ?_, fun i sub hs hi => ?_⟩
  · simp only [List.mem_cons, List.not_mem_nil, or_false] at hi
    unfold State.releaseFolio
    obtain rfl | rfl | rfl | rfl := hi
    · rw [State.idx_idxSet_ne _ _ (by decide), State.idx_idxSet_ne _ _ (by decide), State.idx_idxSet_ne _ _ (by decide),
        State.idx_idxSet_self h]
    · exact State.idx_idxSet_self h3 _ _ _
    · rw [State.idx_idxSet_ne _ _ (by decide), State.idx_idxSet_ne _ _ (by decide), State.idx_idxSet_self h1]
    · rw [State.idx_idxSet_ne _ _ (by decide), State.idx_idxSet_self h2]
  · simp only [List.mem_cons, List.not_mem_nil, or_false, not_or] at hi
    obtain ⟨ha, hr, hm, hd⟩ := hi
    rw [State.releaseFolio, State.idx_idxSet_other _ hs (by decide) _ hr, State.idx_idxSet_other _ hs (by decide) _ hd,
      State.idx_idxSet_other _ hs (by decide) _ hm, State.idx_idxSet_other _ hs (by decide) _ ha]

theorem State.refusesLow_release (s s0 : State) (group : List (Nat × Nat)) (sub v : Nat) :
    s.refusesLow s0 group 0x1014 sub v = (s.binding.loaded || v != s.address) := rfl

theorem execFolioRelease_releases {s : State} (hs : Serves s) (hc : Canonical s) {v : BitVec 16} (hl : s.binding.loaded = false)
    (hv : v.toNat = s.address) :
    ∃ t, execFolioRelease v s = .next t ∧ t.address = 0 ∧ t.idx 0x1011 0 = 0 ∧ t.idx 0x1016 0 = 0 ∧ t.idx 0x1010 0 = 0 ∧
      (∀ i sub, sub < 256 → i ∉ [0x1002, 0x1010, 0x1011, 0x1016] → t.idx i sub = s.idx i sub) ∧
      t = { s with index := t.index, lastStatus := 0, lastData := [] } := by
  obtain ⟨hserved, hrails⟩ := hs
  obtain ⟨-, -, -, -, hindex⟩ := hc
  obtain ⟨hzero, hother⟩ := State.idx_releaseFolio hindex
  have hfold := State.foldWrites_cons_of_low (s0 := s) (block := true) (group := [(0x1014, 0)]) hrails (i := 0x1014) (sub := 0) (n := 2) rfl
    (by decide) (by decide) rfl v.isLt (by simp [State.refusesLow_release, hl, hv]) [] 0
  exact State.ends_answers (State.write_of_applied hserved (by simp) hfold)
    ⟨hzero 0x1002 (by decide), hzero 0x1011 (by decide), hzero 0x1016 (by decide), hzero 0x1010 (by decide), hother, rfl⟩

theorem execFolioRelease_refuses {s : State} (hs : Serves s) {v : BitVec 16} (h : s.binding.loaded = true ∨ v.toNat ≠ s.address) :
    execFolioRelease v s = .next (s.noteAccess 1 []) := by
  obtain ⟨hserved, hrails⟩ := hs
  have hst : s.writeStatus s true (recordGroup (commandRecords [(0x1014, 0, beBytes 2 v.toNat)])) 0x1014 0 (beBytes 2 v.toNat) = 1 := by
    rw [State.writeStatus_of_low hrails rfl (by decide) (by decide) rfl, beNat_beBytes_of_lt v.isLt, State.refusesLow_release]
    obtain h | h := h <;> simp [h, b2n]
  have hw : s.writeNumber 0x1014 0 2 v.toNat = s.noteAccess 1 [] :=
    (State.write_of_refused_head hserved (by simp) (by rw [hst]; decide)).trans (congrArg (s.noteAccess · []) hst)
  rw [execFolioRelease, hw]
  exact State.ends_of_fixed rfl rfl

/-! ### Changes to one port -/

/-- Between s and t nothing changes but port p. -/
def OnlyPort (p : Nat) (s t : State) : Prop := t = { s with ports := t.ports } ∧ ∀ q, q ≠ p → t.port q = s.port q

theorem OnlyPort.setPort (s : State) (p : Nat) (x : Port) : OnlyPort p s (s.setPort p x) :=
  ⟨rfl, fun _ hq => s.port_setPort_ne x hq⟩

theorem OnlyPort.trans {p : Nat} {s t u : State} (h : OnlyPort p s t) (k : OnlyPort p t u) : OnlyPort p s u := by
  obtain ⟨h1, h2⟩ := h
  obtain ⟨k1, k2⟩ := k
  refine ⟨?_, fun q hq => (k2 q hq).trans (h2 q hq)⟩
  rw [h1] at k1
  exact k1

/-- The stores that hold port p and its queues are canonical. -/
abbrev PortCanonical (p : Nat) (s : State) : Prop := fwf Port.reset s.ports = true ∧ fwf Queue.reset (s.port p).queues = true

theorem Port.queue_setQueue_self {x : Port} (h : fwf Queue.reset x.queues = true) (v : Nat) (q : Queue) :
    (x.setQueue v q).queue v = q := fget_fset_self h v q

theorem Port.queue_setQueue_ne (x : Port) {v w : Nat} (q : Queue) (h : w ≠ v) : (x.setQueue v q).queue w = x.queue w :=
  fget_fset_ne _ _ _ h

/-- Setting a queue of a port keeps the stores canonical, and the queue reads what it was set to. -/
theorem State.setPort_setQueue {s : State} {p : Nat} (h : PortCanonical p s) (v : Nat) (q : Queue) :
    PortCanonical p (s.setPort p ((s.port p).setQueue v q)) ∧
      ((s.setPort p ((s.port p).setQueue v q)).port p) = (s.port p).setQueue v q := by
  obtain ⟨hp, hq⟩ := h
  have hself := State.port_setPort_self hp p ((s.port p).setQueue v q)
  refine ⟨⟨fwf_fset hp _ _, ?_⟩, hself⟩
  rw [hself]
  exact fwf_fset hq v q

/-- Head tags change no queue's frames: the state as it is, or one queue of the port with its frames as they were. -/
theorem State.retagQueue_cases (s : State) (p v : Nat) : s.retagQueue p v = s ∨
    ∃ q, s.retagQueue p v = s.setPort p ((s.port p).setQueue v q) ∧ q.frames = ((s.port p).queue v).frames := by
  unfold State.retagQueue
  dsimp only
  split
  · exact .inr ⟨_, rfl, rfl⟩
  · repeat' split
    · exact .inr ⟨_, rfl, rfl⟩
    · exact .inl rfl
    · exact .inr ⟨_, rfl, rfl⟩
    · exact .inr ⟨_, rfl, rfl⟩

/-- Between s and t only port p changes, and its queues hold the frames that they held. -/
def RetagsOnly (p : Nat) (s t : State) : Prop :=
  OnlyPort p s t ∧ PortCanonical p t ∧ ∀ w, ((t.port p).queue w).frames = ((s.port p).queue w).frames

theorem RetagsOnly.retagQueue {p : Nat} {s t : State} (h : RetagsOnly p s t) (v : Nat) : RetagsOnly p s (t.retagQueue p v) := by
  obtain e | ⟨q, e, hq⟩ := t.retagQueue_cases p v
  · rwa [e]
  · obtain ⟨hone, hcan, hframes⟩ := h
    obtain ⟨hcan', hport⟩ := State.setPort_setQueue hcan v q
    obtain ⟨-, hqueues⟩ := hcan
    rw [e]
    refine ⟨hone.trans (.setPort t p _), hcan', fun w => ?_⟩
    rw [hport, ← hframes w]
    by_cases hw : w = v
    · rw [hw, Port.queue_setQueue_self hqueues, hq]
    · rw [Port.queue_setQueue_ne _ _ hw]

theorem State.retag_retagsOnly {s : State} {p : Nat} (h : PortCanonical p s) : RetagsOnly p s (s.retag p) :=
  P_foldl (P := RetagsOnly p s) ⟨⟨rfl, fun _ _ => rfl⟩, h, fun _ => rfl⟩ fun _ v ht => ht.retagQueue v

/-! ### A request that leaves -/

/-- Port p takes a frame on VC7 (R328, R331, R368). -/
abbrev LinkOpen (p : Nat) (s : State) : Prop :=
  (s.port p).up = true ∧ s.clock.coasting = false ∧ s.mode p ≠ 4 ∧ fwf Queue.reset (s.port p).queues = true

/-- Between s and t frame f has entered port p's queue of VC7, the port waits with attachment a, and nothing else changes. -/
def Requests (p : Nat) (f : Frame) (a : Attach) (s t : State) : Prop :=
  OnlyPort p s t ∧ fwf Port.reset t.ports = true ∧ (t.port p).attach = a ∧
    ((t.port p).queue 7).frames = ((s.port p).queue 7).frames ++ [{ f with queued := s.now }]

theorem Port.closed_of_index (x : Port) : x.closed 7 = false := by simp [Port.closed]

/-- An open link takes the frame to the end of its queue, and the port's head tags follow. -/
theorem State.enqueue_of_open {s : State} {p : Nat} (hl : LinkOpen p s) {f : Frame} (hv : f.vc = 7) :
    ∃ q, (s.enqueue p f).1 = (s.setPort p ((s.port p).setQueue 7 q)).retag p ∧
      q.frames = ((s.port p).queue 7).frames ++ [{ f with queued := s.now }] := by
  obtain ⟨hup, hcoast, hmode, -⟩ := hl
  have hopen : (!(s.port p).up || s.clock.coasting || (s.mode p = 4 && f.vc ≥ 4) || (s.port p).closed f.vc) = false := by
    simp [hup, hcoast, hmode, hv, Port.closed_of_index]
  unfold State.enqueue
  dsimp only
  rw [if_neg (by rw [hopen]; decide), hv]
  refine ⟨{ (s.port p).queue 7 with frames := _ }, ?_, rfl⟩
  dsimp only

theorem State.requests_of_open {s : State} {p : Nat} (hp : fwf Port.reset s.ports = true) (hl : LinkOpen p s) {f : Frame}
    (hv : f.vc = 7) (a : Attach) : Requests p f a s ((s.enqueue p f).1.setAttach p a) := by
  obtain ⟨q, henqueue, hpushed⟩ := State.enqueue_of_open hl hv
  obtain ⟨-, -, -, hq⟩ := hl
  obtain ⟨hcan, hport⟩ := State.setPort_setQueue ⟨hp, hq⟩ 7 q
  obtain ⟨hone, ⟨hports, -⟩, hframes⟩ := State.retag_retagsOnly hcan
  have hentered : OnlyPort p s (s.enqueue p f).1 := henqueue ▸ (OnlyPort.setPort s p _).trans hone
  have hholds : (((s.enqueue p f).1.port p).queue 7).frames = q.frames := by
    rw [henqueue, hframes 7, hport, Port.queue_setQueue_self hq]
  rw [← henqueue] at hports
  generalize (s.enqueue p f).1 = t at hentered hholds hports
  have hself := State.port_setPort_self hports p { t.port p with attach := a }
  refine ⟨hentered.trans (.setPort t p _), fwf_fset hports _ _, congrArg Port.attach hself, ?_⟩
  exact (congrArg (fun x => (Port.queue x 7).frames) hself).trans (hholds.trans hpushed)

/-- A request to an address, built by the device, is sent out of port p, which waits with attachment a; nothing else changes but the
count of draws, from which the request has its sequence number. -/
def RequestSent (p destination : Nat) (a : Attach) (s t : State) : Prop :=
  (t.port p).attach = a ∧
    (∃ g, ((t.port p).queue 7).frames = ((s.port p).queue 7).frames ++ [g] ∧ g.destination = destination ∧ g.cls = .index) ∧
    (∀ q, q ≠ p → t.port q = s.port q) ∧ t = { s with ports := t.ports, freshCount := t.freshCount } ∧
    fwf Port.reset t.ports = true

theorem RequestSent.eq {p destination : Nat} {a : Attach} {s t : State} (h : RequestSent p destination a s t) :
    t = { s with ports := t.ports, freshCount := t.freshCount } := by
  obtain ⟨-, -, -, hrest, -⟩ := h
  exact hrest

/-- A request goes out of port p, which waits with attachment a. -/
def State.sendRequest (s : State) (p op destination : Nat) (rs : List IndexRecord) (a : Attach) : State :=
  ((s.indexRequest op destination rs).1.enqueue p (s.indexRequest op destination rs).2.2).1.setAttach p a

theorem State.sendRequest_sent {s : State} {p : Nat} (hp : fwf Port.reset s.ports = true) (hl : LinkOpen p s)
    (op destination : Nat) (rs : List IndexRecord) (a : Attach) :
    RequestSent p destination a s (s.sendRequest p op destination rs a) := by
  obtain ⟨⟨hrest, hother⟩, hports, hattach, hframes⟩ :=
    State.requests_of_open (s := s.draw.2) hp hl (f := (s.indexRequest op destination rs).2.2) rfl a
  refine ⟨hattach, ⟨_, hframes, rfl, rfl⟩, hother, ?_, hports⟩
  have hdraws := congrArg State.freshCount hrest
  exact hrest.trans (by rw [← hdraws]; rfl)

/-! ### Discovery and its timeout (R25) -/

/-- What a discovery leaves waiting on a port. -/
def State.discovery (s : State) : Attach :=
  { Attach.reset with step := 1, since := s.clock.stitch, sequence := s.requestSequence.1 }

theorem execAttachDiscovery_requests {s : State} (hc : Canonical s) {p : PortId} (hd : s.discovers p = true) (hl : LinkOpen p s) :
    ∃ t, execAttachDiscovery p s = .next t ∧ RequestSent p 0 s.discovery s t := by
  obtain ⟨-, hports, -, -, -⟩ := hc
  have hsent := State.sendRequest_sent hports hl opBlockRead 0 [requestRecord 0x1001 0 0 [], requestRecord 0x1003 0 0 []] s.discovery
  refine ⟨_, ?_, hsent⟩
  rw [execAttachDiscovery, if_neg (by simp [hd])]
  exact State.ends_of_fixed (congrArg State.dev hsent.eq :) (congrArg State.pending hsent.eq :)

theorem execAttachDiscovery_of_idle {s : State} {p : PortId} (h : s.discovers p = false) : execAttachDiscovery p s = .next s :=
  State.ends_self (by simp [h])

theorem execAttachTimeout_of_due {s : State} {p : PortId} (h : (s.port p).attach.step ≠ 0)
    (hd : (s.port p).attach.since + 64 ≤ s.clock.stitch) : execAttachTimeout p s = .next (s.attachAgain p) := by
  rw [execAttachTimeout, if_neg (by simp [h]; omega)]
  exact State.ends_of_fixed rfl rfl

theorem execAttachTimeout_of_early {s : State} {p : PortId} (h : s.clock.stitch < (s.port p).attach.since + 64) :
    execAttachTimeout p s = .next s := State.ends_self (by simp [h])

end Sys2Proof.Machine
end

section
/-!
SUPPORT. What a capture leaves alone (R286, R287), the replies that attachment waits for (R25, R28), and the settlement of O24.
-/
namespace Sys2Proof.Machine

open Sys2Proof

/-! ### What a capture leaves alone -/

/-- Keys of the Index store that no capture writes, in the chapters that attachment reads: up to the mirror sessions, and the
route slots. -/
def attachKey (k : Nat) : Bool := decide (k < 256 * 0x4080) || (decide (256 * 0x4400 ≤ k) && decide (k < 256 * 0x4440))

theorem attachKey_iff {i sub : Nat} (hs : sub < 256) :
    attachKey (ikey i sub) = true ↔ i < 0x4080 ∨ 0x4400 ≤ i ∧ i < 0x4440 := by
  simp only [attachKey, Bool.or_eq_true, Bool.and_eq_true, decide_eq_true_eq]
  unfold ikey
  omega

/-- The counts of chapter 13 are no entries of attachment, whatever their subindex. -/
theorem attachKey_of_memory {i : Nat} (sub : Nat) (hi : 0x7000 ≤ i) : attachKey (ikey i sub) = false := by
  simp only [attachKey, Bool.or_eq_false_iff, Bool.and_eq_false_iff, decide_eq_false_iff_not]
  unfold ikey
  omega

/-- From s to t, captures may have happened: ports, clock, fuses and the entries of attachment stand as they were. -/
structure CapturesOnly (s t : State) : Prop where
  ports : t.ports = s.ports
  clock : t.clock = s.clock
  dev : t.dev = s.dev
  entries : fkeep attachKey t.index = fkeep attachKey s.index
  wf : indexWf s.index = true → indexWf t.index = true

theorem fget_fkeep {α : Type} (d : α) (m : FMap α) {p : Nat → Bool} {k : Nat} (h : p k = true) :
    fget d (fkeep p m) k = fget d m k := by
  induction m with
  | nil => rfl
  | cons e t ih =>
    obtain ⟨a, v⟩ := e
    unfold fkeep at ih ⊢
    rw [List.filter_cons, fget]
    split
    · rw [fget, ih]
    · rw [if_neg (by rintro rfl; contradiction), ih]

/-- Setting a dropped key changes nothing of what is kept. -/
theorem fkeep_fset {α : Type} [DecidableEq α] (d : α) (m : FMap α) {p : Nat → Bool} {k : Nat} (h : p k = false) (v : α) :
    fkeep p (fset d m k v) = fkeep p m := by
  induction m with
  | nil =>
    unfold fset
    split <;> simp [fkeep, h]
  | cons e t ih =>
    obtain ⟨a, x⟩ := e
    unfold fkeep at ih ⊢
    unfold fset
    split
    · split
      · rfl
      · rw [List.filter_cons_of_neg (by simp [h])]
    · split
      · subst_vars
        split <;> simp [h]
      · rw [List.filter_cons, List.filter_cons, ih]

namespace CapturesOnly

variable {s t u : State}

theorem refl (s : State) : CapturesOnly s s := ⟨rfl, rfl, rfl, rfl, id⟩

theorem trans (h : CapturesOnly s t) (k : CapturesOnly t u) : CapturesOnly s u :=
  ⟨k.ports.trans h.ports, k.clock.trans h.clock, k.dev.trans h.dev, k.entries.trans h.entries, k.wf ∘ h.wf⟩

theorem idxBump (s : State) {i sub : Nat} (h : attachKey (ikey i sub) = false) (hi lo n : Nat) :
    CapturesOnly s (s.idxBump i sub hi lo n) :=
  ⟨rfl, rfl, rfl, fkeep_fset _ _ h _, fun hw => State.indexWf_idxSet hw _ _ _⟩

theorem port (h : CapturesOnly s t) (p : Nat) : t.port p = s.port p := by rw [State.port, h.ports, State.port]

theorem idx (h : CapturesOnly s t) {i sub : Nat} (hk : attachKey (ikey i sub) = true) : t.idx i sub = s.idx i sub := by
  rw [State.idx, State.idx, ← fget_fkeep _ t.index hk, h.entries, fget_fkeep _ _ hk]

/-- The entries below the mirror sessions. -/
theorem idx_low (h : CapturesOnly s t) {i sub : Nat} (hi : i < 0x4080) (hs : sub < 256) : t.idx i sub = s.idx i sub :=
  h.idx ((attachKey_iff hs).2 (.inl hi))

theorem address (h : CapturesOnly s t) : t.address = s.address := h.idx_low (by decide) (by decide)

theorem routeSlot (h : CapturesOnly s t) {n : Nat} (hn : n < routeSlots) : t.routeSlot n = s.routeSlot n :=
  h.idx ((attachKey_iff (by omega)).2 (.inr (by unfold routeSlots at hn; omega)))

theorem listedSlots (h : CapturesOnly s t) : t.listedSlots = s.listedSlots := by
  have kept : ∀ m : FMap Nat, m.filter (fun e => decide (256 * 0x4400 ≤ e.1) && decide (e.1 < 256 * 0x4440)) =
      (fkeep attachKey m).filter (fun e => decide (256 * 0x4400 ≤ e.1) && decide (e.1 < 256 * 0x4440)) := fun m => by
    rw [fkeep, List.filter_filter]
    refine List.filter_congr fun e _ => ?_
    unfold attachKey
    cases decide (256 * 0x4400 ≤ e.1) && decide (e.1 < 256 * 0x4440) <;> simp
  rw [State.listedSlots, kept, h.entries, ← kept, State.listedSlots]

theorem slotFor (h : CapturesOnly s t) (a : Nat) : t.slotFor a = s.slotFor a := by rw [State.slotFor, h.listedSlots, State.slotFor]

theorem emptySlot (h : CapturesOnly s t) : t.emptySlot = s.emptySlot := by
  refine List.find?_congr fun n hn => ?_
  rw [h.routeSlot (List.mem_range.1 hn), State.slotTaken, State.slotTaken, h.ports]

theorem workerAddress (h : CapturesOnly s t) {p : Nat} (hp : p < 256) : t.workerAddress p = s.workerAddress p := by
  unfold State.workerAddress
  rw [h.idx_low (i := 0x3100) (by decide) hp, h.idx_low (i := 0x1013) (by decide) (by decide),
    h.idx_low (i := 0x1012) (by decide) (by decide)]

theorem attaches (h : CapturesOnly s t) {p : Nat} (hp : p < 256) : t.attaches p = s.attaches p := by
  unfold State.attaches State.feeds
  rw [h.workerAddress hp, h.idx_low (i := 0x1010) (by decide) (by decide), h.idx_low (i := 0x3100) (by decide) hp,
    h.idx_low (i := 0x1015) (by decide) (by decide)]

theorem linkOpen (h : CapturesOnly s t) {p : Nat} (hp : p < 256) (hl : LinkOpen p s) : LinkOpen p t := by
  obtain ⟨hup, hcoast, hmode, hq⟩ := hl
  unfold LinkOpen
  rw [h.port, h.clock, State.mode, h.idx_low (by decide) hp]
  exact ⟨hup, hcoast, hmode, hq⟩

end CapturesOnly

/-! ### Stores to memory -/

theorem State.countRead_capturesOnly (s : State) (bad : Bool) (store address : Nat) :
    CapturesOnly s (s.countRead bad store address) := by
  unfold State.countRead
  split <;> exact .idxBump s (attachKey_of_memory _ (by split <;> decide)) _ _ _

theorem State.logError_capturesOnly (s : State) (address : Nat) (src : ReadSource) (store unit : Nat) :
    CapturesOnly s (s.logError address src store unit) := by
  unfold State.logError
  split
  · exact ⟨rfl, rfl, rfl, rfl, id⟩
  · exact .idxBump s (by decide) _ _ _

theorem State.accountRead_capturesOnly (s : State) (r : WordRead) (src : ReadSource) (store address unit : Nat) :
    CapturesOnly s (s.accountRead r src store address unit) := by
  cases r with
  | clean d => exact .refl s
  | corrected d => exact s.countRead_capturesOnly _ _ _
  | bad => exact (s.countRead_capturesOnly _ _ _).trans (State.logError_capturesOnly _ _ _ _ _)

theorem State.crosses_capturesOnly (s : State) : CapturesOnly s s.crosses.2 := by
  unfold State.crosses
  split
  · exact ⟨rfl, rfl, rfl, rfl, id⟩
  · exact .refl s

theorem State.readWord_capturesOnly (s : State) (w : Nat) (src : ReadSource) (unit : Nat) :
    CapturesOnly s (s.readWord w src unit).1 := by
  have ha := s.accountRead_capturesOnly (s.wordRead w) src (storeOf (canon (16 * w))) (canon (16 * w)) unit
  have hx := ha.trans (State.crosses_capturesOnly _)
  simp only [State.readWord]
  repeat' split
  all_goals assumption

theorem State.noteMirror_capturesOnly (s : State) (w : Nat) (data : Bytes) : CapturesOnly s (s.noteMirror w data) := by
  unfold State.noteMirror
  split
  · exact ⟨rfl, rfl, rfl, rfl, id⟩
  · exact .refl s

/-- What is stored in memory is no entry of the Index. -/
theorem CapturesOnly.withMem (s : State) (m : Memory) : CapturesOnly s { s with mem := m } := ⟨rfl, rfl, rfl, rfl, id⟩

theorem State.writeWord_capturesOnly (s : State) (w off : Nat) (data : Bytes) (unit : Nat) :
    CapturesOnly s (s.writeWord w off data unit) := by
  have hx : CapturesOnly s (if storeOf (16 * w) = 2 then s.crosses else (0, s)).2 := by
    split
    · exact s.crosses_capturesOnly
    · exact .refl s
  unfold State.writeWord
  dsimp only
  generalize (if storeOf (16 * w) = 2 then s.crosses else (0, s)) = x at hx
  split
  · exact hx
  · split
    · exact hx.trans ((CapturesOnly.withMem _ _).trans (State.noteMirror_capturesOnly _ _ _))
    · have hr := hx.trans (x.2.readWord_capturesOnly w .unit unit)
      exact hr.trans ((CapturesOnly.withMem _ _).trans (State.noteMirror_capturesOnly _ _ _))

theorem State.writeWords_capturesOnly (s : State) (unit k w off : Nat) (data : Bytes) :
    CapturesOnly s (s.writeWords unit k w off data) := by
  induction k generalizing s w off data with
  | zero => exact .refl s
  | succ k ih =>
    unfold State.writeWords
    dsimp only
    split
    · exact .refl s
    · exact (s.writeWord_capturesOnly w off _ unit).trans (ih _ _ _ _)

theorem State.writeMem_capturesOnly (s : State) (a : Nat) (data : Bytes) (unit : Nat) : CapturesOnly s (s.writeMem a data unit) :=
  s.writeWords_capturesOnly _ _ _ _ _

/-! ### The mirror -/

theorem State.mirrorSession_capturesOnly (s : State) {m : Nat} (hm : m < 4) (c : Capture) :
    CapturesOnly s (s.mirrorSession m c) := by
  have lost : attachKey (ikey (0x4080 + m) 5) = false :=
    Bool.eq_false_iff.2 fun h => absurd ((attachKey_iff (by decide)).1 h) (by omega)
  have counts : ∀ t sw, CapturesOnly s t → CapturesOnly s { t with switch := sw } :=
    fun _ _ h => h.trans ⟨rfl, rfl, rfl, rfl, id⟩
  unfold State.mirrorSession
  dsimp only
  have hcount := counts s { s.switch with mirrorCount := fset 0 s.switch.mirrorCount m (fget 0 s.switch.mirrorCount m + 1) } (.refl s)
  refine P_ite (.refl s) (P_ite hcount (P_ite (hcount.trans (.idxBump _ lost _ _ _)) ?_))
  exact counts _ _ ((hcount.trans (State.writeMem_capturesOnly _ _ _ _)).trans (State.writeMem_capturesOnly _ _ _ _))

theorem State.mirror_capturesOnly (s : State) (c : Capture) : CapturesOnly s (s.mirror c) :=
  (((s.mirrorSession_capturesOnly (by decide) c).trans (State.mirrorSession_capturesOnly _ (by decide) c)).trans
    (State.mirrorSession_capturesOnly _ (by decide) c)).trans (State.mirrorSession_capturesOnly _ (by decide) c)

theorem State.mirrorIngress_capturesOnly (s : State) (f : Frame) (reason : Nat) : CapturesOnly s (s.mirrorIngress f reason) :=
  s.mirror_capturesOnly _

/-! ### A frame without leaves -/

/-- From s to t no entry, no attachment and no queue changes. -/
def SameAttachments (s t : State) : Prop :=
  t.index = s.index ∧ ∀ q, (t.port q).attach = (s.port q).attach ∧ ∀ v, (t.port q).queue v = (s.port q).queue v

theorem State.frameBytes_of_no_handles (s t : State) {f : Frame} (h : f.handles = []) : t.frameBytes f = s.frameBytes f := by
  simp [State.frameBytes, State.handlesOf, h]

/-- A frame without leaves gives back at most its port's credits. -/
theorem State.freeFrame_sameAttachments {s : State} (hp : fwf Port.reset s.ports = true) {f : Frame} (h : f.handles = []) :
    SameAttachments s (s.freeFrame f) := by
  have hfree : s.freeFrame f = s.creditCopy f := by simp [State.freeFrame, State.handlesOf, State.freeLeaves, h]
  rw [hfree, State.creditCopy]
  split
  · exact ⟨rfl, fun _ => ⟨rfl, fun _ => rfl⟩⟩
  · rw [if_pos (by simp [h]), State.creditFreed]
    refine ⟨rfl, fun q => ?_⟩
    by_cases hq : q = f.inPort
    · subst hq
      rw [State.port_setPort_self hp]
      exact ⟨rfl, fun _ => rfl⟩
    · rw [State.port_setPort_ne _ _ hq]
      exact ⟨rfl, fun _ => rfl⟩

/-! ### Replies that attachment waits for (R25) -/

/-- The folio's own reply, without leaves, is handed to its port's attachment, in a state in which only captures have happened;
taking it off the buffers and noting it changes no entry, attachment or queue. -/
theorem execIndexReplyReceive_of_own {s : State} {f : Frame} {rest : List Frame} (hs : s.served = true)
    (hr : s.switch.replies = f :: rest) (hd : f.destination = s.address) (hh : f.handles = []) {b : Bytes}
    (hb : b = indexBody (s.frameBytes f)) : ∃ u, CapturesOnly s u ∧
      (fwf Port.reset (u.attachReply f.inPort (IndexHeader.decode b) b).ports = true →
        ∃ t, execIndexReplyReceive s = .next t ∧ SameAttachments (u.attachReply f.inPort (IndexHeader.decode b) b) t) := by
  have hu := State.mirrorIngress_capturesOnly { s with switch := { s.switch with replies := rest } } f 0
  generalize hcap : ({ s with switch := { s.switch with replies := rest } } : State).mirrorIngress f 0 = u at hu
  have hsu : CapturesOnly s u := ⟨hu.ports, hu.clock, hu.dev, hu.entries, hu.wf⟩
  refine ⟨u, hsu, fun hp => ?_⟩
  obtain ⟨hindex, hports⟩ := State.freeFrame_sameAttachments hp hh
  rw [execIndexReplyReceive, hr]
  dsimp only
  rw [if_neg (by simp [hs]), hcap, if_neg (by rw [hd, hsu.address]; exact fun h => h rfl),
    State.frameBytes_of_no_handles s u hh, ← hb]
  exact ⟨_, rfl, hindex, hports⟩

section Reply

variable {s : State} {p : Nat} {h : IndexHeader} {b : Bytes}

/-- The answer to a discovery goes to the checks of R25. -/
theorem State.attachReply_of_discovery (hstep : (s.port p).attach.step = 1) (hseq : (s.port p).attach.sequence = h.sequence)
    (ha : s.attaches p = true) : s.attachReply p h b = s.attachVerified p ((readRecords b true h.count 12).getD []) := by
  simp [State.attachReply, hstep, hseq, ha]

/-- The positive answer to the address write completes the attachment. -/
theorem State.attachReply_of_address (hstep : (s.port p).attach.step = 4) (hseq : (s.port p).attach.sequence = h.sequence)
    (ha : s.attaches p = true) (hst : h.status = 0) : s.attachReply p h b = s.attachDone p := by
  simp [State.attachReply, hstep, hseq, ha, hst]

end Reply

/-- An attached worker: its address and state are noted, and the slot that was taken names it. -/
theorem State.attachDone_eq {s : State} {p n : Nat} (hn : (s.port p).attach.slot = some n)
    (hfree : s.slotFor (s.port p).attach.address = none) :
    s.attachDone p = (((s.idxSet 0x1020 p (s.port p).attach.address).idxSet 0x1022 p 2).idxSet (0x4400 + n / 256) (n % 256)
      (onePath (s.port p).attach.address p)).setAttach p Attach.reset := by
  simp [State.attachDone, hn, hfree]

theorem State.attach_setAttach {s : State} (hp : fwf Port.reset s.ports = true) (p : Nat) (a : Attach) :
    ((s.setAttach p a).port p).attach = a := congrArg Port.attach (State.port_setPort_self hp p _)

/-- What a port waits with once the address is sent. -/
def State.addressing (s : State) (p n : Nat) : Attach := ⟨4, some n, s.workerAddress p, s.clock.stitch, s.requestSequence.1, 0⟩

/-- A worker whose certificate is accepted is sent its address, with the lowest empty slot taken for it (R25, R28). -/
theorem State.attachVerified_of_accepted {s : State} {p n : Nat} {r c : IndexRecord} (hr : r.status = 0) (hc : c.status = 0)
    (hlen : r.data.length = 8) (ha : Config.certificateAccepted c.data s.dev.rootKey (beNat r.data) = true)
    (hn : s.emptySlot = some n) :
    s.attachVerified p [r, c] = (s.idxSet 0x1021 p (beNat r.data)).sendRequest p opBlockWrite 0
      [requestRecord 0x1002 0 2 (beBytes 2 (s.workerAddress p)), requestRecord 0x1016 0 1 (beBytes 1 (s.idx 0x1016 0 + 1)),
        requestRecord 0x1011 0 2 (beBytes 2 s.address)] (s.addressing p n) := by
  unfold State.attachVerified
  dsimp only
  rw [if_neg (by simp [hr, hc, hlen, ha]), hn]
  rfl

theorem State.attachVerified_of_refused {s : State} {p : Nat} {r c : IndexRecord}
    (ha : Config.certificateAccepted c.data s.dev.rootKey (beNat r.data) = false) :
    s.attachVerified p [r, c] = (s.idxSet 0x1022 p 3).setAttach p Attach.reset := by
  simp [State.attachVerified, ha]

theorem LinkOpen.idxSet {s : State} {p : Nat} (h : LinkOpen p s) (hp : p < 256) {i sub : Nat} (hs : sub < 256) (hi : i ≠ 0x3001)
    (v : Nat) : LinkOpen p (s.idxSet i sub v) := by
  obtain ⟨hup, hcoast, hmode, hq⟩ := h
  have hsame : (s.idxSet i sub v).mode p = s.mode p := s.idx_idxSet_other hp hs v hi.symm
  exact ⟨hup, hcoast, hsame ▸ hmode, hq⟩

theorem SameAttachments.idx {s t : State} (h : SameAttachments s t) (i sub : Nat) : t.idx i sub = s.idx i sub := by
  obtain ⟨hindex, -⟩ := h
  rw [State.idx, hindex, State.idx]

theorem SameAttachments.attach {s t : State} (h : SameAttachments s t) (p : Nat) : (t.port p).attach = (s.port p).attach := by
  obtain ⟨-, hport⟩ := h
  exact (hport p).1

theorem SameAttachments.queue {s t : State} (h : SameAttachments s t) (p v : Nat) : (t.port p).queue v = (s.port p).queue v := by
  obtain ⟨-, hport⟩ := h
  exact (hport p).2 v

/-- The reply at the head of the buffer is the folio's own and answers the request that port p waits with. -/
structure Awaited (s : State) (p : PortId) (f : Frame) (rest : List Frame) (h : IndexHeader) : Prop where
  served : s.served = true
  replies : s.switch.replies = f :: rest
  port : f.inPort = p.val
  own : f.destination = s.address
  leafless : f.handles = []
  header : h = IndexHeader.decode (indexBody (s.frameBytes f))
  sequence : (s.port p).attach.sequence = h.sequence
  attaches : s.attaches p = true

section Awaited

variable {s : State} {p : PortId} {f : Frame} {rest : List Frame} {h : IndexHeader} (hw : Awaited s p f rest h) (hc : Canonical s)
include hw hc

/-- The state in which an awaited reply finds its port: it attaches, waits with the request, and its stores are canonical. -/
theorem Awaited.received : ∃ u, CapturesOnly s u ∧ (u.port p).attach.sequence = h.sequence ∧ u.attaches p = true ∧
    fwf Port.reset u.ports = true ∧ indexWf u.index = true ∧
    ∀ x, u.attachReply p h (indexBody (s.frameBytes f)) = x → fwf Port.reset x.ports = true →
      ∃ t, execIndexReplyReceive s = .next t ∧ SameAttachments x t := by
  obtain ⟨-, hports, -, -, hindex⟩ := hc
  have hp : p.val < 256 := by omega
  obtain ⟨u, hu, hreply⟩ := execIndexReplyReceive_of_own hw.served hw.replies hw.own hw.leafless rfl
  rw [← hw.header, hw.port] at hreply
  refine ⟨u, hu, by rw [hu.port, hw.sequence], (hu.attaches hp).trans hw.attaches, hu.ports ▸ hports, hu.wf hindex, ?_⟩
  rintro _ rfl hx
  exact hreply hx

/-- Step 5 of R25: the worker is attached. -/
theorem execIndexReplyReceive_attaches {n : Nat} (hstep : (s.port p).attach.step = 4) (hst : h.status = 0)
    (hn : (s.port p).attach.slot = some n) (hlt : n < 16384) (hfree : s.slotFor (s.port p).attach.address = none) :
    ∃ t, execIndexReplyReceive s = .next t ∧ t.idx 0x1020 p = (s.port p).attach.address ∧ t.idx 0x1022 p = 2 ∧
      t.idx (0x4400 + n / 256) (n % 256) = (s.port p).attach.address * 2 ^ 48 + 2 ^ 32 + p ∧ (t.port p).attach = Attach.reset := by
  obtain ⟨u, hu, hseq, hattaches, hports, hindex, hreply⟩ := hw.received hc
  rw [← hu.port] at hstep hn hfree ⊢
  rw [← hu.slotFor] at hfree
  have hdone := (State.attachReply_of_address (b := indexBody (s.frameBytes f)) hstep hseq hattaches hst).trans
    (State.attachDone_eq hn hfree)
  obtain ⟨t, ht, hsame⟩ := hreply _ hdone (fwf_fset hports _ _)
  have h1 := State.indexWf_idxSet hindex 0x1020 p (u.port p).attach.address
  have h2 := State.indexWf_idxSet h1 0x1022 p 2
  have hp : p.val < 256 := by omega
  have hs : n % 256 < 256 := by omega
  refine ⟨t, ht, ?_, ?_, ?_, ?_⟩
  · rw [hsame.idx]
    exact (State.idx_idxSet_other _ hp hs _ (by omega)).trans ((State.idx_idxSet_other _ hp hp _ (by decide)).trans
      (State.idx_idxSet_self hindex _ _ _))
  · rw [hsame.idx]
    exact (State.idx_idxSet_other _ hp hs _ (by omega)).trans (State.idx_idxSet_self h1 _ _ _)
  · rw [hsame.idx]
    exact State.idx_idxSet_self h2 _ _ _
  · rw [hsame.attach]
    exact State.attach_setAttach hports _ _

variable {r c : IndexRecord} (hstep : (s.port p).attach.step = 1)
  (hread : readRecords (indexBody (s.frameBytes f)) true h.count 12 = some [r, c])
include hstep hread

/-- The answer to a discovery: its two records are checked, in a state in which only captures have happened. -/
theorem Awaited.verified : ∃ u, CapturesOnly s u ∧ fwf Port.reset u.ports = true ∧ indexWf u.index = true ∧
    ∀ x, u.attachVerified p [r, c] = x → fwf Port.reset x.ports = true →
      ∃ t, execIndexReplyReceive s = .next t ∧ SameAttachments x t := by
  obtain ⟨u, hu, hseq, hattaches, hports, hindex, hreply⟩ := hw.received hc
  have hverified := State.attachReply_of_discovery (b := indexBody (s.frameBytes f)) (by rw [hu.port, hstep]) hseq hattaches
  rw [hread] at hverified
  exact ⟨u, hu, hports, hindex, fun x hx => hreply x (hverified.trans hx)⟩

/-- Steps 3 and 4 of R25: the certificate is accepted, a slot taken and the address sent. -/
theorem execIndexReplyReceive_addresses (hr : r.status = 0) (hcs : c.status = 0) (hlen : r.data.length = 8) {n : Nat}
    (ha : Config.certificateAccepted c.data s.dev.rootKey (beNat r.data) = true) (hn : s.emptySlot = some n) (hl : LinkOpen p s) :
    ∃ t g, execIndexReplyReceive s = .next t ∧ (t.port p).attach.step = 4 ∧ (t.port p).attach.slot = some n ∧
      (t.port p).attach.address = s.workerAddress p ∧ t.idx 0x1021 p = beNat r.data ∧
      ((t.port p).queue 7).frames = ((s.port p).queue 7).frames ++ [g] ∧ g.destination = 0 ∧ g.cls = .index := by
  obtain ⟨u, hu, hports, hindex, hreply⟩ := hw.verified hc hstep hread
  have hp : p.val < 256 := by omega
  rw [← hu.dev] at ha
  rw [← hu.emptySlot] at hn
  have hopen := (hu.linkOpen hp hl).idxSet hp (i := 0x1021) hp (by decide) (beNat r.data)
  have hsent := State.sendRequest_sent (s := u.idxSet 0x1021 p (beNat r.data)) hports hopen opBlockWrite 0
    [requestRecord 0x1002 0 2 (beBytes 2 (u.workerAddress p)), requestRecord 0x1016 0 1 (beBytes 1 (u.idx 0x1016 0 + 1)),
      requestRecord 0x1011 0 2 (beBytes 2 u.address)] (u.addressing p n)
  rw [← State.attachVerified_of_accepted hr hcs hlen ha hn] at hsent
  have hindexSent := congrArg State.index hsent.eq
  obtain ⟨hattach, ⟨g, hframes, hg⟩, -, -, hcan⟩ := hsent
  obtain ⟨t, ht, hsame⟩ := hreply _ rfl hcan
  have hattachT := (hsame.attach p).trans hattach
  refine ⟨t, g, ht, congrArg Attach.step hattachT, congrArg Attach.slot hattachT,
    (congrArg Attach.address hattachT).trans (hu.workerAddress hp), ?_, ?_, hg⟩
  · rw [hsame.idx, State.idx, hindexSent]
    exact State.idx_idxSet_self hindex _ _ _
  · rw [hsame.queue, hframes, ← hu.port]
    rfl

/-- Step 3 of R25: the certificate is not accepted. -/
theorem execIndexReplyReceive_refuses (ha : Config.certificateAccepted c.data s.dev.rootKey (beNat r.data) = false) :
    ∃ t, execIndexReplyReceive s = .next t ∧ t.idx 0x1022 p = 3 ∧ (t.port p).attach = Attach.reset := by
  obtain ⟨u, hu, hports, hindex, hreply⟩ := hw.verified hc hstep hread
  rw [← hu.dev] at ha
  obtain ⟨t, ht, hsame⟩ := hreply _ (State.attachVerified_of_refused ha) (fwf_fset hports _ _)
  refine ⟨t, ht, ?_, ?_⟩
  · rw [hsame.idx]
    exact State.idx_idxSet_self hindex _ _ _
  · rw [hsame.attach]
    exact State.attach_setAttach hports _ _

end Awaited

/-! ### Settlement -/

/-- A port on which every condition of R25 holds is due for discovery. -/
theorem State.discovers_of {s : State} {p : Nat} (hs : s.served = true) (hrole : s.idx 0x1010 0 ≠ 0) (hport : s.idx 0x3100 p ≠ 0)
    (ha : s.workerAddress p ≠ 0) (hi : s.idx 0x1015 0 ≠ 0) (hst : s.idx 0x1022 p = 1 ∨ s.idx 0x1022 p = 5)
    (hstep : (s.port p).attach.step = 0) (hretry : (s.port p).attach.retryAt ≤ s.clock.stitch) : s.discovers p = true := by
  simp [State.discovers, State.attaches, State.feeds, hs, hrole, hport, ha, hi, hst, hstep, hretry]

/-- Settles O24: each reply is judged in a state that differs from the one it came to by captures alone. -/
theorem workersAreAttachedAndReleased : Obligations.WorkersAreAttachedAndReleased := by
  unfold Obligations.WorkersAreAttachedAndReleased
  refine ⟨fun s p hc => ⟨?_, ?_, ?_, ?_, fun f rest h n => ?_⟩, fun s v hs hc => ⟨?_, ?_⟩⟩
  · intro hs hrole hport ha hi hst hstep hretry hup hcoast hmode hq
    obtain ⟨t, ht, hattach, hframes, hother, hrest, -⟩ :=
      execAttachDiscovery_requests hc (State.discovers_of hs hrole hport ha hi hst hstep hretry) ⟨hup, hcoast, hmode, hq⟩
    exact ⟨t, ht, congrArg Attach.step hattach, congrArg Attach.since hattach, hframes, hother, hrest⟩
  · exact execAttachDiscovery_of_idle
  · exact execAttachTimeout_of_due
  · exact execAttachTimeout_of_early
  · intro hs hr hport hown hh hdec hseq hattaches
    have hw : Awaited s p f rest h := ⟨hs, hr, hport, hown, hh, hdec, hseq, hattaches⟩
    refine ⟨?_, fun r c hstep hread hrs hcs hlen => ⟨fun ha hn hup hcoast hmode hq => ?_, ?_⟩⟩
    · exact execIndexReplyReceive_attaches hw hc
    · exact execIndexReplyReceive_addresses hw hc hstep hread hrs hcs hlen ha hn ⟨hup, hcoast, hmode, hq⟩
    · exact execIndexReplyReceive_refuses hw hc hstep hread
  · exact execFolioRelease_releases hs hc
  · exact execFolioRelease_refuses hs

end Sys2Proof.Machine
end

section
/-!
SUPPORT. Counters in the fields of an entry (R348), a command replaced in its queue, what may start (R94, R120, R127, R177) and what
starting it does (R426), and the settlement of O52.
-/
namespace Sys2Proof.Machine

open Sys2Proof

/-! ### Counters in the fields of an entry (R348) -/

/-- A field reads what it was set to, as far as it fits. -/
theorem bits_setBits (x hi lo v : Nat) : bits (setBits x hi lo v) hi lo = v % 2 ^ (hi + 1 - lo) := by
  unfold setBits bits
  generalize 2 ^ (hi + 1 - lo) = n
  rw [Nat.add_mul_div_right _ _ (by positivity), Nat.mul_comm (x / 2 ^ lo % n), Nat.sub_mul_div,
    ← Nat.mul_div_cancel_left' (Nat.dvd_sub_mod (n := n) (x / 2 ^ lo)), Nat.mul_add_mod, Nat.mod_mod]

/-- A counter in a field counts up to the field's largest value. -/
theorem bits_bumpBits (x hi lo n : Nat) : bits (bumpBits x hi lo n) hi lo = min (bits x hi lo + n) (2 ^ (hi + 1 - lo) - 1) := by
  have hpos : 0 < 2 ^ (hi + 1 - lo) := by positivity
  rw [bumpBits, bits_setBits, satAdd, maxOf]
  exact Nat.mod_eq_of_lt (by omega)

theorem State.bits_idx_idxBump {s : State} (h : indexWf s.index = true) (i sub hi lo n : Nat) :
    bits ((s.idxBump i sub hi lo n).idx i sub) hi lo = min (bits (s.idx i sub) hi lo + n) (2 ^ (hi + 1 - lo) - 1) := by
  rw [State.idxBump, State.idx_idxSet_self h, bits_bumpBits]

/-! ### A command replaced in its queue -/

section SetCmd

variable {s : State} {c k : Cmd}

/-- The command that stands under a replaced one's core and serial is the new one. -/
theorem State.eq_of_mem_setCmd (h : k ∈ (s.setCmd c).cores.cmds) (hc : k.core = c.core) (hs : k.serial = c.serial) : k = c := by
  obtain ⟨x, -, hx⟩ := List.mem_map.1 h
  split at hx
  · exact hx.symm
  · subst hx
    simp_all

/-- The other commands stand as they were. -/
theorem State.mem_setCmd_of_other (h : ¬ (k.core = c.core ∧ k.serial = c.serial)) :
    k ∈ (s.setCmd c).cores.cmds ↔ k ∈ s.cores.cmds := by
  refine List.mem_map.trans ⟨fun ⟨x, hx, he⟩ => ?_, fun hk => ⟨k, hk, if_neg (by simpa using h)⟩⟩
  split at he
  · exact absurd ⟨congrArg Cmd.core he.symm, congrArg Cmd.serial he.symm⟩ h
  · exact he ▸ hx

end SetCmd

/-! ### What may start (R94) -/

theorem State.headReady_iff {s : State} {c : Cmd} : s.headReady c = true ↔
    s.heldCmd c = false ∧ s.admits c = true ∧ s.tieReady c = true ∧ s.tileReady c = true := by
  simp [State.headReady, and_assoc]

/-- A command is admitted when its claim and its open are granted (R120, R127). -/
theorem State.admits_iff {s : State} {c : Cmd} : s.admits c = true ↔
    (c.awaitsClaim = true → c.microBatch = noBatch ∨ s.granted c.microBatch = true) ∧
      ∀ v, c.storesInto = some v → (s.wset v).openState = 2 := by
  unfold State.admits
  cases c.storesInto <;> cases c.awaitsClaim <;> simp

theorem State.headOf_spec {s : State} {core unit : Nat} {c : Cmd} (h : s.headOf core unit = some c) :
    c ∈ s.cores.cmds ∧ c.unit = unit ∧ c.phase = .queued := by
  have hq := List.mem_filter.1 (List.mem_of_find?_eq_some h)
  have hp := List.find?_some h
  simp_all

/-- What may start is a queued command of the unit that is ready, on a unit with room. -/
theorem State.startable_spec {s : State} {u : Nat} {k : Cmd} (h : k ∈ s.startable u) :
    k ∈ s.cores.cmds ∧ k.unit = u ∧ k.phase = .queued ∧ s.headReady k = true ∧ s.unitFree k = true := by
  obtain ⟨hr, -⟩ := List.mem_filter.1 h
  obtain ⟨hh, hp⟩ := List.mem_filter.1 hr
  obtain ⟨core, -, hc⟩ := List.mem_filterMap.1 hh
  obtain ⟨hm, hu, hq⟩ := State.headOf_spec hc
  simp only [Bool.and_eq_true] at hp
  exact ⟨hm, hu, hq, hp.1.1.1, hp.1.2⟩

/-! ### A command begins -/

/-- The state in which a unit has begun command c: it has served the command's core, and the command runs. -/
def State.serving (s : State) (c : Cmd) : State :=
  { s with cores := { s.cores with
      served := fset 31 s.cores.served c.unit c.core
      cmds := s.cores.cmds.map (fun x => if x.core == c.core && x.serial == c.serial then
        { c with phase := .running, waited := false } else x) } }

/-- Nothing is held for the command. -/
abbrev State.Unheld (s : State) (c : Cmd) : Prop := ∀ h ∈ s.power.held, ¬ (h.1 = c.core ∧ h.2.1 = c.serial)

/-- What a command that begins leaves: its unit has served its core, nothing is held for it, and it runs; a product may have moved
its tie group on. -/
theorem State.begin_eq (s : State) (c : Cmd) : ∃ i tie,
    s.begin c = { s.serving c with
      index := i
      power := { s.power with held := s.power.held.filter (fun h => !(h.1 == c.core && h.2.1 == c.serial)) }
      cores := { (s.serving c).cores with tieNext := tie } } ∧
    (s.Unheld c → i = s.index) ∧ (c.opcode ≠ 0x20 → tie = s.cores.tieNext) := by
  have hi : ∀ x, s.power.held.find? (fun h => h.1 == c.core && h.2.1 == c.serial) = some x →
      ¬ s.Unheld c := fun x hx h =>
    h x (List.mem_of_find?_eq_some hx) (by simpa using List.find?_some hx)
  unfold State.begin
  cases hf : s.power.held.find? (fun h => h.1 == c.core && h.2.1 == c.serial) with
  | none =>
    dsimp only
    split
    · next ht => exact ⟨_, _, rfl, fun _ => rfl, fun ho => absurd ht (by simp [ho])⟩
    · exact ⟨_, _, rfl, fun _ => rfl, fun _ => rfl⟩
  | some x =>
    dsimp only
    split
    · next ht => exact ⟨_, _, rfl, fun h => absurd h (hi x hf), fun ho => absurd ht (by simp [ho])⟩
    · exact ⟨_, _, rfl, fun h => absurd h (hi x hf), fun _ => rfl⟩

theorem State.begin_of_unheld {s : State} {c : Cmd} (h : s.Unheld c) :
    ∃ tie, s.begin c = { s.serving c with cores := { (s.serving c).cores with tieNext := tie } } ∧
      (c.opcode ≠ 0x20 → tie = s.cores.tieNext) := by
  obtain ⟨i, tie, he, hi, ht⟩ := s.begin_eq c
  refine ⟨tie, ?_, ht⟩
  rw [he, hi h, List.filter_eq_self.2 (fun x hx => by simpa [Decidable.imp_iff_not_or] using h x hx)]
  rfl

/-! ### A product begins (R426) -/

/-- Arrays of the quire that would stream once the product has begun. -/
def State.loadWith (s : State) (c : Cmd) : Nat :=
  s.streaming (quireOf c.unit) + (if (s.runningOn c.unit).any (fun k => k.opcode == 0x20) then 0 else 1)

theorem State.startProduct_of_within {s : State} {c : Cmd} (h : s.loadWith c ≤ s.idx 0x9010 0) : s.startProduct c = s.begin c := by
  have hl : ¬ s.idx 0x9010 0 < s.loadWith c := Nat.not_lt.2 h
  exact (if_neg fun h => hl (of_decide_eq_true (Bool.and_eq_true_iff.1 h).1)).trans (if_neg hl)

theorem State.startProduct_of_noticed {s : State} {c : Cmd} (h : s.noticed = true) :
    ∃ b, s.startProduct c = { s.begin c with power := { (s.begin c).power with overLevel := b } } := by
  have hstart : s.startProduct c = if s.idx 0x9010 0 < s.loadWith c then
      { s.begin c with power := { (s.begin c).power with overLevel := true } } else s.begin c := if_neg (by simp [h])
  rw [hstart]
  split
  · exact ⟨_, rfl⟩
  · exact ⟨_, rfl⟩

/-- Past the load level and without notice the product is held, and notice is given (R426). -/
theorem State.startProduct_of_over {s : State} {c : Cmd} (hl : s.idx 0x9010 0 < s.loadWith c) (hn : s.power.loadNotice = false)
    (hh : s.Unheld c) : s.startProduct c =
      ({ s with power := { s.power with
          held := s.power.held ++ [(c.core, c.serial, s.now)], loadNotice := true, noticeSince := s.now } } : State).count
        0x9012 0 1 := by
  have hany : s.power.held.any (fun h => h.1 == c.core && h.2.1 == c.serial) = false := by
    simpa [Decidable.imp_iff_not_or] using hh
  unfold State.loadWith at hl
  simp only [State.startProduct, State.noticed, hl, hn, hany]
  rfl

/-! ### COMMAND_START -/

section CommandStart

variable {s : State} {u : BitVec 8} {c : Cmd} {rest : List Cmd}

theorem execCommandStart_of_head (hc : s.power.clocksStopped = false) (h : s.startable u.toNat = c :: rest) :
    execCommandStart u s = s.ends (s.startCmd c) := by
  simp [execCommandStart, hc, h]

theorem execCommandStart_of_none (h : s.startable u.toNat = []) : execCommandStart u s = .next s :=
  State.ends_self (by simp [h])

/-- What a start of a write-out, a vector command or a copy does is the beginning alone. -/
theorem State.startCmd_of_unit {s : State} {c : Cmd}
    (h : c.opcode = 0x21 ∨ c.opcode = 0x30 ∨ c.opcode = 0x31 ∨ c.opcode = 0x60) : s.startCmd c = s.begin c := by
  obtain h | h | h | h := h <;> simp [State.startCmd, h]

theorem State.startCmd_of_product {s : State} {c : Cmd} (h : c.opcode = 0x20) : s.startCmd c = s.startProduct c := by
  simp [State.startCmd, h]

theorem execCommandStart_serves (hc : s.power.clocksStopped = false) (h : s.startable u.toNat = c :: rest) (hh : s.Unheld c)
    (ho : c.opcode = 0x21 ∨ c.opcode = 0x30 ∨ c.opcode = 0x31 ∨ c.opcode = 0x60) :
    execCommandStart u s = .next (s.serving c) := by
  obtain ⟨tie, hb, ht⟩ := State.begin_of_unheld hh
  rw [execCommandStart_of_head hc h, State.startCmd_of_unit ho, hb, ht (by omega)]
  rfl

/-- A product within the load level begins. -/
theorem execCommandStart_begins_product (hc : s.power.clocksStopped = false) (h : s.startable u.toNat = c :: rest)
    (hh : s.Unheld c) (ho : c.opcode = 0x20) (hl : s.loadWith c ≤ s.idx 0x9010 0) :
    ∃ tie, execCommandStart u s = .next { s.serving c with cores := { (s.serving c).cores with tieNext := tie } } := by
  obtain ⟨tie, hb, -⟩ := State.begin_of_unheld hh
  refine ⟨tie, ?_⟩
  rw [execCommandStart_of_head hc h, State.startCmd_of_product ho, State.startProduct_of_within hl, hb]
  rfl

/-- A product past the load level is held, and notice is given and counted. -/
theorem execCommandStart_holds_product (hc : s.power.clocksStopped = false) (h : s.startable u.toNat = c :: rest)
    (hh : s.Unheld c) (ho : c.opcode = 0x20) (hl : s.idx 0x9010 0 < s.loadWith c) (hn : s.power.loadNotice = false)
    (hw : indexWf s.index = true) : ∃ t, execCommandStart u s = .next t ∧ t.cores = s.cores ∧
      t.power = { s.power with held := s.power.held ++ [(c.core, c.serial, s.now)], loadNotice := true, noticeSince := s.now } ∧
      bits (t.idx 0x9012 0) 63 0 = min (bits (s.idx 0x9012 0) 63 0 + 1) (2 ^ 64 - 1) ∧
      t = { s with power := t.power, index := t.index } := by
  rw [execCommandStart_of_head hc h, State.startCmd_of_product ho, State.startProduct_of_over hl hn hh]
  exact ⟨_, rfl, rfl, rfl, State.bits_idx_idxBump hw 0x9012 0 63 0 1, rfl⟩

end CommandStart

/-! ### NOTICE_EXPIRY -/

/-- A fold over numbers in which only step u does anything, and nothing after it. -/
theorem foldl_range_of_one {α : Type} {f : α → Nat → α} {s : α} {n u : Nat} (hu : u < n)
    (before : ∀ v, v ≠ u → f s v = s) (after : ∀ v, f (f s u) v = f s u) : (List.range n).foldl f s = f s u := by
  have idle : ∀ (t : α) (l : List Nat), (∀ v ∈ l, f t v = t) → l.foldl f t = t := fun t l => by
    induction l with
    | nil => exact fun _ => rfl
    | cons v l ih =>
      intro h
      rw [List.foldl_cons, h v List.mem_cons_self]
      exact ih fun w hw => h w (List.mem_cons_of_mem _ hw)
  obtain ⟨k, rfl⟩ := Nat.exists_eq_add_of_lt hu
  rw [Nat.add_assoc, List.range_add, List.foldl_append, idle s _ fun v hv => before v (List.mem_range.1 hv).ne, Nat.add_comm k 1,
    List.range_add, List.map_append, List.foldl_append]
  exact idle _ _ fun v _ => after v

section NoticeExpiry

variable {s : State} {u : Nat} {c : Cmd} {since : Nat}

/-- A command of a unit for which a start is held is found exactly where it may start. -/
theorem State.find?_held_of_startable (hm : c ∈ s.startable u) (hheld : s.power.held = [(c.core, c.serial, since)])
    (hone : ∀ k ∈ s.cores.cmds, k.core = c.core → k.serial = c.serial → k = c) (v : Nat) :
    (s.startable v).find? (fun k => s.power.held.any (fun h => h.1 == k.core && h.2.1 == k.serial)) =
      if v = u then some c else none := by
  have same : ∀ k ∈ s.startable v, s.power.held.any (fun h => h.1 == k.core && h.2.1 == k.serial) = true → k = c := by
    intro k hk ha
    obtain ⟨hc, hs⟩ : c.core = k.core ∧ c.serial = k.serial := by simpa [hheld] using ha
    exact hone k (State.startable_spec hk).1 hc.symm hs.symm
  split
  · subst v
    have hsome : ((s.startable u).find? (fun k => s.power.held.any (fun h => h.1 == k.core && h.2.1 == k.serial))).isSome :=
      List.find?_isSome.2 ⟨c, hm, by simp [hheld]⟩
    obtain ⟨k, hk⟩ := Option.isSome_iff_exists.1 hsome
    have hp := List.find?_some hk
    rw [hk, same k (List.mem_of_find?_eq_some hk) hp]
  · refine List.find?_eq_none.2 fun k hk ha => ?_
    obtain rfl := same k hk ha
    obtain ⟨-, hv, -⟩ := State.startable_spec hk
    obtain ⟨-, hu, -⟩ := State.startable_spec hm
    omega

/-- When the notice has lasted, the one product that is held for it begins (R426). -/
theorem execNoticeExpiry_begins (hc : s.power.clocksStopped = false) (hn : s.noticed = true) (hm : c ∈ s.startable u) (hu : u < 0x30)
    (hheld : s.power.held = [(c.core, c.serial, since)])
    (hone : ∀ k ∈ s.cores.cmds, k.core = c.core → k.serial = c.serial → k = c) :
    execNoticeExpiry s = s.ends (s.startProduct c) := by
  have hfind := State.find?_held_of_startable hm hheld hone
  have hdone : (s.startProduct c).power.held = [] := by
    obtain ⟨b, hb⟩ := State.startProduct_of_noticed (c := c) hn
    obtain ⟨i, tie, hbegin, -⟩ := s.begin_eq c
    rw [hb, hbegin]
    simp [hheld]
  unfold execNoticeExpiry
  rw [if_neg (by simp [hn, hc]), foldl_range_of_one hu]
  · rw [hfind, if_pos rfl]
  · intro v hv
    rw [hfind, if_neg hv]
  · intro v
    rw [hfind, if_pos rfl]
    dsimp only
    rw [List.find?_eq_none.2 (by simp [hdone])]

theorem execNoticeExpiry_of_unnoticed (h : s.noticed = false) : execNoticeExpiry s = .next s :=
  State.ends_self (if_pos (by simp [h]))

end NoticeExpiry

/-- Settles O52: what may start is read off the queue's heads, and each start is its command's beginning. -/
theorem unitsStartCommands : Obligations.UnitsStartCommands := by
  unfold Obligations.UnitsStartCommands
  intro s u c rest n hclocks
  refine ⟨fun k hk => ?_, execCommandStart_of_none,
    fun hs hheld => ⟨execCommandStart_serves hclocks hs hheld, fun ho hload => ⟨?_, ?_⟩⟩, execNoticeExpiry_of_unnoticed,
    fun hn hm hu ho hheld hone => ?_⟩
  · obtain ⟨hm, hu, hq, hready, hfree⟩ := State.startable_spec hk
    obtain ⟨hahead, hadmits, htie, htile⟩ := State.headReady_iff.1 hready
    obtain ⟨hclaim, hopen⟩ := State.admits_iff.1 hadmits
    exact ⟨hm, hu, hq, hahead, htile, htie, hfree, hclaim, hopen⟩
  · subst hload
    intro hl
    obtain ⟨tie, ht⟩ := execCommandStart_begins_product hclocks hs hheld ho hl
    exact ⟨_, ht, rfl, rfl, rfl, rfl⟩
  · subst hload
    intro hl hnotice ⟨_, _, _, _, hindex⟩
    exact execCommandStart_holds_product hclocks hs hheld ho hl hnotice hindex
  · obtain ⟨b, hb⟩ := State.startProduct_of_noticed (c := c) hn
    obtain ⟨i, tie, hbegin, -⟩ := s.begin_eq c
    refine ⟨_, execNoticeExpiry_begins hclocks hn hm hu hheld hone, ?_⟩
    rw [hb, hbegin]
    exact ⟨by simp [hheld], rfl, rfl, rfl, fun k hk hcore hserial =>
      congrArg Cmd.phase (State.eq_of_mem_setCmd (c := { c with phase := .running, waited := false }) hk hcore hserial)⟩

end Sys2Proof.Machine
end

section
/-!
SUPPORT. What a pass of a product leaves alone (R85, R97, R155): memory, the queues and every command's core and serial; and
PASS_SWAP.
-/
namespace Sys2Proof.Machine

open Sys2Proof

/-! ### Reads, counts and stores to accumulators -/

/-- From s to t, a pass may have read, counted, and stored to accumulators and their poison: device memory and all else stand as
they were. -/
def PassOnly (s t : State) : Prop := ReadsOnly s t ∧ t.mem.cells = s.mem.cells

namespace PassOnly

variable {s t u : State}

theorem refl (s : State) : PassOnly s s := ⟨.refl s, rfl⟩

theorem trans (h : PassOnly s t) (k : PassOnly t u) : PassOnly s u := ⟨h.1.trans k.1, k.2.trans h.2⟩

theorem foldl {α : Type} {f : State → α → State} (hf : ∀ t a, PassOnly t (f t a)) (l : List α) (s : State) :
    PassOnly s (l.foldl f s) :=
  List.foldlRecOn l f (.refl s) fun t h a _ => h.trans (hf t a)

theorem foldl_fst {α β : Type} {f : State × β → α → State × β} {p : State × β} (hf : ∀ p a, PassOnly p.1 (f p a).1)
    (l : List α) : PassOnly p.1 (l.foldl f p).1 :=
  List.foldlRecOn (motive := fun q => PassOnly p.1 q.1) l f (.refl p.1) fun q h a _ => h.trans (hf q a)

theorem ite_fst {β : Type} {b : Prop} [Decidable b] {p q : State × β} (hp : PassOnly s p.1) (hq : PassOnly s q.1) :
    PassOnly s (if b then p else q).1 := by
  split
  · exact hp
  · exact hq

end PassOnly

theorem State.idxBump_passOnly (s : State) (i sub hi lo n : Nat) : PassOnly s (s.idxBump i sub hi lo n) :=
  ⟨s.idxBump_readsOnly i sub hi lo n, rfl⟩

theorem State.count_passOnly (s : State) (i sub n : Nat) : PassOnly s (s.count i sub n) := s.idxBump_passOnly i sub 63 0 n

theorem State.setAcc_passOnly (s : State) (u r c v : Nat) : PassOnly s (s.setAcc u r c v) := ⟨⟨_, _, _, rfl⟩, rfl⟩

theorem State.setRowPoison_passOnly (s : State) (u r : Nat) (b : Bool) : PassOnly s (s.setRowPoison u r b) :=
  ⟨⟨_, _, _, rfl⟩, rfl⟩

theorem State.crosses_cells (s : State) : s.crosses.2.mem.cells = s.mem.cells := by
  unfold State.crosses
  split <;> rfl

theorem State.accountRead_cells (s : State) (r : WordRead) (src : ReadSource) (store address unit : Nat) :
    (s.accountRead r src store address unit).mem.cells = s.mem.cells := by
  have hcount : ∀ bad, (s.countRead bad store address).mem.cells = s.mem.cells := fun bad => by
    unfold State.countRead
    split <;> rfl
  cases r with
  | clean d => rfl
  | corrected d => exact hcount false
  | bad =>
    refine Eq.trans ?_ (hcount true)
    show (State.logError _ _ _ _ _).mem.cells = _
    unfold State.logError
    split <;> rfl

theorem State.readWord_passOnly (s : State) (w : Nat) (src : ReadSource) (unit : Nat) : PassOnly s (s.readWord w src unit).1 := by
  refine ⟨s.readWord_readsOnly w src unit, ?_⟩
  have ha := s.accountRead_cells (s.wordRead w) src (storeOf (canon (16 * w))) (canon (16 * w)) unit
  have hx := (State.crosses_cells _).trans ha
  simp only [State.readWord]
  repeat' split
  all_goals assumption

theorem State.readWords_passOnly (s : State) (src : ReadSource) (unit k w : Nat) (acc : Bytes) (bad : Option Nat) :
    PassOnly s (s.readWords src unit k w acc bad).1 := by
  induction k generalizing s w acc bad with
  | zero => exact .refl s
  | succ k ih => exact (s.readWord_passOnly w src unit).trans (ih _ _ _ _)

theorem State.readMem_passOnly (s : State) (a n : Nat) (src : ReadSource) (unit : Nat) : PassOnly s (s.readMem a n src unit).1 :=
  PassOnly.ite_fst (.refl s) (s.readWords_passOnly _ _ _ _ _ _)

theorem State.readTile_passOnly (s : State) (m i unit : Nat) : PassOnly s (s.readTile m i unit).1 := by
  have hhead := s.readMem_passOnly (s.tileHeader m i) 16 .unit unit
  have hbody := fun a n => hhead.trans (State.readMem_passOnly _ a n .unit unit)
  unfold State.readTile
  exact .ite_fst hhead (.ite_fst hhead (.ite_fst hhead (.ite_fst (hbody _ _) (.ite_fst (hbody _ _) (hbody _ _)))))

/-! ### The operands of a pass -/

theorem State.readStationary_passOnly (s : State) (c : Cmd) (p k : Nat) : PassOnly s (s.readStationary c p k).1 := by
  unfold State.readStationary
  exact PassOnly.foldl_fst (p := (s, [], false)) (fun _ _ => State.readMem_passOnly _ _ _ _ _) _

theorem State.readAux_passOnly (s : State) (c : Cmd) (g iter n m : Nat) : PassOnly s (s.readAux c g iter n m).1 := by
  unfold State.readAux
  exact PassOnly.foldl_fst (p := (s, [], false)) (fun _ _ => State.readMem_passOnly _ _ _ _ _) _

theorem State.readAuxData_passOnly (s : State) (c : Cmd) (p k : Nat) : PassOnly s (s.readAuxData c p k).1 := by
  unfold State.readAuxData
  refine PassOnly.trans (PassOnly.trans ?_ (PassOnly.ite_fst (q := (_, [], false)) (State.readAux_passOnly _ _ _ _ _ _) (.refl _)))
    (PassOnly.ite_fst (q := (_, [], false)) (State.readAux_passOnly _ _ _ _ _ _) (.refl _))
  exact .ite_fst (s.readAux_passOnly _ _ _ _ _)
    (.ite_fst (s.readAux_passOnly _ _ _ _ _) (.ite_fst (s.readMem_passOnly _ _ _ _) (.refl s)))

theorem State.readVector_passOnly (s : State) (c : Cmd) (n k : Nat) (tiles : FMap (Except Nat Bytes)) :
    PassOnly s (s.readVector c n k tiles).1 := by
  unfold State.readVector
  refine .ite_fst ?_ (.ite_fst (PassOnly.foldl_fst (p := (s, [], false)) (fun _ _ => State.readMem_passOnly _ _ _ _ _) _)
    (s.readMem_passOnly _ _ _ _))
  split
  · exact .refl s
  · next i o _ =>
    cases tiles.find? (fun e => e.1 == i) with
    | some e =>
      dsimp only
      split <;> exact .refl s
    | none =>
      dsimp only
      split <;> exact s.readTile_passOnly _ _ _

theorem State.readStreamed_passOnly (s : State) (c : Cmd) (n k : Nat) (tiles : FMap (Except Nat Bytes)) :
    PassOnly s (s.readStreamed c n k tiles).1 :=
  (s.readVector_passOnly c n k tiles).trans (.ite_fst (State.readMem_passOnly _ _ _ _ _) (.refl _))

theorem State.zeroRow_passOnly (s : State) (c : Cmd) (r : Nat) : PassOnly s (s.zeroRow c r) :=
  PassOnly.foldl (fun _ _ => State.setAcc_passOnly _ _ _ _ _) _ s

/-! ### Steps of a pass -/

/-- A step of the pass of command c leaves r: the state has changed as a pass may change it, and the command is the same one. -/
structure PassStep (s : State) (c : Cmd) (r : State × Cmd) : Prop where
  state : PassOnly s r.1
  core : r.2.core = c.core
  serial : r.2.serial = c.serial

namespace PassStep

variable {s t : State} {c d : Cmd} {p r : State × Cmd}

theorem trans (h : PassStep s c p) (k : PassStep p.1 p.2 r) : PassStep s c r :=
  ⟨h.state.trans k.state, k.core.trans h.core, k.serial.trans h.serial⟩

theorem of_state (h : PassOnly s t) (c : Cmd) : PassStep s c (t, c) := ⟨h, rfl, rfl⟩

theorem foldl {α : Type} {f : State × Cmd → α → State × Cmd} (hf : ∀ p a, PassStep p.1 p.2 (f p a)) (l : List α)
    (p : State × Cmd) : PassStep p.1 p.2 (l.foldl f p) :=
  List.foldlRecOn (motive := PassStep p.1 p.2) l f (.of_state (.refl _) _) fun _ h _ _ => h.trans (hf _ _)

theorem ite {b : Prop} [Decidable b] (hp : PassStep s c p) (hr : PassStep s c r) : PassStep s c (if b then p else r) := by
  split
  · exact hp
  · exact hr

end PassStep

theorem Cmd.fault_key (c : Cmd) (n cause : Nat) : (c.fault n cause).core = c.core ∧ (c.fault n cause).serial = c.serial := by
  unfold Cmd.fault
  split
  · exact ⟨rfl, rfl⟩
  · split <;> exact ⟨rfl, rfl⟩

theorem PassStep.fault {s : State} {c : Cmd} {r : State × Cmd} (h : PassStep s c r) (n cause : Nat) :
    PassStep s c (r.1, r.2.fault n cause) := by
  obtain ⟨hcore, hserial⟩ := r.2.fault_key n cause
  exact ⟨h.state, hcore.trans h.core, hserial.trans h.serial⟩

theorem State.foul_passStep (s : State) (c : Cmd) (rows : List Nat) : PassStep s c (s.foul c rows) := by
  refine PassStep.foldl (fun p r => ?_) rows (s, c)
  have hstate : PassOnly p.1 (if p.1.rowPoison c.unit r then p.1
      else (p.1.setRowPoison c.unit r true).idxBump 0x5012 c.unit 31 0 1) := by
    split
    · exact .refl _
    · exact (p.1.setRowPoison_passOnly c.unit r true).trans (State.idxBump_passOnly _ _ _ _ _ _)
  refine ⟨hstate, ?_, ?_⟩
  · dsimp only
    split <;> rfl
  · dsimp only
    split <;> rfl

theorem State.reachRow_passStep (s : State) (c : Cmd) (r : Nat) : PassStep s c (s.reachRow c r) := by
  unfold State.reachRow
  split
  · exact .of_state (.refl s) c
  · refine ⟨?_, rfl, rfl⟩
    dsimp only
    split
    · exact s.setRowPoison_passOnly _ _ _
    · exact .refl s

theorem State.reachRows_passStep (s : State) (c : Cmd) (r : Nat) : PassStep s c (s.reachRows c r) :=
  PassStep.foldl (fun _ _ => State.reachRow_passStep _ _ _) _ (s, c)

theorem State.runVector_passStep (s : State) (c : Cmd) (r k : Nat) (xs : List Val) (sx : Nat → Option Nat) (wt : List (List Val))
    (sw : Nat → Nat → Option Nat) : PassStep s c (s.runVector c r k xs sx wt sw) := by
  unfold State.runVector
  refine PassStep.trans ⟨?_, rfl, rfl⟩ (PassStep.foldl (fun _ _ => State.reachRow_passStep _ _ _) _ (_, _))
  exact PassOnly.foldl_fst (p := (s, c.counts)) (fun _ _ => State.setAcc_passOnly _ _ _ _ _) _

theorem State.gateRow_passStep (s : State) (c : Cmd) (n : Nat) : PassStep s c (s.gateRow c n) := by
  have hread := s.readMem_passOnly (dAddr c.primary c.primary 3 n).toNat 4 .unit c.unit
  unfold State.gateRow
  refine .ite (((PassStep.of_state hread c).trans (State.foul_passStep _ _ _)).fault n 1)
    (.ite (.of_state hread c) (.ite ⟨hread, rfl, rfl⟩ ?_))
  refine PassStep.trans (p := (_, _)) ⟨?_, ?_, ?_⟩ (State.reachRows_passStep _ _ _)
  · exact hread.trans (State.zeroRow_passOnly _ _ _)
  · rfl
  · rfl

theorem State.closeAudits_passStep (s : State) (c : Cmd) : PassStep s c (s.closeAudits c) := by
  refine ⟨PassOnly.foldl_fst (p := (s, c.mispredicted)) (fun p e => ?_) c.skipRows, rfl, rfl⟩
  exact .ite_fst (.refl _) (State.zeroRow_passOnly _ _ _)

theorem State.runPass_passStep (s : State) (c : Cmd) : PassStep s c (s.runPass c) := by
  unfold State.runPass
  extract_lets w d p m k rho n0 st ax s1 g s2 c2 streamed s3 f q ws c3 wt sw t out r last
  have hread : PassOnly s s1 := (s.readStationary_passOnly c p k).trans (State.readAuxData_passOnly _ _ _ _)
  have hgate : PassStep s c g :=
    .ite (.trans (p := (s1, { c with skipRows := [] })) ⟨hread, rfl, rfl⟩
      (PassStep.foldl (fun _ _ => State.gateRow_passStep _ _ _) _ _)) (.of_state hread c)
  have hcount : PassStep s c (s3, c2) := hgate.trans (.of_state (State.count_passOnly _ _ _ _) c2)
  have hstream : PassStep s c (out.1, out.2.1) := by
    refine List.foldlRecOn (motive := fun x : State × Cmd × FMap (Except Nat Bytes) => PassStep s c (x.1, x.2.1)) streamed _
      ⟨hcount.state, hcount.core, hcount.serial⟩ fun x hx i _ => ?_
    have hv := hx.trans (.of_state (x.1.readStreamed_passOnly x.2.1 (n0 + i) k x.2.2) x.2.1)
    dsimp only
    split
    · exact (hv.trans (State.foul_passStep _ _ _)).fault _ _
    · exact hv.trans (State.runVector_passStep _ _ _ _ _ _ _ _)
  have hr : PassStep s c r := by
    refine .ite ((hcount.trans (State.foul_passStep _ _ _)).fault n0 1) (.ite (.ite ?_ (hcount.fault n0 3)) hstream)
    exact (hcount.trans (.of_state (State.readStreamed_passOnly _ _ _ _ _) c2)).fault n0 _
  have hlast : PassStep s c last := .ite (hr.trans (State.closeAudits_passStep _ _)) hr
  exact ⟨hlast.state, hlast.core, hlast.serial⟩

/-! ### PASS_SWAP -/

/-- A pass swap runs the next pass of the product that streams, and stores nothing in memory (R85). -/
theorem execPassSwap_of_streaming {s : State} {u : BitVec 8} {c : Cmd} (hc : s.power.clocksStopped = false)
    (h : (s.runningOn u.toNat).find? Cmd.streams = some c) : ∃ t, execPassSwap u s = .next t ∧
      (∀ k ∈ t.cores.cmds, k.core = c.core → k.serial = c.serial → k.next = c.next + 1) ∧
      (∀ k, ¬ (k.core = c.core ∧ k.serial = c.serial) → (k ∈ t.cores.cmds ↔ k ∈ s.cores.cmds)) ∧
      t.cores.cores = s.cores.cores ∧ t.mem.cells = s.mem.cells ∧ t.ctxs = s.ctxs ∧ t.clock = s.clock ∧ t.stash = s.stash := by
  obtain ⟨⟨⟨n, i, m, hframe⟩, hcells⟩, hcore, hserial⟩ := s.runPass_passStep c
  have hnext : (s.runPass c).2.next = c.next + 1 := rfl
  have hexec : execPassSwap u s = s.ends ((s.runPass c).1.setCmd (s.runPass c).2) := by simp [execPassSwap, hc, h]
  generalize s.runPass c = r at *
  obtain ⟨t, d⟩ := r
  dsimp only at hframe hcells hcore hserial hnext
  subst hframe
  rw [← hcore, ← hserial]
  refine ⟨_, hexec, fun k hk hkc hks => ?_, fun k hk => ?_, rfl, hcells, rfl, rfl, rfl⟩
  · exact (State.eq_of_mem_setCmd (c := d) hk hkc hks) ▸ hnext
  · exact State.mem_setCmd_of_other (c := d) hk

theorem execPassSwap_of_idle {s : State} {u : BitVec 8} (h : (s.runningOn u.toNat).find? Cmd.streams = none) :
    execPassSwap u s = .next s :=
  State.ends_self (by simp [h])

end Sys2Proof.Machine
end

section
/-!
SUPPORT. What a store leaves of the Index and of the folio, wherever it goes (R316, R317, R395), and what the SRAM tiers hold after a
store to them while no stored word carries an error.
-/
namespace Sys2Proof.Machine

open Sys2Proof

/-! ### Addresses (R313) -/

theorem canon_eq_or (a : Nat) : canon a = a ∨ deviceArea ≤ canon a := by
  unfold canon deviceArea
  split
  · exact .inr (Nat.le_add_right _ _)
  · split
    · exact .inr (by omega)
    · exact .inl rfl

/-- An address below the device area has no other form. -/
theorem canon_of_low {a : Nat} (h : canon a < deviceArea) : canon a = a := by
  have := canon_eq_or a
  omega

theorem canon_of_sram {a : Nat} (h : a < sramEnd) : canon a = a := by
  have below : ∀ base n, sramEnd ≤ base → ¬ (decide (base ≤ a) && decide (a < base + n)) = true := fun base n hb hc => by
    have := of_decide_eq_true (Bool.and_eq_true_iff.1 hc).1
    omega
  rw [canon, if_neg (below _ _ (by decide)), if_neg (below _ _ (by decide))]

theorem storeOf_of_sram {a : Nat} (h : a < sramEnd) : storeOf a = 1 := by
  simp [storeOf, canon_of_sram h, h]

theorem sram_of_storeOf {a : Nat} (h : storeOf (canon a) = 1) : canon a < sramEnd := by
  have hlow : canon (canon a) < sramEnd := by
    unfold storeOf at h
    by_contra hn
    simp only [hn, if_false] at h
    split at h
    · omega
    · split at h <;> omega
  rwa [canon_of_low (Nat.lt_trans hlow (by decide))] at hlow

/-- The SRAM tiers end with a whole word. -/
theorem word_in_sram {w : Nat} (h : 16 * w < sramEnd) : 16 * w + 16 ≤ sramEnd := by
  unfold sramEnd at *
  omega

theorem tierOf_lt {a : Nat} (h : a < sramEnd) : tierOf a < 16 := by
  unfold sramEnd at h
  simp only [tierOf]
  omega

/-- Below the device area a byte is what its cell holds. -/
theorem State.loadByte_of_low (s : State) {a : Nat} (h : canon a < deviceArea) : s.loadByte a = fget 0 s.mem.cells a := by
  simp only [State.loadByte]
  rw [if_neg (by simp; omega), canon_of_low h]

theorem State.loadByte_of_mem {s t : State} (h : t.mem = s.mem) {a : Nat} (ha : canon a < deviceArea) :
    t.loadByte a = s.loadByte a := by
  rw [State.loadByte_of_low t ha, State.loadByte_of_low s ha, h]

theorem low_of_sram {a : Nat} (h : a < sramEnd) : canon a < deviceArea := by
  rw [canon_of_sram h]
  exact Nat.lt_trans h (by decide)

/-! ### Stores, wherever they go -/

/-- From s to t, stores to memory, and to the stash among them, may have happened: the role of the folio in its pair stands, and all
else but counts, draws and the copy stream. -/
structure StoresOnly (s t : State) : Prop where
  frame : ∃ n i m st r, t = { s with freshCount := n, index := i, mem := m, stash := st, proof := { s.proof with mirror := r } }
  role : t.idx 0x8010 0 = s.idx 0x8010 0

namespace StoresOnly

variable {s t u : State}

theorem refl (s : State) : StoresOnly s s := ⟨⟨_, _, _, _, _, rfl⟩, rfl⟩

theorem trans (h : StoresOnly s t) (k : StoresOnly t u) : StoresOnly s u := by
  obtain ⟨⟨n, i, m, st, r, rfl⟩, hr⟩ := h
  obtain ⟨⟨n', i', m', st', r', rfl⟩, kr⟩ := k
  exact ⟨⟨_, _, _, _, _, rfl⟩, kr.trans hr⟩

theorem idxBump (s : State) {i sub : Nat} (h : ikey i sub ≠ ikey 0x8010 0) (hi lo n : Nat) :
    StoresOnly s (s.idxBump i sub hi lo n) :=
  ⟨⟨_, _, _, _, _, rfl⟩, State.idx_idxSet_ne s _ h.symm⟩

/-- Whether the folio stands in a formed pair is as it was (R376, R385). -/
theorem pairActive (h : StoresOnly s t) : t.pairActive = s.pairActive := by
  obtain ⟨⟨n, i, m, st, r, rfl⟩, hr⟩ := h
  unfold State.pairActive
  rw [hr]

end StoresOnly

theorem State.countRead_storesOnly (s : State) (bad : Bool) {store address : Nat} (h : store = 1 → address < sramEnd) :
    StoresOnly s (s.countRead bad store address) := by
  unfold State.countRead
  split
  · have := tierOf_lt (h rfl)
    exact .idxBump s (by unfold ikey; split <;> omega) _ _ _
  · have : deviceOf address < 32 := Nat.mod_lt _ (by decide)
    exact .idxBump s (by unfold ikey; split <;> omega) _ _ _
  all_goals exact .idxBump s (by unfold ikey; split <;> omega) _ _ _

theorem State.logError_storesOnly (s : State) (address : Nat) (src : ReadSource) (store unit : Nat) :
    StoresOnly s (s.logError address src store unit) := by
  unfold State.logError
  split
  · exact ⟨⟨_, _, _, _, _, rfl⟩, rfl⟩
  · exact .idxBump s (by decide) _ _ _

theorem State.accountRead_storesOnly (s : State) (r : WordRead) (src : ReadSource) {store address : Nat} (unit : Nat)
    (h : store = 1 → address < sramEnd) : StoresOnly s (s.accountRead r src store address unit) := by
  cases r with
  | clean d => exact .refl s
  | corrected d => exact s.countRead_storesOnly _ h
  | bad => exact (s.countRead_storesOnly _ h).trans (State.logError_storesOnly _ _ _ _ _)

theorem State.crosses_storesOnly (s : State) : StoresOnly s s.crosses.2 := by
  unfold State.crosses
  split
  · exact ⟨⟨_, _, _, _, _, rfl⟩, rfl⟩
  · exact .refl s

theorem State.readWord_storesOnly (s : State) (w : Nat) (src : ReadSource) (unit : Nat) : StoresOnly s (s.readWord w src unit).1 := by
  have ha := s.accountRead_storesOnly (s.wordRead w) src unit (sram_of_storeOf (a := 16 * w))
  have hx := ha.trans (State.crosses_storesOnly _)
  simp only [State.readWord]
  repeat' split
  all_goals assumption

theorem State.noteMirror_storesOnly (s : State) (w : Nat) (data : Bytes) : StoresOnly s (s.noteMirror w data) := by
  unfold State.noteMirror
  split
  · exact ⟨⟨_, _, _, _, _, rfl⟩, rfl⟩
  · exact .refl s

theorem StoresOnly.withMem (s : State) (m : Memory) : StoresOnly s { s with mem := m } := ⟨⟨_, _, _, _, _, rfl⟩, rfl⟩

theorem State.writeWord_storesOnly (s : State) (w off : Nat) (data : Bytes) (unit : Nat) :
    StoresOnly s (s.writeWord w off data unit) := by
  have hx : StoresOnly s (if storeOf (16 * w) = 2 then s.crosses else (0, s)).2 := by
    split
    · exact s.crosses_storesOnly
    · exact .refl s
  unfold State.writeWord
  extract_lets x t r merged u
  have hr : StoresOnly s u := hx.trans (t.readWord_storesOnly w .unit unit)
  exact P_ite hx (P_ite (hx.trans ((StoresOnly.withMem _ _).trans (State.noteMirror_storesOnly _ _ _)))
    (hr.trans ((StoresOnly.withMem _ _).trans (State.noteMirror_storesOnly _ _ _))))

theorem State.writeWords_storesOnly (s : State) (unit k w off : Nat) (data : Bytes) :
    StoresOnly s (s.writeWords unit k w off data) := by
  induction k generalizing s w off data with
  | zero => exact .refl s
  | succ k ih => exact P_ite (.refl s) ((s.writeWord_storesOnly w off _ unit).trans (ih _ _ _ _))

theorem State.writeMem_storesOnly (s : State) (a : Nat) (data : Bytes) (unit : Nat) : StoresOnly s (s.writeMem a data unit) :=
  s.writeWords_storesOnly _ _ _ _ _

theorem State.writeTile_storesOnly (s : State) (m i comp fmt unit : Nat) (rows : List (List Nat)) :
    StoresOnly s (s.writeTile m i comp fmt unit rows) := by
  unfold State.writeTile
  extract_lets t pitch best h s1 s2 k x s3 s4
  have hstored : StoresOnly s s2 := (s.writeMem_storesOnly _ _ _).trans (State.writeMem_storesOnly _ _ _ _)
  have hslot : StoresOnly s2 s3 := ⟨⟨_, _, _, _, _, rfl⟩, rfl⟩
  have hkey : ∀ b c : Bool, ikey (if !b then 0x5035 else if c then 0x5037 else 0x5036) 0 ≠ ikey 0x8010 0 := by decide
  have hkind : StoresOnly s3 s4 := .idxBump s3 (hkey best.1 best.2.1) _ _ _
  exact ((hstored.trans hslot).trans hkind).trans (.idxBump s4 (by decide) _ _ _)

/-! ### Words of the SRAM tiers -/

/-- From s to t, the bytes of data have been stored at a, and nothing else but the copy stream has changed. -/
structure Stores (a : Nat) (data : Bytes) (s t : State) : Prop where
  frame : ∃ cells r, t = { s with mem := { s.mem with cells := cells }, proof := { s.proof with mirror := r } }
  wf : fwf 0 t.mem.cells = true
  bytes : ∀ k, k < data.length → fget 0 t.mem.cells (a + k) = data.getD k 0
  others : ∀ x, x < a ∨ a + data.length ≤ x → fget 0 t.mem.cells x = fget 0 s.mem.cells x

namespace Stores

variable {s t u : State} {a b : Nat} {data more : Bytes}

theorem nil (h : fwf 0 s.mem.cells = true) (a : Nat) : Stores a [] s s :=
  ⟨⟨_, _, rfl⟩, h, fun _ hk => absurd hk (Nat.not_lt_zero _), fun _ _ => rfl⟩

/-- Stores one behind the other store the bytes in a row. -/
theorem append (h : Stores a data s t) (k : Stores b more t u) (hb : more = [] ∨ b = a + data.length) :
    Stores a (data ++ more) s u := by
  obtain ⟨⟨cells, r, ht⟩, -, hbytes, hothers⟩ := h
  obtain ⟨⟨cells', r', hu⟩, kwf, kbytes, kothers⟩ := k
  refine ⟨⟨cells', r', by rw [hu, ht]⟩, kwf, fun i hi => ?_, fun x hx => ?_⟩
  · rw [List.length_append] at hi
    by_cases hl : i < data.length
    · have hout : a + i < b ∨ b + more.length ≤ a + i := by
        obtain rfl | rfl := hb
        · rw [List.length_nil]
          omega
        · omega
      rw [kothers _ hout, hbytes i hl, List.getD_append _ _ _ _ hl]
    · obtain rfl | rfl := hb
      · exact absurd hi (by simpa using hl)
      · rw [List.getD_append_right _ _ _ _ (by omega), ← kbytes (i - data.length) (by omega)]
        congr 1
        omega
  · rw [List.length_append] at hx
    have hout : x < b ∨ b + more.length ≤ x := by
      obtain rfl | rfl := hb
      · rw [List.length_nil]
        omega
      · omega
    rw [kothers x hout, hothers x (by omega)]

theorem sound (h : Stores a data s t) (hs : Sound s) : Sound t := by
  obtain ⟨⟨cells, r, rfl⟩, -, -, -⟩ := h
  exact hs

/-- The stored bytes are what is loaded there. -/
theorem loadByte (h : Stores a data s t) (ha : a + data.length ≤ sramEnd) {k : Nat} (hk : k < data.length) :
    t.loadByte (a + k) = data.getD k 0 := by
  rw [State.loadByte_of_low _ (low_of_sram (by omega)), h.bytes k hk]

theorem loadByte_of_other (h : Stores a data s t) {x : Nat} (hx : canon x < deviceArea) (ho : x < a ∨ a + data.length ≤ x) :
    t.loadByte x = s.loadByte x := by
  rw [State.loadByte_of_low _ hx, State.loadByte_of_low _ hx, h.others x ho]

end Stores

/-- Bytes set in memory, in the SRAM tiers. -/
theorem Memory.setBytes_sram {m : Memory} (h : fwf 0 m.cells = true) (a : Nat) (bs : Bytes) (ha : a + bs.length ≤ sramEnd) :
    ∃ cells, m.setBytes a bs = { m with cells := cells } ∧ fwf 0 cells = true ∧
      (∀ k, k < bs.length → fget 0 cells (a + k) = bs.getD k 0) ∧
      ∀ x, x < a ∨ a + bs.length ≤ x → fget 0 cells x = fget 0 m.cells x := by
  induction bs generalizing m a with
  | nil => exact ⟨_, rfl, h, fun _ hk => absurd hk (Nat.not_lt_zero _), fun _ _ => rfl⟩
  | cons b bs ih =>
    rw [List.length_cons] at ha
    have hcanon : canon a = a := canon_of_sram (by omega)
    obtain ⟨cells, he, hw, hbytes, hothers⟩ := ih (m := m.setByte a b) (fwf_fset h _ _) (a + 1) (by omega)
    refine ⟨cells, he, hw, fun k hk => ?_, fun x hx => ?_⟩
    · cases k with
      | zero =>
        rw [Nat.add_zero, hothers a (by omega), Memory.setByte, hcanon]
        exact fget_fset_self h a b
      | succ k =>
        rw [← Nat.add_assoc, Nat.add_right_comm, hbytes k (by simpa using hk), List.getD_cons_succ]
    · rw [List.length_cons] at hx
      rw [hothers x (by omega), Memory.setByte, hcanon]
      exact fget_fset_ne 0 _ _ (by omega)

theorem leBytes_leNat (b : Bytes) : leBytes b.length (leNat b) = b := by
  induction b with
  | nil => rfl
  | cons x t ih =>
    have hx := x.isLt
    rw [List.length_cons, leBytes, leNat, show (x.toNat + 256 * leNat t) / 256 = leNat t by omega, ih]
    congr 1
    exact BitVec.eq_of_toNat_eq (by simp [BitVec.toNat_ofNat]; omega)

/-- The low bytes of a number are the first of its bytes. -/
theorem leNat_mod (b : Bytes) (n : Nat) : leNat b % 256 ^ n = leNat (b.take n) := by
  induction n generalizing b with
  | zero => rw [Nat.pow_zero, Nat.mod_one, List.take_zero, leNat]
  | succ n ih =>
    cases b with
    | nil => simp [leNat]
    | cons x t =>
      have hx := x.isLt
      have hlow : (x.toNat + 256 * leNat t) % 256 = x.toNat := by omega
      have hhigh : (x.toNat + 256 * leNat t) / 256 = leNat t := by omega
      rw [List.take_succ_cons, leNat, leNat, ← ih, Nat.pow_succ', Nat.mod_mul, hlow, hhigh]

section Sram

variable {s : State} (hs : Sound s)

include hs

theorem State.wordRead_of_sound (w : Nat) : s.wordRead w = .clean (leNat (s.wordBytes w)) :=
  if_pos (by rw [State.pattern, hs]; rfl)

/-- A sound word of the SRAM tiers reads as it was written, and nothing is counted. -/
theorem State.readWord_sram {w : Nat} (hw : 16 * w < sramEnd) (src : ReadSource) (unit : Nat) :
    s.readWord w src unit = (s, s.wordBytes w, false) := by
  have hlen : (s.wordBytes w).length = 16 := by simp [State.wordBytes]
  have hle := leBytes_leNat (s.wordBytes w)
  rw [hlen] at hle
  have hst : storeOf (canon (16 * w)) = 1 := by rw [canon_of_sram hw, storeOf_of_sram hw]
  simp [State.readWord, State.wordRead_of_sound hs, hst, State.accountRead, hle]

end Sram

/-- A fresh code over a word without an error changes nothing. -/
theorem Memory.setPattern_sound {m : Memory} (h : m.errors = []) (w : Nat) : m.setPattern w 0 = m := by
  rw [Memory.setPattern, h, fset, if_pos rfl, ← h]

theorem State.noteMirror_frame (s : State) (w : Nat) (data : Bytes) :
    ∃ r, s.noteMirror w data = { s with proof := { s.proof with mirror := r } } := by
  unfold State.noteMirror
  split <;> exact ⟨_, rfl⟩

/-- Bytes set in a sound word, with a fresh code and the note for the copy stream. -/
theorem Stores.of_setBytes {s : State} (hs : Sound s) (hw : fwf 0 s.mem.cells = true) {a : Nat} {bs : Bytes}
    (ha : a + bs.length ≤ sramEnd) (w v : Nat) (note : Bytes) :
    Stores a bs s (State.noteMirror { s with mem := (s.mem.setBytes a bs).setPattern w 0 } v note) := by
  obtain ⟨cells, he, hwf, hbytes, hothers⟩ := Memory.setBytes_sram hw a bs ha
  obtain ⟨r, hn⟩ := State.noteMirror_frame { s with mem := (s.mem.setBytes a bs).setPattern w 0 } v note
  rw [hn, he, Memory.setPattern_sound (m := { s.mem with cells := cells }) hs]
  exact ⟨⟨cells, r, rfl⟩, hwf, hbytes, hothers⟩

/-! ### Merging into a word (R317) -/

theorem patch_eq {bs data : Bytes} {off : Nat} (h : off + data.length ≤ bs.length) :
    patch bs off data = bs.take off ++ data ++ bs.drop (off + data.length) := by
  simp [patch, zeros, Nat.sub_eq_zero_of_le h]

theorem patch_length {bs data : Bytes} {off : Nat} (h : off + data.length ≤ bs.length) : (patch bs off data).length = bs.length := by
  rw [patch_eq h]
  simp
  omega

theorem patch_getD {bs data : Bytes} {off : Nat} (h : off + data.length ≤ bs.length) (i : Nat) :
    (patch bs off data).getD i 0 = if off ≤ i ∧ i < off + data.length then data.getD (i - off) 0 else bs.getD i 0 := by
  have hto : (bs.take off).length = off := by simp; omega
  rw [patch_eq h]
  by_cases h1 : i < off
  · rw [if_neg (by omega), List.append_assoc, List.getD_append _ _ _ _ (by omega)]
    simp [List.getD_eq_getElem?_getD, h1]
  · rw [List.append_assoc, List.getD_append_right _ _ _ _ (by omega), hto]
    by_cases h2 : i < off + data.length
    · rw [if_pos (by omega), List.getD_append _ _ _ _ (by omega)]
    · rw [if_neg (by omega), List.getD_append_right _ _ _ _ (by omega)]
      simp only [List.getD_eq_getElem?_getD, List.getElem?_drop]
      congr 2
      omega

/-! ### Stores to the SRAM tiers -/

theorem State.wordBytes_getD (s : State) (w : Nat) {i : Nat} (hi : i < 16) :
    (s.wordBytes w).getD i 0 = s.loadByte (16 * w + i) := by
  simp [State.wordBytes, List.getD_eq_getElem?_getD, hi]

section SramStores

variable {s : State} (hs : Sound s) (hw : fwf 0 s.mem.cells = true)

include hs hw

/-- A store inside one word of the SRAM tiers. -/
theorem State.writeWord_sram {w off : Nat} {data : Bytes} (ha : 16 * w < sramEnd) (hoff : off + data.length ≤ 16) (unit : Nat) :
    Stores (16 * w + off) data s (s.writeWord w off data unit) := by
  have hend := word_in_sram ha
  have hlen : (s.wordBytes w).length = 16 := by simp [State.wordBytes]
  have hfit : off + data.length ≤ (s.wordBytes w).length := by omega
  have hcross : (if storeOf (16 * w) = 2 then s.crosses else (0, s)) = (0, s) := if_neg (by rw [storeOf_of_sram ha]; decide)
  rw [State.writeWord, hcross]
  dsimp only
  rw [if_neg Nat.zero_ne_one, State.readWord_sram hs ha]
  split
  · next hwhole =>
    obtain ⟨hzero, -⟩ := Bool.and_eq_true_iff.1 hwhole
    obtain rfl := of_decide_eq_true hzero
    exact .of_setBytes hs hw (by omega) _ _ _
  · obtain ⟨hframe, hwf, hbytes, hothers⟩ := Stores.of_setBytes hs hw (a := 16 * w) (bs := patch (s.wordBytes w) off data)
      (by rw [patch_length hfit]; omega) w w (patch (s.wordBytes w) off data)
    rw [patch_length hfit, hlen] at hbytes hothers
    refine ⟨hframe, hwf, fun k hk => ?_, fun x hx => ?_⟩
    · rw [Nat.add_assoc]
      exact (hbytes _ (by omega)).trans (by rw [patch_getD hfit, if_pos (by omega), Nat.add_sub_cancel_left])
    · by_cases hin : 16 * w ≤ x ∧ x < 16 * w + 16
      · obtain ⟨i, rfl⟩ := Nat.exists_eq_add_of_le hin.1
        refine (hbytes i (by omega)).trans ?_
        rw [patch_getD hfit, if_neg (by omega), State.wordBytes_getD s w (by omega),
          State.loadByte_of_low s (low_of_sram (by omega))]
      · exact hothers x (by omega)

theorem State.writeWords_sram (unit : Nat) {k w off : Nat} {data : Bytes} (hk : off + data.length ≤ 16 * k) (hoff : off < 16)
    (ha : 16 * w + off + data.length ≤ sramEnd) : Stores (16 * w + off) data s (s.writeWords unit k w off data) := by
  induction k generalizing s w off data with
  | zero =>
    obtain rfl : data = [] := List.eq_nil_of_length_eq_zero (by omega)
    exact .nil hw _
  | succ k ih =>
    unfold State.writeWords
    dsimp only
    split
    · next hnone =>
      have hshort : data.take (16 - off) = [] := by simpa using hnone
      obtain rfl : data = [] := (List.take_eq_nil_iff.1 hshort).resolve_left (by omega)
      exact .nil hw _
    · next hsome =>
      have hne : data ≠ [] := by
        rintro rfl
        simp at hsome
      have hpos := List.length_pos_iff.2 hne
      have hlen : (data.take (16 - off)).length = min (16 - off) data.length := by simp
      have hend := word_in_sram (w := w) (by omega)
      have hfirst := State.writeWord_sram hs hw (w := w) (off := off) (data := data.take (16 - off)) (by omega) (by omega) unit
      have hrest := ih (hfirst.sound hs) hfirst.wf (w := w + 1) (off := 0) (data := data.drop (16 - off))
        (by rw [List.length_drop]; omega) (by decide) (by rw [List.length_drop]; omega)
      have hboth := hfirst.append hrest (by
        by_cases hl : data.length ≤ 16 - off
        · exact .inl (List.drop_eq_nil_of_le hl)
        · exact .inr (by omega))
      rwa [List.take_append_drop] at hboth

/-- What the SRAM tiers hold after a store to them while no stored word carries an error. -/
theorem State.writeMem_sram {a : Nat} {data : Bytes} (ha : a + data.length ≤ sramEnd) (unit : Nat) :
    Stores a data s (s.writeMem a data unit) := by
  have h := State.writeWords_sram hs hw unit (k := data.length / 16 + 2) (w := a / 16) (off := a % 16) (data := data)
    (by omega) (by omega) (by omega)
  rwa [Nat.div_add_mod] at h

end SramStores

/-- A little-endian 64-bit word at a multiple of 16 reads back where no stored word carries an error. -/
theorem State.peek64_of_loads {s : State} (hs : Sound s) {a v : Nat} (h16 : a % 16 = 0)
    (h : ∀ k, k < 8 → s.loadByte (a + k) = (leBytes 8 v).getD k 0) : s.peek64 a = v % 2 ^ 64 := by
  have hbytes : (s.wordBytes (a / 16)).take 8 = leBytes 8 v := by
    refine List.ext_getElem (by simp [State.wordBytes, leBytes_length]) fun k _ hk => ?_
    have hload := h k (by rwa [leBytes_length] at hk)
    rw [List.getD_eq_getElem _ _ hk] at hload
    simp only [State.wordBytes, List.getElem_take, List.getElem_map, List.getElem_range]
    rwa [show 16 * (a / 16) = a by omega]
  rw [State.peek64, State.wordRead_of_sound hs, h16, Nat.pow_zero, Nat.div_one, show 2 ^ 64 = 256 ^ 8 by rfl, leNat_mod, hbytes,
    leNat_leBytes]

end Sys2Proof.Machine
end

section
/-!
SUPPORT. WOUT_ITEM: what an unmasked item of one sound row converts to (R72, R98), and what becomes of it at each of the four
destinations (R116, R159, R213).
-/
namespace Sys2Proof.Machine

open Sys2Proof

/-! ### An item of one row -/

/-- What a write-out makes of an item of one unmasked row: its codes and its counters. -/
def plainItem (codes : List Nat) (k : Counts) : ItemOut := ⟨[some codes], [List.replicate codes.length true], [], k⟩

section PlainItem

variable (codes : List Nat) (k : Counts)

theorem plainItem_rowFailed : (plainItem codes k).rowFailed 0 = false := rfl

theorem plainItem_counts : (plainItem codes k).counts = k := rfl

theorem plainItem_failed : (plainItem codes k).failed = false := rfl

/-- Where nothing is masked a row goes on as it was converted. -/
theorem mergeRow_unmasked (old : List Nat) : mergeRow codes old (List.replicate codes.length true) = codes := by
  refine List.ext_getElem (by simp [mergeRow]) fun j hj hj' => ?_
  simp [mergeRow, hj']

theorem itemPayload_plainItem (w : Nat) : itemPayload w (plainItem codes k) = packCodes (fmtBits (wfFmt w)) codes := by
  simp [itemPayload, plainItem, mergeRow_unmasked]

end PlainItem

/-- Element j of an item's row, as the write-out converts it (R72). -/
def State.woutElement (s : State) (c : Cmd) (row j : Nat) : Nat × Event :=
  ((fmtElt (wfFmt c.word)).getD .fp32).convert (accValue (s.acc c.unit row (wfCol c.word + j)))

/-- The codes of an item of one row. -/
def State.woutCodes (s : State) (c : Cmd) (row : Nat) : List Nat :=
  (List.range (wfCols c.word)).map (fun j => (s.woutElement c row j).1)

/-- The counters of an item of one row. -/
def State.woutCounts (s : State) (c : Cmd) (row : Nat) : Counts :=
  (List.range (wfCols c.word)).foldl (fun n j => n.add (s.woutElement c row j).2) Counts.zero

/-- The write-out c has an unmasked item of one sound row to convert. -/
structure PlainRow (s : State) (c : Cmd) (row : Nat) : Prop where
  mask : wfMask c.word = 0
  trip : dTrip c.primary 0 = 1
  place : row = (dAddr c.primary c.primary 0 c.next).toNat
  sound : s.rowPoison c.unit row = false

theorem State.readMask_unmasked (s : State) {c : Cmd} (h : wfMask c.word = 0) (n rows cols : Nat) :
    s.readMask c n rows cols = (s, List.replicate rows (List.replicate cols true), []) := by
  unfold State.readMask
  rw [if_pos h]
  simp

/-- Where nothing is masked every element counts (R100). -/
theorem foldl_unmasked (es : List (Nat × Event)) (n : Counts) :
    (es.zip (List.replicate es.length true)).foldl (fun n e => if e.2 then n.add e.1.2 else n) n =
      es.foldl (fun n e => n.add e.2) n := by
  induction es generalizing n with
  | nil => rfl
  | cons e es ih => exact ih _

section Convert

variable {s : State} {c : Cmd} {row : Nat} (h : PlainRow s c row)

include h

theorem State.convertItem_plain : s.convertItem c c.next = (s, plainItem (s.woutCodes c row) (s.woutCounts c row)) := by
  obtain ⟨hmask, htrip, rfl, hsound⟩ := h
  unfold State.convertItem
  simp only [State.readMask_unmasked s hmask, htrip, Nat.mul_one, Nat.add_zero, List.range_one, List.map_cons, List.map_nil, hsound]
  have hcounts := foldl_unmasked ((List.range (wfCols c.word)).map (s.woutElement c (dAddr c.primary c.primary 0 c.next).toNat))
    Counts.zero
  rw [List.length_map, List.length_range, List.foldl_map] at hcounts
  refine Prod.ext rfl (ItemOut.mk.injEq .. ▸ ⟨?_, ?_, rfl, hcounts⟩)
  · simp [State.woutCodes, State.woutElement]
  · simp [State.woutCodes]

end Convert

/-! ### The four destinations -/

/-- What a write port finds where it has stored to the SRAM tiers is what it stored (R322). -/
theorem State.storeRow_sram {s : State} (hs : Sound s) (hw : fwf 0 s.mem.cells = true) {a : Nat} {bs : Bytes}
    (ha : a + bs.length ≤ sramEnd) (unit : Nat) (x : StoreRun) :
    s.storeRow a unit bs x = (s.writeMem a bs unit, ⟨bs :: x.carried, bs :: x.stored, (a, bs.length) :: x.spans, x.failed⟩) := by
  have hst := State.writeMem_sram hs hw ha unit
  have hback : (List.range bs.length).map (fun i => (s.writeMem a bs unit).loadByte (a + i)) = bs := by
    refine List.ext_getElem (by simp) fun k _ hk => ?_
    rw [List.getElem_map, List.getElem_range, hst.loadByte ha hk, List.getD_eq_getElem _ _ hk]
  rw [State.storeRow, State.writeBack]
  dsimp only
  rw [hback]

section Destinations

variable {s : State} {c : Cmd} {codes : List Nat} {k : Counts}

/-- A plain item stored in the SRAM tiers is OK, and nothing but its bytes is stored. -/
theorem State.storeItem_plain (hmask : wfMask c.word = 0) (htrip : dTrip c.primary 0 = 1) (hs : Sound s)
    (hw : fwf 0 s.mem.cells = true) {a : Nat} (ha : a = (dAddr c.primary c.primary 1 c.next).toNat) {bs : Bytes}
    (hbs : bs = packCodes (fmtBits (wfFmt c.word)) codes) (hend : a + bs.length ≤ sramEnd) :
    s.storeItem c c.next (plainItem codes k) = (s.writeMem a bs c.unit, crc32c bs, none) := by
  have hrow := State.storeRow_sram hs hw hend c.unit ⟨[], [], [], false⟩
  subst ha hbs
  have hrows : (List.range (plainItem codes k).rows.length) = [0] := rfl
  have hcodes : ((plainItem codes k).rows.getD 0 none).getD [] = codes := rfl
  unfold State.storeItem
  simp only [hrows, List.foldl_cons, List.foldl_nil, plainItem_rowFailed, hmask, hcodes, htrip, Nat.mul_one, Nat.add_zero,
    Bool.false_eq_true, if_false, if_true, hrow]
  simp [State.checkStored]

/-- A plain item stored as a stash tile. -/
theorem State.stashItem_plain (hmask : wfMask c.word = 0) : s.stashItem c c.next (plainItem codes k) =
    (s.writeTile c.microBatch (wfTile c.word + c.next) (wfComp c.word) (wfFmt c.word) c.unit [codes],
      crc32c (elementBytes (wfFmt c.word) [codes]), false) := by
  have hrows : (List.range (plainItem codes k).rows.length) = [0] := rfl
  have hcodes : ((plainItem codes k).rows.getD 0 none).getD [] = codes := rfl
  have hkept : (plainItem codes k).kept.getD 0 [] = List.replicate codes.length true := rfl
  unfold State.stashItem
  simp only [hmask, plainItem_failed, hrows, List.map_cons, List.map_nil, plainItem_rowFailed, hcodes, hkept, mergeRow_unmasked,
    decide_true, Bool.not_false, Bool.and_true, Bool.false_eq_true, if_false, if_true]

end Destinations

theorem State.digest_of_unpaired {s : State} (h : s.pairActive = false) (c : Cmd) (item : Nat) (failed : Bool) (cause check : Nat) :
    s.digest c item failed cause check = s := by
  simp [State.digest, h]

/-- The command once an item that counts k is behind it. -/
def Cmd.pastItem (c : Cmd) (k : Counts) : Cmd := { c with counts := c.counts.plus k, next := c.next + 1, waited := false }

section WriteOut

variable {s : State} {c : Cmd} {row : Nat}

/-- A plain item goes to SRAM and is OK (R98, R322). -/
theorem State.writeOut_memory (h : PlainRow s c row) (hd : wfDest c.word = 0) (hpair : s.pairActive = false) (hs : Sound s)
    (hw : fwf 0 s.mem.cells = true) {a : Nat} (ha : a = (dAddr c.primary c.primary 1 c.next).toNat) {bs : Bytes}
    (hbs : bs = packCodes (fmtBits (wfFmt c.word)) (s.woutCodes c row)) (hend : a + bs.length ≤ sramEnd) :
    s.writeOut c = (s.writeMem a bs c.unit).setCmd (c.pastItem (s.woutCounts c row)) := by
  have hpair' := (s.writeMem_storesOnly a bs c.unit).pairActive.trans hpair
  unfold State.writeOut
  simp only [State.convertItem_plain h, hd, State.storeItem_plain h.mask h.trip hs hw ha hbs hend, State.itemOk,
    State.digest_of_unpaired hpair', plainItem_counts, Cmd.pastItem]

/-- A plain item goes to its stash tile and is OK (R116). -/
theorem State.writeOut_stash (h : PlainRow s c row) (hd : wfDest c.word = 1) (hpair : s.pairActive = false) :
    s.writeOut c = (s.writeTile c.microBatch (wfTile c.word + c.next) (wfComp c.word) (wfFmt c.word) c.unit
      [s.woutCodes c row]).setCmd (c.pastItem (s.woutCounts c row)) := by
  have hpair' := (s.writeTile_storesOnly c.microBatch (wfTile c.word + c.next) (wfComp c.word) (wfFmt c.word) c.unit
    [s.woutCodes c row]).pairActive.trans hpair
  unfold State.writeOut
  simp only [State.convertItem_plain h, hd, State.stashItem_plain h.mask, State.itemOk, State.digest_of_unpaired hpair',
    plainItem_counts, Cmd.pastItem, Bool.false_eq_true, if_false]

/-- A plain item that its context does not take yet waits (R213). -/
theorem State.writeOut_waits (h : PlainRow s c row) (hd : wfDest c.word = 2)
    (hn : s.contributeAcross (wfTile c.word) c.next 0 (packCodes (fmtBits (wfFmt c.word)) (s.woutCodes c row)) = none) :
    s.writeOut c = s.setCmd { c with waited := true } := by
  unfold State.writeOut
  simp only [State.convertItem_plain h, hd, plainItem_failed, Bool.false_eq_true, if_false, itemPayload_plainItem, hn]

/-- A plain item that its context takes is OK or fails with the context's cause (R159, R213). -/
theorem State.writeOut_contributes (h : PlainRow s c row) (hd : wfDest c.word = 2) {bs : Bytes}
    (hbs : bs = packCodes (fmtBits (wfFmt c.word)) (s.woutCodes c row)) {v : State} {cause : Nat}
    (hsome : s.contributeAcross (wfTile c.word) c.next 0 bs = some (v, cause)) {r : State × Cmd}
    (hr : r = if cause = 0 then v.itemOk c c.next (crc32c bs) (s.woutCounts c row)
      else v.itemFailed c c.next cause (s.woutCounts c row)) :
    s.writeOut c = (r.1.setCmd { r.2 with next := c.next + 1, waited := false }).settle none := by
  subst hr hbs
  unfold State.writeOut
  simp only [State.convertItem_plain h, hd, plainItem_failed, Bool.false_eq_true, if_false, itemPayload_plainItem, hsome, ne_eq,
    ite_not]
  rfl

/-- A plain item leaves as a frame (R98). -/
theorem State.writeOut_sends (h : PlainRow s c row) (hd : wfDest c.word = 3) {bs : Bytes}
    (hbs : bs = packCodes (fmtBits (wfFmt c.word)) (s.woutCodes c row)) :
    s.writeOut c = ((s.setCmd { c with next := c.next + 1 }).sendItem { c with next := c.next + 1 } c.next (wfCols c.word) bs false
      (s.woutCounts c row)).settle none := by
  subst hbs
  unfold State.writeOut
  simp only [State.convertItem_plain h, hd, plainItem_failed, itemPayload_plainItem, h.trip, Nat.one_mul]
  rfl

end WriteOut

/-! ### WOUT_ITEM -/

section WoutItem

variable {s : State} {u : BitVec 8} {c : Cmd}

theorem execWoutItem_of_running (hc : s.power.clocksStopped = false)
    (h : (s.runningOn u.toNat).find? (fun k => k.opcode == 0x21) = some c) (hi : woutIdle c.word c.primary = false)
    (hn : c.next < itemCount c.primary) : execWoutItem u s = s.ends (s.writeOut c) := by
  simp [execWoutItem, hc, h, hi, Nat.not_le.2 hn]

/-- What the item's command and the other fields are where the item's bytes have gone to memory or to a tile. -/
theorem StoresOnly.pastItem {t : State} (h : StoresOnly s t) (k : Counts) :
    ∃ v, s.ends (t.setCmd (c.pastItem k)) = .next v ∧ v.mem = t.mem ∧ v.binding = s.binding ∧
      (∀ x ∈ v.cores.cmds, x.core = c.core → x.serial = c.serial → x.next = c.next + 1) ∧ v.cores.cores = s.cores.cores ∧
      v.ctxs = s.ctxs ∧ v.clock = s.clock := by
  obtain ⟨⟨n, i, m, st, r, rfl⟩, -⟩ := h
  exact ⟨_, rfl, rfl, rfl, fun x hx hcore hserial => congrArg Cmd.next (State.eq_of_mem_setCmd (c := c.pastItem k) hx hcore hserial),
    rfl, rfl, rfl⟩

/-- An unmasked item of one row is stored in SRAM at its address and nowhere else (R98). -/
theorem State.ends_writeOut_memory {row : Nat} (h : PlainRow s c row) (hd : wfDest c.word = 0) (hpair : s.pairActive = false)
    (hs : Sound s) (hw : fwf 0 s.mem.cells = true) {a : Nat} (ha : a = (dAddr c.primary c.primary 1 c.next).toNat) {bs : Bytes}
    (hbs : bs = packCodes (fmtBits (wfFmt c.word)) (s.woutCodes c row)) (hend : a + bs.length ≤ sramEnd) :
    ∃ t, s.ends (s.writeOut c) = .next t ∧ (∀ k, k < bs.length → t.loadByte (a + k) = bs.getD k 0) ∧
      (∀ x, canon x < deviceArea → x < a ∨ a + bs.length ≤ x → t.loadByte x = s.loadByte x) ∧
      (∀ k ∈ t.cores.cmds, k.core = c.core → k.serial = c.serial → k.next = c.next + 1) ∧ t.cores.cores = s.cores.cores ∧
      t.ctxs = s.ctxs ∧ t.clock = s.clock ∧ t.binding = s.binding ∧ t.mem.accumulators = s.mem.accumulators := by
  have hst := State.writeMem_sram hs hw hend c.unit
  obtain ⟨t, ht, hmem, hbinding, hcmds, hcores, hctxs, hclock⟩ :=
    (s.writeMem_storesOnly a bs c.unit).pastItem (c := c) (s.woutCounts c row)
  rw [State.writeOut_memory h hd hpair hs hw ha hbs hend]
  refine ⟨t, ht, fun j hj => ?_, fun x hx ho => ?_, hcmds, hcores, hctxs, hclock, hbinding, ?_⟩
  · rw [State.loadByte_of_mem hmem (low_of_sram (Nat.lt_of_lt_of_le (Nat.add_lt_add_left hj a) hend)), hst.loadByte hend hj]
  · rw [State.loadByte_of_mem hmem hx, hst.loadByte_of_other hx ho]
  · obtain ⟨cells, n, hframe⟩ := hst.frame
    rw [hmem, hframe]

/-- An unmasked item of one row is stored in its stash tile (R116). -/
theorem State.ends_writeOut_stash {row : Nat} (h : PlainRow s c row) (hd : wfDest c.word = 1) (hpair : s.pairActive = false) :
    ∃ t, s.ends (s.writeOut c) = .next t ∧
      t.mem = (s.writeTile c.microBatch (wfTile c.word + c.next) (wfComp c.word) (wfFmt c.word) c.unit [s.woutCodes c row]).mem ∧
      (∀ k ∈ t.cores.cmds, k.core = c.core → k.serial = c.serial → k.next = c.next + 1) ∧ t.cores.cores = s.cores.cores ∧
      t.ctxs = s.ctxs ∧ t.clock = s.clock := by
  have hstored := s.writeTile_storesOnly c.microBatch (wfTile c.word + c.next) (wfComp c.word) (wfFmt c.word) c.unit
    [s.woutCodes c row]
  obtain ⟨t, ht, hmem, -, hcmds, hcores, hctxs, hclock⟩ := hstored.pastItem (c := c) (s.woutCounts c row)
  rw [State.writeOut_stash h hd hpair]
  exact ⟨t, ht, hmem, hcmds, hcores, hctxs, hclock⟩

theorem execWoutItem_of_none (h : (s.runningOn u.toNat).find? (fun k => k.opcode == 0x21) = none) :
    execWoutItem u s = .next s :=
  State.ends_self (by simp [h])

end WoutItem

end Sys2Proof.Machine
end

section
/-!
SUPPORT. The end of a command: COMMAND_COMPLETE without a ring (R173, R184, R186), and COMPLETION_RECORD_WRITE with one (R185).
-/
namespace Sys2Proof.Machine

open Sys2Proof

/-! ### A command leaves its queue (R173) -/

/-- Dropping a command drops what it was replaced by. -/
theorem State.dropCmd_setCmd (s : State) (c : Cmd) : (s.setCmd c).dropCmd c.core c.serial = s.dropCmd c.core c.serial := by
  have hfilter : ((s.setCmd c).cores.cmds).filter (fun x => !(x.core == c.core && x.serial == c.serial)) =
      s.cores.cmds.filter (fun x => !(x.core == c.core && x.serial == c.serial)) := by
    unfold State.setCmd
    dsimp only
    induction s.cores.cmds with
    | nil => rfl
    | cons x xs ih =>
      rw [List.map_cons, List.filter_cons, List.filter_cons, ih]
      by_cases hx : (x.core == c.core && x.serial == c.serial) = true
      · simp [hx]
      · simp [hx]
  unfold State.dropCmd
  rw [hfilter]
  rfl

/-- The core's record once one more command of a unit is complete (Table 7.2). -/
def Core.completed (x : Core) (unit : Nat) : Core :=
  { x with completions := fset 0 x.completions unit ((fget 0 x.completions unit + 1) % 2 ^ 32) }

theorem State.recordDone_of_summary (s : State) (c serial unit : Nat) :
    s.recordDone c serial unit true = (s.setCore c ((s.core c).completed unit)).dropCmd c serial := rfl

/-! ### Completion without a ring (R186) -/

section Ringless

variable {s : State} {c : Cmd}

/-- A core that keeps no ring and has no record waiting. -/
abbrev Core.Ringless (x : Core) : Prop := x.ringSize = 0 ∧ x.records = []

theorem State.pushRecord_of_ringless {core : Nat} (h : (s.core core).Ringless) (serial unit : Nat) (summary : Bool) (bs : Bytes) :
    s.pushRecord core serial unit summary bs = s.recordDone core serial unit summary := if_pos h.1

theorem Core.ne_reset_of_declared {x : Core} (h : x.declared = true) : x ≠ Core.reset := by
  rintro rfl
  exact absurd h (by decide)

/-- The state in which command c has left its queue, counted as complete. -/
def State.freed (s : State) (c : Cmd) : State :=
  (s.setCore c.core ((s.core c.core).completed c.unit)).dropCmd c.core c.serial

theorem State.core_freed (hd : (s.core c.core).declared = true) : (s.freed c).core c.core = (s.core c.core).completed c.unit :=
  State.core_setCore_listed s c.core (Core.ne_reset_of_declared (x := (s.core c.core).completed c.unit) hd)

/-- The summary record of a command that was replaced in its queue by its finished form. -/
theorem State.pushSummary_of_ringless (hr : (s.core c.core).Ringless) (bs : Bytes) :
    (s.setCmd c).pushRecord c.core c.serial c.unit true bs = s.freed c := by
  rw [State.pushRecord_of_ringless (s := s.setCmd c) hr, State.recordDone_of_summary]
  exact State.dropCmd_setCmd (s.setCore c.core ((s.core c.core).completed c.unit)) c

/-- From s to t at most totals of the colophon and entries of the Index have changed. -/
def Totals (s t : State) : Prop := ∃ b i, t = { s with binding := b, index := i }

namespace Totals

variable {s t u : State}

theorem trans (h : Totals s t) (k : Totals t u) : Totals s u := by
  obtain ⟨b, i, rfl⟩ := h
  obtain ⟨b', i', rfl⟩ := k
  exact ⟨b', i', rfl⟩

theorem refl (s : State) : Totals s s := ⟨_, _, rfl⟩

theorem add (h : Totals s t) (off n : Nat) : Totals s (t.colophonAdd off n) := h.trans ⟨_, _, rfl⟩

theorem count (h : Totals s t) (i sub n : Nat) : Totals s (t.count i sub n) := h.trans ⟨_, _, rfl⟩

theorem flag (h : Totals s t) (b : Nat) : Totals s (t.colophonFlag b) := by
  refine h.trans ?_
  unfold State.colophonFlag
  split <;> exact ⟨_, _, rfl⟩

end Totals

/-- Finishing a command of such a core counts it and frees its entry at once; the totals of the colophon and of the Index take its
counters (R205). -/
theorem State.finishCmd_of_ringless (hr : (s.core c.core).Ringless) (hd : (s.core c.core).declared = true) (status cause : Nat) :
    Totals (s.freed c) (s.finishCmd c status cause) := by
  unfold State.finishCmd
  extract_lets failed st ca squashed k skipped audited missed done s0 s1 s2 s3 t1 t2 t3 t4 t5 t6 t7 t8 t9 t10
  have hitems : s1 = s0 := List.foldlRecOn (motive := (· = s0)) failed _ rfl fun t ht f _ => by
    subst ht
    exact State.pushRecord_of_ringless (s := s0) hr _ _ _ _
  have hsummary : s2 = s.freed c := by
    show s1.pushRecord done.core done.serial done.unit true _ = _
    rw [hitems]
    exact State.pushSummary_of_ringless (c := done) hr _
  have hwritten : s3 = s.freed c := by
    have hnone : (s2.core done.core).records = [] := by rw [hsummary, State.core_freed hd]; exact hr.2
    show s2.writeRecords done.core (s2.core done.core).records.length = _
    rw [hnone]
    exact hsummary
  have ht9 : Totals (s.freed c) t9 := by
    rw [← hwritten]
    have ht8 : Totals s3 t8 :=
      ((((((((Totals.refl s3).add _ _).add _ _).add _ _).add _ _).add _ _).add _ _).add _ _).add _ _
    exact ((ht8.count _ _ _).count _ _ _).count _ _ _
  have ht10 : Totals (s.freed c) t10 := P_ite (ht9.flag 23) ht9
  exact P_ite (((ht10.flag 22).add _ _).count _ _ _) ht10

end Ringless

/-! ### COMMAND_COMPLETE -/

/-- Command k has no work left: a product's passes, a write-out's items and their frames, or a send's frames are done. -/
def Cmd.WorkDone (k : Cmd) (items : Nat) : Prop :=
  k.opcode = 0x20 ∧ (prodIdle k.word k.primary = true ∨ passesOf k.primary ≤ k.next) ∨
    k.opcode = 0x21 ∧ items ≤ k.next ∧ (wfDest k.word = 3 → items ≤ k.sentItems.length) ∨
    k.opcode = 0x61 ∧ items ≤ k.sentItems.length

section Complete

variable {s : State} {k : Cmd}

/-- State t is s with command k finished, whatever its status and its counters. -/
def Finishes (s : State) (k : Cmd) (t : State) : Prop :=
  ∃ d status cause, t = s.finishCmd d status cause ∧ d.core = k.core ∧ d.serial = k.serial ∧ d.unit = k.unit

theorem State.completeCmd_of_product (ho : k.opcode = 0x20) (h : prodIdle k.word k.primary = true ∨ passesOf k.primary ≤ k.next) :
    Finishes s k (s.completeCmd k) := by
  simp only [State.completeCmd, ho]
  by_cases hidle : prodIdle k.word k.primary = true
  · rw [if_pos hidle]
    exact ⟨_, _, _, rfl, rfl, rfl, rfl⟩
  · have hnext := Nat.not_lt.2 (h.resolve_left hidle)
    rw [if_neg hidle, if_neg hnext]
    split <;> exact ⟨_, _, _, rfl, rfl, rfl, rfl⟩

theorem State.completeCmd_of_writeOut (ho : k.opcode = 0x21) {items : Nat}
    (hi : items = if k.opcode = 0x21 ∧ woutIdle k.word k.primary = true then 0 else itemCount k.primary) (hn : items ≤ k.next)
    (hsent : wfDest k.word = 3 → items ≤ k.sentItems.length) : Finishes s k (s.completeCmd k) := by
  have hitems : items = if woutIdle k.word k.primary then 0 else itemCount k.primary := by simpa [ho] using hi
  simp only [State.completeCmd, ho]
  rw [← hitems, if_neg (by simpa [Nat.not_lt.2 hn] using hsent)]
  exact ⟨_, _, _, rfl, rfl, rfl, rfl⟩

theorem State.completeCmd_of_send (ho : k.opcode = 0x61) (hn : itemCount k.primary ≤ k.sentItems.length) :
    Finishes s k (s.completeCmd k) := by
  simp only [State.completeCmd, ho]
  rw [if_neg (Nat.not_lt.2 hn)]
  exact ⟨_, _, _, rfl, rfl, rfl, rfl⟩

theorem State.completeCmd_of_workDone {items : Nat}
    (hi : items = if k.opcode = 0x21 ∧ woutIdle k.word k.primary = true then 0 else itemCount k.primary) (h : k.WorkDone items) :
    Finishes s k (s.completeCmd k) := by
  obtain ⟨ho, hp⟩ | ⟨ho, hn, hsent⟩ | ⟨ho, hn⟩ := h
  · exact State.completeCmd_of_product ho hp
  · exact State.completeCmd_of_writeOut ho hi hn hsent
  · rw [hi, if_neg (by simp [ho])] at hn
    exact State.completeCmd_of_send ho hn

end Complete

section CommandComplete

variable {s : State} {c : CoreId} {serial : BitVec 32}

theorem execCommandComplete_of_none (h : s.cores.cmds.find? (fun k => k.core == c.val && k.serial % 2 ^ 32 == serial.toNat &&
    k.phase == .running) = none) : execCommandComplete c serial s = .next s := by
  refine State.ends_self ?_
  rw [h]
  split <;> rfl

/-- A running command without work leaves its queue and is counted, where its core has no ring. -/
theorem execCommandComplete_of_workDone (hc : s.power.clocksStopped = false) (hd : (s.core c).declared = true)
    (hr : (s.core c).Ringless) {k : Cmd}
    (hf : s.cores.cmds.find? (fun k => k.core == c.val && k.serial % 2 ^ 32 == serial.toNat && k.phase == .running) = some k)
    {items : Nat} (hi : items = if k.opcode = 0x21 ∧ woutIdle k.word k.primary = true then 0 else itemCount k.primary)
    (h : k.WorkDone items) : k.core = c.val ∧ ∃ t, execCommandComplete c serial s = .next t ∧ Totals (s.freed k) t := by
  have hcore : k.core = c.val := by
    have hk := List.find?_some hf
    simp only [Bool.and_eq_true, beq_iff_eq] at hk
    exact hk.1.1
  obtain ⟨d, status, cause, he, hdc, hds, hdu⟩ := State.completeCmd_of_workDone (s := s) hi h
  rw [← hcore, ← hdc] at hd hr
  obtain ⟨b, i, ht⟩ := State.finishCmd_of_ringless hr hd status cause
  have hfreed : s.freed d = s.freed k := by rw [State.freed, State.freed, hdc, hds, hdu]
  have hexec : execCommandComplete c serial s = s.ends (s.completeCmd k) := by simp only [execCommandComplete, hc, hf]; rfl
  rw [hexec, he, ht, hfreed]
  exact ⟨hcore, _, rfl, b, i, rfl⟩

/-- What the core and its queues are then: the command is gone, its unit's count has risen, and nothing else of the cores, of memory
or of the stash has changed (R173, R179). -/
theorem execCommandComplete_frees (hc : s.power.clocksStopped = false) (hd : (s.core c).declared = true)
    (hr : (s.core c).Ringless) (hw : fwf 0 (s.core c).completions = true) {k : Cmd}
    (hf : s.cores.cmds.find? (fun k => k.core == c.val && k.serial % 2 ^ 32 == serial.toNat && k.phase == .running) = some k)
    {items : Nat} (hi : items = if k.opcode = 0x21 ∧ woutIdle k.word k.primary = true then 0 else itemCount k.primary)
    (h : k.WorkDone items) : ∃ t, execCommandComplete c serial s = .next t ∧
      t.cores.cmds = s.cores.cmds.filter (fun x => !(x.core == c.val && x.serial == k.serial)) ∧
      fget 0 (t.core c).completions k.unit = (fget 0 (s.core c).completions k.unit + 1) % 2 ^ 32 ∧
      (∀ j, j ≠ k.unit → fget 0 (t.core c).completions j = fget 0 (s.core c).completions j) ∧
      (∀ j, j ≠ c.val → t.core j = s.core j) ∧ (t.core c).pc = (s.core c).pc ∧ (t.core c).regs = (s.core c).regs ∧
      t.mem = s.mem ∧ t.ctxs = s.ctxs ∧ t.clock = s.clock ∧ t.stash = s.stash := by
  obtain ⟨hcore, t, ht, b, i, rfl⟩ := execCommandComplete_of_workDone hc hd hr hf hi h
  have hself : (s.freed k).core c = (s.core c).completed k.unit := by
    rw [← hcore] at hd ⊢
    exact State.core_freed hd
  refine ⟨_, ht, ?_, ?_, fun j hj => ?_, fun j hj => ?_, (congrArg Core.pc hself :), (congrArg Core.regs hself :), rfl, rfl, rfl,
    rfl⟩
  · rw [← hcore]
    rfl
  · exact (congrArg (fun x => fget 0 (Core.completions x) k.unit) hself).trans (fget_fset_self hw _ _)
  · exact (congrArg (fun x => fget 0 (Core.completions x) j) hself).trans (fget_fset_ne _ _ _ hj)
  · exact State.core_setCore_ne s _ (hcore ▸ hj)

end CommandComplete

/-! ### COMPLETION_RECORD_WRITE (R185) -/

section RecordWrite

variable {s : State} {c : Nat}

theorem State.crosses_of_inLimits (h : InLimits s) : s.crosses = (0, s) := if_neg (by rw [h]; decide)

/-- A summary record frees its command's entry and counts it; any other leaves the queues. -/
theorem State.recordDone_spec (hd : (s.core c).declared = true) (serial unit : Nat) (summary : Bool) :
    ((s.recordDone c serial unit summary).core c).records = (s.core c).records ∧
    ((s.recordDone c serial unit summary).core c).producer = (s.core c).producer ∧
    (∀ j, j ≠ c → (s.recordDone c serial unit summary).core j = s.core j) ∧
    (s.recordDone c serial unit summary).cores.cmds =
      (if summary then s.cores.cmds.filter (fun x => !(x.core == c && x.serial == serial)) else s.cores.cmds) ∧
    s.recordDone c serial unit summary = { s with cores := (s.recordDone c serial unit summary).cores } := by
  cases summary with
  | false => exact ⟨rfl, rfl, fun _ _ => rfl, rfl, rfl⟩
  | true =>
    have hcore : (s.recordDone c serial unit true).core c = (s.core c).completed unit :=
      State.core_setCore_listed s c (Core.ne_reset_of_declared (x := (s.core c).completed unit) hd)
    exact ⟨(congrArg Core.records hcore :), (congrArg Core.producer hcore :), fun _ hj => State.core_setCore_ne s _ hj, rfl, rfl⟩

theorem State.writeRecord_of_full (h : s.ringFull c = true) : s.writeRecord c = s := by
  unfold State.writeRecord
  dsimp only
  split
  · rfl
  · rw [if_pos h]

theorem State.writeRecords_of_full (h : s.ringFull c = true) (n : Nat) : s.writeRecords c n = s := by
  induction n with
  | zero => rfl
  | succ n ih => rw [State.writeRecords, State.writeRecord_of_full h, ih]

theorem execCompletionRecordWrite_of_full {c : CoreId} (h : s.ringFull c = true) : execCompletionRecordWrite c s = .next s :=
  State.ends_self (State.writeRecords_of_full h _)

/-- The place of the next record in a core's ring. -/
def Core.recordPlace (x : Core) : Nat := x.ringBase + 64 + 64 * (x.producer % x.ringSize)

/-- The core's record once its record at the front is written. -/
def Core.advanced (x : Core) (rest : List (Nat × Nat × Bool × Bytes)) : Core :=
  { x with records := rest, producer := (x.producer + 1) % 2 ^ 64 }

/-- Writing a record where the ring has room: its bytes, then the header's producer word, then what it stands for. -/
theorem State.writeRecord_of_room {n unit : Nat} {summary : Bool} {bs : Bytes} {rest : List (Nat × Nat × Bool × Bytes)}
    (hrec : (s.core c).records = (n, unit, summary, bs) :: rest) (hfull : s.ringFull c = false) (hl : InLimits s) :
    s.writeRecord c = (((s.setCore c ((s.core c).advanced rest)).writeMem (s.core c).recordPlace bs 0xFF).poke64 (s.core c).ringBase
      (((s.core c).producer + 1) % 2 ^ 64)).recordDone c n unit summary := by
  unfold State.writeRecord
  simp only [hrec, State.crosses_of_inLimits hl, hfull, Bool.false_eq_true, if_false]
  rfl

/-- The core has one record waiting, its ring has room for it, and the ring lies in the SRAM tiers, whose words are sound. -/
structure RecordDue (s : State) (c : Nat) (n unit : Nat) (summary : Bool) (bs : Bytes) : Prop where
  declared : (s.core c).declared = true
  record : (s.core c).records = [(n, unit, summary, bs)]
  room : s.ringFull c = false
  length : bs.length = 64
  inLimits : InLimits s
  sound : Sound s
  cells : fwf 0 s.mem.cells = true
  aligned : (s.core c).ringBase % 64 = 0
  size : 1 ≤ (s.core c).ringSize
  sram : (s.core c).ringBase + 64 + 64 * (s.core c).ringSize ≤ sramEnd

section Due

variable {n unit : Nat} {summary : Bool} {bs : Bytes}

/-- A record's place lies behind the ring's header and inside the ring. -/
theorem RecordDue.place (h : RecordDue s c n unit summary bs) :
    (s.core c).ringBase + 64 ≤ (s.core c).recordPlace ∧ (s.core c).recordPlace + 64 ≤ sramEnd := by
  have hmod := Nat.mod_lt (s.core c).producer (show 0 < (s.core c).ringSize from h.size)
  have hend := h.sram
  unfold Core.recordPlace
  omega

/-- The write of a due record: two stores, and what the record stands for. -/
theorem State.writeRecord_of_due (h : RecordDue s c n unit summary bs) : ∃ u v,
    Stores (s.core c).recordPlace bs (s.setCore c ((s.core c).advanced [])) u ∧
    Stores (s.core c).ringBase (leBytes 8 (((s.core c).producer + 1) % 2 ^ 64)) u v ∧
    s.writeRecord c = v.recordDone c n unit summary := by
  obtain ⟨hlow, hhigh⟩ := h.place
  have hrecord := State.writeMem_sram (s := s.setCore c ((s.core c).advanced [])) h.sound h.cells (a := (s.core c).recordPlace)
    (data := bs) (by rw [h.length]; omega) 0xFF
  have hheader := State.writeMem_sram (hrecord.sound h.sound) hrecord.wf (a := (s.core c).ringBase)
    (data := leBytes 8 (((s.core c).producer + 1) % 2 ^ 64)) (by rw [leBytes_length]; omega) 0xFF
  exact ⟨_, _, hrecord, hheader, State.writeRecord_of_room h.record h.room h.inLimits⟩

/-- What memory holds once a due record is written: the record at its place, the producer word in the ring's header, and elsewhere
what it held. -/
theorem RecordDue.memory (h : RecordDue s c n unit summary bs) {u v t : State}
    (hu : Stores (s.core c).recordPlace bs (s.setCore c ((s.core c).advanced [])) u)
    (hv : Stores (s.core c).ringBase (leBytes 8 (((s.core c).producer + 1) % 2 ^ 64)) u v) (ht : t.mem = v.mem) :
    t.peek64 (s.core c).ringBase = ((s.core c).producer + 1) % 2 ^ 64 ∧
    (∀ j, j < 64 → t.loadByte ((s.core c).recordPlace + j) = bs.getD j 0) ∧
    ∀ x, canon x < deviceArea → x < (s.core c).ringBase ∨ (s.core c).ringBase + 8 ≤ x →
      x < (s.core c).recordPlace ∨ (s.core c).recordPlace + 64 ≤ x → t.loadByte x = s.loadByte x := by
  obtain ⟨hlow, hhigh⟩ := h.place
  have hlen := h.length
  have haligned := h.aligned
  have hbytes : ∀ x, canon x < deviceArea → t.loadByte x = v.loadByte x := fun x hx => State.loadByte_of_mem ht hx
  refine ⟨?_, fun j hj => ?_, fun x hx hheader hplace => ?_⟩
  · have hsound : Sound t := by
      rw [Sound, ht]
      exact hv.sound (hu.sound h.sound)
    rw [State.peek64_of_loads hsound (v := ((s.core c).producer + 1) % 2 ^ 64) (by omega) fun k hk => ?_, Nat.mod_mod]
    rw [hbytes _ (low_of_sram (by omega))]
    exact hv.loadByte (by rw [leBytes_length]; omega) (by rwa [leBytes_length])
  · have hx := low_of_sram (a := (s.core c).recordPlace + j) (by omega)
    rw [hbytes _ hx, hv.loadByte_of_other hx (by rw [leBytes_length]; omega)]
    exact hu.loadByte (by omega) (by omega)
  · rw [hbytes x hx, hv.loadByte_of_other hx (by rwa [leBytes_length]), hu.loadByte_of_other hx (by rwa [hlen]),
      State.loadByte_of_low _ hx, State.loadByte_of_low _ hx]
    rfl

/-- What the cores and their queues are once a due record is written. -/
theorem RecordDue.queues (h : RecordDue s c n unit summary bs) {u v : State}
    (hu : Stores (s.core c).recordPlace bs (s.setCore c ((s.core c).advanced [])) u)
    (hv : Stores (s.core c).ringBase (leBytes 8 (((s.core c).producer + 1) % 2 ^ 64)) u v) {t : State}
    (ht : t = v.recordDone c n unit summary) :
    (t.core c).records = [] ∧ (t.core c).producer = ((s.core c).producer + 1) % 2 ^ 64 ∧
      t.cores.cmds = (if summary then s.cores.cmds.filter (fun x => !(x.core == c && x.serial == n)) else s.cores.cmds) ∧
      (∀ j, j ≠ c → t.core j = s.core j) ∧ t.ctxs = s.ctxs ∧ t.clock = s.clock ∧ t.mem = v.mem ∧ t.dev = s.dev ∧
      t.pending = s.pending := by
  have hcore : v.core c = (s.core c).advanced [] ∧ (∀ j, j ≠ c → v.core j = s.core j) ∧ v.cores.cmds = s.cores.cmds ∧
      v.ctxs = s.ctxs ∧ v.clock = s.clock ∧ v.dev = s.dev ∧ v.pending = s.pending := by
    obtain ⟨⟨cells, r, rfl⟩, -, -, -⟩ := hu
    obtain ⟨⟨cells', r', rfl⟩, -, -, -⟩ := hv
    exact ⟨State.core_setCore_listed s c (Core.ne_reset_of_declared (x := (s.core c).advanced []) h.declared),
      fun j hj => State.core_setCore_ne s _ hj, rfl, rfl, rfl, rfl, rfl⟩
  obtain ⟨hself, hothers, hcmds, hctxs, hclock, hdev, hpending⟩ := hcore
  obtain ⟨hrecords, hproducer, hrest, hqueue, hframe⟩ :=
    State.recordDone_spec (s := v) (c := c) (by rw [hself]; exact h.declared) n unit summary
  rw [← ht] at hrecords hproducer hrest hqueue hframe
  refine ⟨hrecords.trans (by rw [hself]; rfl), hproducer.trans (by rw [hself]; rfl), hqueue.trans (by rw [hcmds]),
    fun j hj => (hrest j hj).trans (hothers j hj), ?_⟩
  rw [hframe]
  exact ⟨hctxs, hclock, rfl, hdev, hpending⟩

/-- COMPLETION_RECORD_WRITE with one due record writes that one. -/
theorem execCompletionRecordWrite_of_due {c : CoreId} (h : RecordDue s c n unit summary bs) :
    execCompletionRecordWrite c s = s.ends (s.writeRecord c) := by
  rw [execCompletionRecordWrite, h.record]
  rfl

end Due

end RecordWrite

/-- Settles O53: each item and each record is a store or a contribution that its own lemma describes, and a completed command is one
that has left its queue. -/
theorem unitsCarryAndCompleteCommands : Obligations.UnitsCarryAndCompleteCommands := by
  unfold Obligations.UnitsCarryAndCompleteCommands
  refine ⟨fun s v u c a row cause codes bs k r hclocks => ⟨execPassSwap_of_streaming hclocks, execPassSwap_of_idle, ?_,
    execWoutItem_of_none⟩, fun s c serial k n unit items summary bs hd => ⟨?_, execCommandComplete_of_none, ?_,
    execCompletionRecordWrite_of_full⟩⟩
  · intro hrun hidle hmask htrip hnext hpair hrow hsound hcodes hcounts hbs
    have hplain : PlainRow s c row := ⟨hmask, htrip, hrow, hsound⟩
    have hexec : exec (.woutItem u) s = s.ends (s.writeOut c) := execWoutItem_of_running hclocks hrun hidle hnext
    rw [hexec]
    rw [hcodes] at hbs ⊢
    refine ⟨fun hdest ⟨hmem, _⟩ hsnd _ ha hend => ?_, fun hdest => State.ends_writeOut_stash hplain hdest hpair,
      fun hdest => ⟨fun hnone => ?_, fun hsome hr => ?_⟩, fun hdest => ?_⟩
    · obtain ⟨hcells, -⟩ := memoryWf_iff.1 hmem
      exact State.ends_writeOut_memory hplain hdest hpair hsnd hcells ha hbs hend
    · rw [State.writeOut_waits hplain hdest (hbs ▸ hnone)]
      rfl
    · rw [State.writeOut_contributes hplain hdest hbs hsome (hcounts ▸ hr)]
      rfl
    · rw [State.writeOut_sends hplain hdest hbs, hcounts]
      rfl
  · intro hclocks hfind hi hdone hsize hrecords hcompletions
    exact execCommandComplete_frees hclocks hd ⟨hsize, hrecords⟩ hcompletions hfind hi hdone
  · intro hrecord hroom hlen ⟨hmem, _⟩ hsnd hlimits haligned hone hend
    obtain ⟨hcells, -⟩ := memoryWf_iff.1 hmem
    have hdue : RecordDue s c n unit summary bs := ⟨hd, hrecord, hroom, hlen, hlimits, hsnd, hcells, haligned, hone, hend⟩
    obtain ⟨u, v, hu, hv, hw⟩ := State.writeRecord_of_due hdue
    obtain ⟨hrecords, hproducer, hcmds, hothers, hctxs, hclock, hsame, hdev, hpending⟩ := hdue.queues hu hv hw
    obtain ⟨hpeek, hload, helse⟩ := hdue.memory hu hv hsame
    exact ⟨_, (execCompletionRecordWrite_of_due hdue).trans (State.ends_of_fixed hdev hpending), hrecords, hproducer, hpeek, hload,
      helse, hcmds, hothers, hctxs, hclock⟩

end Sys2Proof.Machine
end

section
/-!
SUPPORT. The slots and weight sets of the stash (R114, R125): what reading them back gives, what changes to one of them or to the
pins of several leave alone, what the stash controller's commands do (R119, R121, R128, R130), and the settlement of O54.
-/
namespace Sys2Proof.Machine

open Sys2Proof

/-! ### Listed entries of a canonical store -/

theorem fwfAbove_rising {α : Type} [DecidableEq α] {d : α} {b : Option Nat} {m : FMap α} (h : fwfAbove d b m = true) :
    (∀ x, b = some x → ∀ e ∈ m, x < e.1) ∧ m.Pairwise (fun e e' => e.1 < e'.1) := by
  induction m generalizing b with
  | nil => simp
  | cons e t ih =>
    obtain ⟨hb, -, ht⟩ := fwfAbove_cons.1 h
    obtain ⟨habove, hrising⟩ := ih ht
    refine ⟨fun x hx e' he' => ?_, List.pairwise_cons.2 ⟨habove e.1 rfl, hrising⟩⟩
    obtain rfl | he' := List.mem_cons.1 he'
    · exact hb x hx
    · exact (hb x hx).trans (habove _ rfl e' he')

/-- The keys of a canonical store rise. -/
theorem rising_of_fwf {α : Type} [DecidableEq α] {d : α} {m : FMap α} (h : fwf d m = true) :
    m.Pairwise (fun e e' => e.1 < e'.1) := (fwfAbove_rising h).2

theorem fget_of_mem {α : Type} (d : α) {m : FMap α} (h : m.Pairwise (fun e e' => e.1 < e'.1)) {k : Nat} {v : α}
    (hm : (k, v) ∈ m) : fget d m k = v := by
  induction m with
  | nil => cases hm
  | cons e t ih =>
    obtain ⟨hbelow, ht⟩ := List.pairwise_cons.1 h
    obtain rfl | hm := List.mem_cons.1 hm
    · exact if_pos rfl
    · exact (if_neg (Nat.ne_of_lt (hbelow _ hm))).trans (ih ht hm)

/-- What does not read as the default is listed. -/
theorem mem_of_fget_ne {α : Type} {d : α} {m : FMap α} {k : Nat} (h : fget d m k ≠ d) : (k, fget d m k) ∈ m := by
  induction m with
  | nil => exact absurd rfl h
  | cons e t ih =>
    obtain ⟨a, v⟩ := e
    unfold fget at h ⊢
    split
    · next ha => exact ha ▸ List.mem_cons_self
    · next ha => exact List.mem_cons_of_mem _ (ih (by rwa [if_neg ha] at h))

/-! ### Changes to one slot or one weight set -/

/-- From s to t the stash has changed in slot n alone, which is now x. -/
def OneSlot (n : Nat) (x : Slot) (s t : State) : Prop :=
  t.slot n = x ∧ (∀ k, k ≠ n → t.slot k = s.slot k) ∧ t.stash.sets = s.stash.sets

/-- From s to t the weight sets have changed in set n alone, which is now x, and the slots stand. -/
def OneSet (n : Nat) (x : WeightSet) (s t : State) : Prop :=
  t.wset n = x ∧ (∀ k, k ≠ n → t.wset k = s.wset k) ∧ t.stash.slots = s.stash.slots

theorem oneSlot_setSlot {s : State} (h : fwf Slot.reset s.stash.slots = true) (n : Nat) (x : Slot) :
    OneSlot n x s (s.setSlot n x) :=
  ⟨fget_fset_self h _ _, fun _ hk => fget_fset_ne _ _ _ hk, rfl⟩

theorem oneSet_setWset {s : State} (h : fwf WeightSet.reset s.stash.sets = true) (n : Nat) (x : WeightSet) :
    OneSet n x s (s.setWset n x) :=
  ⟨fget_fset_self h _ _, fun _ hk => fget_fset_ne _ _ _ hk, rfl⟩

/-! ### Pins of several buffers (R119, R121) -/

/-- The pins of one buffer become what g makes of them. -/
def State.repin (g : Nat → Nat) (s : State) (p : Nat × Nat) : State :=
  s.setWset p.1 ((s.wset p.1).setPins p.2 (g ((s.wset p.1).pinsOf p.2)))

section Repin

variable (g : Nat → Nat) {s : State} {l : List (Nat × Nat)}

theorem foldl_repin_frame (s : State) (l : List (Nat × Nat)) :
    ∃ sets, l.foldl (State.repin g) s = { s with stash := { s.stash with sets := sets } } := by
  induction l generalizing s with
  | nil => exact ⟨_, rfl⟩
  | cons p l ih =>
    obtain ⟨sets, h⟩ := ih (s.repin g p)
    exact ⟨sets, h⟩

theorem wset_foldl_repin_of_not_mem {k : Nat} (hk : ∀ p ∈ l, p.1 ≠ k) : (l.foldl (State.repin g) s).wset k = s.wset k :=
  List.foldlRecOn (motive := fun t => t.wset k = s.wset k) l (State.repin g) rfl fun _ ht p hp =>
    (fget_fset_ne _ _ _ (hk p hp).symm).trans ht

/-- Each buffer of a list of different sets is changed once. -/
theorem wset_foldl_repin_of_mem (hw : fwf WeightSet.reset s.stash.sets = true) (hl : l.Pairwise (fun p q => p.1 ≠ q.1))
    {k b : Nat} (hm : (k, b) ∈ l) : (l.foldl (State.repin g) s).wset k = (s.wset k).setPins b (g ((s.wset k).pinsOf b)) := by
  induction l generalizing s with
  | nil => cases hm
  | cons p l ih =>
    obtain ⟨hp, hl⟩ := List.pairwise_cons.1 hl
    rw [List.foldl_cons]
    obtain rfl | hm := List.mem_cons.1 hm
    · rw [wset_foldl_repin_of_not_mem g fun q hq => (hp q hq).symm]
      exact (oneSet_setWset hw _ _).1
    · have hother : (s.repin g p).wset k = s.wset k := fget_fset_ne _ _ _ (hp _ hm).symm
      rw [ih (fwf_fset hw _ _) hl hm, hother]

end Repin

/-- The current buffer of every updated weight set: what a grant pins (R119). -/
def State.currentBuffers (s : State) : List (Nat × Nat) :=
  s.stash.sets.filterMap (fun e => if e.2.updated then some (e.1, e.2.current) else none)

theorem State.mem_currentBuffers_of_updated {s : State} {k : Nat} (h : (s.wset k).updated = true) :
    (k, (s.wset k).current) ∈ s.currentBuffers := by
  have hne : s.wset k ≠ WeightSet.reset := by
    intro e
    rw [e] at h
    exact absurd h (by decide)
  exact List.mem_filterMap.2 ⟨_, mem_of_fget_ne hne, if_pos h⟩

section CurrentBuffers

variable {s : State} (hw : fwf WeightSet.reset s.stash.sets = true)
include hw

/-- No set is listed twice among the current buffers. -/
theorem State.currentBuffers_pairwise : s.currentBuffers.Pairwise (fun p q => p.1 ≠ q.1) := by
  refine List.Pairwise.filterMap _ (fun e e' hlt p hp q hq => ?_) (rising_of_fwf hw)
  simp only [Option.ite_none_right_eq_some, Option.some.injEq] at hp hq
  obtain ⟨-, rfl⟩ := hp
  obtain ⟨-, rfl⟩ := hq
  exact Nat.ne_of_lt hlt

theorem State.updated_of_mem_currentBuffers {p : Nat × Nat} (h : p ∈ s.currentBuffers) : (s.wset p.1).updated = true := by
  obtain ⟨e, he, hp⟩ := List.mem_filterMap.1 h
  simp only [Option.ite_none_right_eq_some, Option.some.injEq] at hp
  obtain ⟨hu, rfl⟩ := hp
  rwa [State.wset, fget_of_mem _ (rising_of_fwf hw) he]

end CurrentBuffers

/-! ### CLAIM_GRANT (R119) -/

section ClaimGrant

variable {s : State} {m : BitVec 32} {n v : Nat} {r : Option Nat}

/-- The slot a granted claim leaves: held, or, where its release was accepted before, about to be freed. -/
def State.grantedSlot (s : State) (m : Nat) (r : Option Nat) : Slot :=
  ⟨m, if r.isSome then 2 else 1, none, 0, s.currentBuffers, r.getD 0⟩

theorem execClaimGrant_of_grantable (hn : n = s.slotOf m.toNat) (h0 : s.stash.slotCount ≠ 0)
    (hc : (s.slot n).claim = some (m.toNat, v, r)) (hg : s.grantable v (s.slot n) = true) :
    execClaimGrant m s =
      s.ends ((s.currentBuffers.foldl (State.repin (· + 1)) s).setSlot n (s.grantedSlot m.toNat r)) := by
  subst hn
  simp only [execClaimGrant, h0, hc, hg, ne_eq, not_true_eq_false, decide_false, Bool.not_true, Bool.or_self, Bool.false_eq_true,
    if_false]
  rfl

theorem execClaimGrant_of_not_grantable (hn : n = s.slotOf m.toNat) (hc : (s.slot n).claim = some (m.toNat, v, r))
    (hg : s.grantable v (s.slot n) = false) : execClaimGrant m s = .next s := by
  subst hn
  refine State.ends_self ?_
  simp [hc, hg]

/-- A granted claim takes its slot and pins the current buffer of every updated set, once. -/
theorem execClaimGrant_grants (hn : n = s.slotOf m.toNat) (h0 : s.stash.slotCount ≠ 0)
    (hs : fwf Slot.reset s.stash.slots = true) (hw : fwf WeightSet.reset s.stash.sets = true)
    (hc : (s.slot n).claim = some (m.toNat, v, r)) (hg : s.grantable v (s.slot n) = true) :
    ∃ t, execClaimGrant m s = .next t ∧ t.slot n = s.grantedSlot m.toNat r ∧ (∀ k, k ≠ n → t.slot k = s.slot k) ∧
      (∀ k, (s.wset k).updated = true → t.wset k =
        (s.wset k).setPins (s.wset k).current ((s.wset k).pinsOf (s.wset k).current + 1)) ∧
      (∀ k, (s.wset k).updated = false → t.wset k = s.wset k) ∧ t = { s with stash := t.stash } := by
  have hpinned := fun k (hk : (s.wset k).updated = true) =>
    wset_foldl_repin_of_mem (· + 1) hw (State.currentBuffers_pairwise hw) (State.mem_currentBuffers_of_updated hk)
  have hother := fun k (hk : (s.wset k).updated = false) =>
    wset_foldl_repin_of_not_mem (· + 1) (s := s) (l := s.currentBuffers) (k := k) fun p hp e => by
      rw [← e, State.updated_of_mem_currentBuffers hw hp] at hk
      cases hk
  rw [execClaimGrant_of_grantable hn h0 hc hg]
  obtain ⟨sets, hframe⟩ := foldl_repin_frame (· + 1) s s.currentBuffers
  rw [hframe] at hpinned hother ⊢
  obtain ⟨hself, hslots, -⟩ := oneSlot_setSlot (s := { s with stash := { s.stash with sets := sets } }) hs n
    (s.grantedSlot m.toNat r)
  exact ⟨_, rfl, hself, hslots, hpinned, hother, rfl⟩

end ClaimGrant

/-! ### RELEASE_EFFECT (R121) -/

theorem State.releaseHeld_eq_false_iff {s : State} {m order : Nat} : s.releaseHeld m order = false ↔
    ∀ c ∈ s.cores.cmds, c.order < order → c.phase = .done ∨
      ((c.microBatch = m → c.namesStash = false) ∧ s.reaches c (s.heldAreas m) = false) := by
  simp [State.releaseHeld, Decidable.or_iff_not_imp_left]

section ReleaseEffect

variable {s : State} {m : BitVec 32} {n : Nat}

theorem execReleaseEffect_of_waiting (hn : n = s.slotOf m.toNat) (h : s.releaseHeld m.toNat (s.slot n).release = true) :
    execReleaseEffect m s = .next s := by
  subst hn
  refine State.ends_self ?_
  simp [h]

/-- A release with nothing to wait for frees its slot and takes its pins away. -/
theorem execReleaseEffect_frees (hn : n = s.slotOf m.toNat) (h0 : s.stash.slotCount ≠ 0)
    (hs : fwf Slot.reset s.stash.slots = true) (hstate : (s.slot n).state = 2) (howner : (s.slot n).owner = m.toNat)
    (h : s.releaseHeld m.toNat (s.slot n).release = false) :
    ∃ t, execReleaseEffect m s = .next t ∧ t.slot n = { s.slot n with state := 0, pins := [], release := 0 } ∧
      (∀ k, k ≠ n → t.slot k = s.slot k) ∧ t.stash.sets = ((s.slot n).pins.foldl (State.repin (· - 1)) s).stash.sets ∧
      t = { s with stash := t.stash } := by
  have hexec : execReleaseEffect m s = s.ends (((s.slot n).pins.foldl (State.repin (· - 1)) s).setSlot n
      { s.slot n with state := 0, pins := [], release := 0 }) := by
    subst hn
    simp only [execReleaseEffect, h0, hstate, howner, h, ne_eq, not_true_eq_false, decide_false, Bool.or_self,
      Bool.false_eq_true, if_false]
    rfl
  rw [hexec]
  obtain ⟨sets, hframe⟩ := foldl_repin_frame (· - 1) s (s.slot n).pins
  rw [hframe]
  obtain ⟨hself, hslots, -⟩ := oneSlot_setSlot (s := { s with stash := { s.stash with sets := sets } }) hs n
    { s.slot n with state := 0, pins := [], release := 0 }
  exact ⟨_, rfl, hself, hslots, rfl, rfl⟩

end ReleaseEffect

/-! ### OPEN_GRANT (R128) and PUBLISH_EFFECT (R130) -/

section Sets

variable {s : State} {w : BitVec 8}

/-- A pending open whose target has no pins is granted: its set changes. -/
theorem execOpenGrant_grants (hw : fwf WeightSet.reset s.stash.sets = true) (hopen : (s.wset w.toNat).openState = 1)
    (hpins : (s.wset w.toNat).pinsOf (s.wset w.toNat).target = 0) : ∃ t, execOpenGrant w s = .next t ∧
      OneSet w.toNat { s.wset w.toNat with openState := 2, storeFailed := false } s t ∧ t = { s with stash := t.stash } := by
  have hexec : execOpenGrant w s =
      s.ends (s.setWset w.toNat { s.wset w.toNat with openState := 2, storeFailed := false }) := by
    simp [execOpenGrant, hopen, hpins]
  exact ⟨_, hexec, oneSet_setWset hw _ _, rfl⟩

theorem execOpenGrant_of_not_ready
    (h : (s.wset w.toNat).openState ≠ 1 ∨ (s.wset w.toNat).pinsOf (s.wset w.toNat).target ≠ 0) :
    execOpenGrant w s = .next s :=
  State.ends_self (if_pos (by simpa using h))

theorem State.storesWait_eq_false_iff {w order : Nat} : s.storesWait w order = false ↔
    ∀ c ∈ s.cores.cmds, c.storesInto = some w → c.order < order → c.phase = .done := by
  simp [State.storesWait]

theorem State.publishReady_of_accepted {w order : Nat} (h : (s.wset w).publish = some order) :
    s.publishReady w = ((s.wset w).openState == 2 && !s.storesWait w order) := by
  simp [State.publishReady, h]

/-- A weight set after its publish: the open buffer is current, at the next version. -/
def WeightSet.published (x : WeightSet) : WeightSet :=
  { x with
    current := x.target, version := min (x.version + 1) (2 ^ 32 - 1), openState := 0, publish := none, tainted := x.storeFailed,
    storeFailed := false }

theorem execPublishEffect_of_ready {order : Nat} (hp : (s.wset w.toNat).publish = some order)
    (hr : s.publishReady w.toNat = true) : execPublishEffect w s =
      s.ends (if (s.wset w.toNat).storeFailed
        then ((s.setWset w.toNat (s.wset w.toNat).published).colophonFlag 21).colophonAdd 0x58 1
        else s.setWset w.toNat (s.wset w.toNat).published) := by
  simp only [execPublishEffect, hp, hr]
  rfl

theorem execPublishEffect_of_not_ready (hr : s.publishReady w.toNat = false) : execPublishEffect w s = .next s := by
  refine State.ends_self ?_
  rw [hr]
  split <;> rfl

/-- A publish that takes effect changes its set and, where a store into it failed, the colophon. -/
theorem execPublishEffect_publishes (hw : fwf WeightSet.reset s.stash.sets = true) {order : Nat}
    (hp : (s.wset w.toNat).publish = some order) (hr : s.publishReady w.toNat = true) :
    ∃ t, execPublishEffect w s = .next t ∧ OneSet w.toNat (s.wset w.toNat).published s t ∧ t.cores = s.cores ∧
      t.mem = s.mem ∧ ((s.wset w.toNat).storeFailed = false → t = { s with stash := t.stash }) := by
  rw [execPublishEffect_of_ready hp hr]
  have hset := oneSet_setWset hw w.toNat (s.wset w.toNat).published
  cases hf : (s.wset w.toNat).storeFailed with
  | false => exact ⟨_, rfl, hset, rfl, rfl, fun _ => rfl⟩
  | true =>
    obtain ⟨b, i, ht⟩ := ((Totals.refl (s.setWset w.toNat (s.wset w.toNat).published)).flag 21).add 0x58 1
    refine ⟨_, rfl, ?_⟩
    rw [if_pos rfl, ht]
    exact ⟨hset, rfl, rfl, fun hn => absurd hn (by decide)⟩

end Sets

/-- Settles O54: each command of the stash controller changes one slot or one set, and a grant or a release the pins beside it. -/
theorem theStashControllerGrants : Obligations.TheStashControllerGrants := by
  unfold Obligations.TheStashControllerGrants
  intro s m w n v order r hn h0 hs hw
  refine ⟨fun hc => ⟨fun hg => ?_, execClaimGrant_of_not_grantable hn hc⟩, fun hstate howner => ⟨fun hdone => ?_, ?_⟩,
    fun hopen hpins => ?_, execOpenGrant_of_not_ready, fun hp hopen hstores => ?_, fun h => ?_, fun hp h => ?_⟩
  · obtain ⟨t, ht, hself, hslots, hpinned, hother, hframe⟩ := execClaimGrant_grants hn h0 hs hw hc hg
    refine ⟨t, ht, congrArg Slot.owner hself, congrArg Slot.state hself, congrArg Slot.claim hself, congrArg Slot.release hself,
      hslots, fun k hk => ⟨?_, hpinned k hk⟩, hother, hframe⟩
    rw [hself]
    exact State.mem_currentBuffers_of_updated hk
  · obtain ⟨t, ht, hself, hslots, hsets, hframe⟩ :=
      execReleaseEffect_frees hn h0 hs hstate howner (State.releaseHeld_eq_false_iff.2 hdone)
    refine ⟨t, ht, hself, hslots, fun hpins => ?_, fun k b hpins => ?_, hframe⟩
    · rw [hsets, hpins]
      rfl
    · obtain ⟨hset, hothers, -⟩ := oneSet_setWset hw k ((s.wset k).setPins b ((s.wset k).pinsOf b - 1))
      have hrepinned : ∀ j, t.wset j = (s.repin (· - 1) (k, b)).wset j := fun j => by
        rw [State.wset, hsets, hpins]
        rfl
      exact ⟨(hrepinned k).trans hset, fun j hj => (hrepinned j).trans (hothers j hj)⟩
  · intro c hc horder hphase hheld
    refine execReleaseEffect_of_waiting hn (Bool.eq_true_of_not_eq_false fun hfree => ?_)
    obtain hdone | ⟨hnames, hreaches⟩ := State.releaseHeld_eq_false_iff.1 hfree c hc horder
    · exact hphase hdone
    · obtain ⟨hbatch, hstash⟩ | hreach := hheld
      · exact absurd (hnames hbatch) (by simp [hstash])
      · exact absurd hreaches (by simp [hreach])
  · obtain ⟨t, ht, ⟨hset, hothers, -⟩, hframe⟩ := execOpenGrant_grants hw hopen hpins
    exact ⟨t, ht, hset, hothers, hframe⟩
  · have hready : s.publishReady w.toNat = true := by
      rw [State.publishReady_of_accepted hp, hopen, State.storesWait_eq_false_iff.2 hstores]
      rfl
    obtain ⟨t, ht, ⟨hset, hothers, hslots⟩, hrest⟩ := execPublishEffect_publishes hw hp hready
    exact ⟨t, ht, hset, hothers, hslots, hrest⟩
  · refine execPublishEffect_of_not_ready ?_
    cases hp : (s.wset w.toNat).publish with
    | none => simp [State.publishReady, hp]
    | some o => simp [State.publishReady_of_accepted hp, h.resolve_left (by simp [hp])]
  · obtain ⟨c, hc, hinto, horder, hphase⟩ := h
    have hwait : s.storesWait w.toNat order = true := Bool.eq_true_of_not_eq_false fun hnone =>
      hphase (State.storesWait_eq_false_iff.1 hnone c hc hinto horder)
    refine execPublishEffect_of_not_ready ?_
    rw [State.publishReady_of_accepted hp, hwait, Bool.not_true, Bool.and_false]

end Sys2Proof.Machine
end

section
/-!
SUPPORT. What the records of a finished command leave alone (R184, R185): the stash, the contexts, the clock, every other core, and
of their own core all but the records and what they count.
-/
namespace Sys2Proof.Machine

open Sys2Proof

/-! ### The stash under stores to memory -/

theorem State.noteMirror_stash (s : State) (w : Nat) (data : Bytes) : (s.noteMirror w data).stash = s.stash := by
  unfold State.noteMirror
  split <;> rfl

theorem ReadsOnly.stash {s t : State} (h : ReadsOnly s t) : t.stash = s.stash := by
  obtain ⟨n, i, m, rfl⟩ := h
  rfl

theorem ReadsOnly.ctxs {s t : State} (h : ReadsOnly s t) : t.ctxs = s.ctxs := by
  obtain ⟨n, i, m, rfl⟩ := h
  rfl

theorem ReadsOnly.clock {s t : State} (h : ReadsOnly s t) : t.clock = s.clock := by
  obtain ⟨n, i, m, rfl⟩ := h
  rfl

theorem State.writeWord_stash (s : State) (w off : Nat) (data : Bytes) (unit : Nat) :
    (s.writeWord w off data unit).stash = s.stash := by
  have hx : (if storeOf (16 * w) = 2 then s.crosses else (0, s)).2.stash = s.stash := by
    split
    · exact s.crosses_readsOnly.stash
    · rfl
  unfold State.writeWord
  extract_lets x t r merged u
  have hu : u.stash = s.stash := (t.readWord_readsOnly w .unit unit).stash.trans hx
  split
  · exact hx
  · split
    · exact (State.noteMirror_stash _ _ _).trans hx
    · exact (State.noteMirror_stash _ _ _).trans hu

theorem State.writeWords_stash (s : State) (unit k w off : Nat) (data : Bytes) :
    (s.writeWords unit k w off data).stash = s.stash := by
  induction k generalizing s w off data with
  | zero => rfl
  | succ k ih => exact P_ite (P := fun v => v.stash = s.stash) rfl ((ih _ _ _ _).trans (s.writeWord_stash _ _ _ _))

theorem State.writeMem_stash (s : State) (a : Nat) (data : Bytes) (unit : Nat) : (s.writeMem a data unit).stash = s.stash :=
  s.writeWords_stash _ _ _ _ _

/-! ### Changes that records make -/

/-- Core x with other records waiting, another producer index and other counts of completions. -/
def Core.rerecorded (x : Core) (records : List (Nat × Nat × Bool × Bytes)) (producer : Nat) (completions : FMap Nat) : Core :=
  { x with records := records, producer := producer, completions := completions }

/-- From s to t, records of core c may have been made, stored and counted, and commands may have left their queues: a running core
differs in what counts records alone, and every other core, the stash, the contexts, the clock, the fixed values and the waiting
commands stand. -/
structure RecordsOnly (c : Nat) (s t : State) : Prop where
  self : (s.core c).run = .running → ∃ r p n, t.core c = (s.core c).rerecorded r p n
  others : ∀ j, j ≠ c → t.core j = s.core j
  cmds : ∀ k ∈ t.cores.cmds, k ∈ s.cores.cmds
  frame : t.stash = s.stash ∧ t.ctxs = s.ctxs ∧ t.clock = s.clock ∧ t.dev = s.dev ∧ t.pending = s.pending

theorem Core.ne_reset_of_running {x : Core} (h : x.run = .running) : x ≠ Core.reset := by
  rintro rfl
  exact absurd h (by decide)

namespace RecordsOnly

variable {c : Nat} {s t u : State}

theorem trans (h : RecordsOnly c s t) (k : RecordsOnly c t u) : RecordsOnly c s u where
  self hrun := by
    obtain ⟨r, p, n, ht⟩ := h.self hrun
    obtain ⟨r', p', n', hu⟩ := k.self ((congrArg Core.run ht).trans hrun)
    exact ⟨r', p', n', by rw [hu, ht]; rfl⟩
  others j hj := (k.others j hj).trans (h.others j hj)
  cmds x hx := h.cmds x (k.cmds x hx)
  frame := by
    obtain ⟨h1, h2, h3, h4, h5⟩ := h.frame
    obtain ⟨k1, k2, k3, k4, k5⟩ := k.frame
    exact ⟨k1.trans h1, k2.trans h2, k3.trans h3, k4.trans h4, k5.trans h5⟩

/-- What changes neither the cores nor the frame. -/
theorem of_cores (hc : t.cores = s.cores)
    (hf : t.stash = s.stash ∧ t.ctxs = s.ctxs ∧ t.clock = s.clock ∧ t.dev = s.dev ∧ t.pending = s.pending) :
    RecordsOnly c s t where
  self _ := ⟨_, _, _, by rw [State.core, hc]; rfl⟩
  others _ _ := by rw [State.core, hc, State.core]
  cmds x hx := by rwa [hc] at hx
  frame := hf

theorem refl (c : Nat) (s : State) : RecordsOnly c s s := of_cores rfl ⟨rfl, rfl, rfl, rfl, rfl⟩

theorem of_readsOnly (h : ReadsOnly s t) : RecordsOnly c s t := by
  obtain ⟨n, i, m, rfl⟩ := h
  exact of_cores rfl ⟨rfl, rfl, rfl, rfl, rfl⟩

theorem of_totals (h : Totals s t) : RecordsOnly c s t := by
  obtain ⟨b, i, rfl⟩ := h
  exact of_cores rfl ⟨rfl, rfl, rfl, rfl, rfl⟩

theorem writeMem (c : Nat) (s : State) (a : Nat) (data : Bytes) (unit : Nat) : RecordsOnly c s (s.writeMem a data unit) := by
  have hstash := s.writeMem_stash a data unit
  obtain ⟨⟨n, i, m, st, r, ht⟩, -⟩ := s.writeMem_storesOnly a data unit
  rw [ht] at hstash ⊢
  exact of_cores rfl ⟨hstash, rfl, rfl, rfl, rfl⟩

theorem setCore (c : Nat) (s : State) (r : List (Nat × Nat × Bool × Bytes)) (p : Nat) (n : FMap Nat) :
    RecordsOnly c s (s.setCore c ((s.core c).rerecorded r p n)) where
  self hrun := ⟨r, p, n, State.core_setCore_listed _ _ (Core.ne_reset_of_running hrun)⟩
  others _ hj := State.core_setCore_ne _ _ hj
  cmds _ hx := hx
  frame := ⟨rfl, rfl, rfl, rfl, rfl⟩

theorem dropCmd (c : Nat) (s : State) (core serial : Nat) : RecordsOnly c s (s.dropCmd core serial) where
  self _ := ⟨_, _, _, rfl⟩
  others _ _ := rfl
  cmds _ hx := List.mem_of_mem_filter hx
  frame := ⟨rfl, rfl, rfl, rfl, rfl⟩

theorem recordDone (c : Nat) (s : State) (serial unit : Nat) (summary : Bool) :
    RecordsOnly c s (s.recordDone c serial unit summary) :=
  P_ite ((setCore c s _ _ _).trans (dropCmd c _ _ _)) (refl c s)

/-- A write of a record, whatever becomes of it between the clock domains (R185, R361). -/
theorem writeRecord (c : Nat) (s : State) : RecordsOnly c s (s.writeRecord c) := by
  unfold State.writeRecord
  dsimp only
  have hcross : RecordsOnly c s s.crosses.2 := of_readsOnly s.crosses_readsOnly
  have hput : ∀ r p, RecordsOnly c s (s.crosses.2.setCore c { s.core c with records := r, producer := p }) := fun r p => by
    rw [← s.crosses_readsOnly.core c]
    exact hcross.trans (setCore c _ r p _)
  split
  · exact refl c s
  · refine P_ite (refl c s) (P_ite ((hput _ _).trans (recordDone c _ _ _ _)) ?_)
    exact (((hput _ _).trans (writeMem c _ _ _ _)).trans (writeMem c _ _ _ _)).trans (recordDone c _ _ _ _)

theorem writeRecords (c : Nat) (s : State) (n : Nat) : RecordsOnly c s (s.writeRecords c n) := by
  induction n generalizing s with
  | zero => exact refl c s
  | succ n ih => exact (writeRecord c s).trans (ih _)

theorem pushRecord (c : Nat) (s : State) (serial unit : Nat) (summary : Bool) (bytes : Bytes) :
    RecordsOnly c s (s.pushRecord c serial unit summary bytes) :=
  P_ite (recordDone c s serial unit summary) (setCore c s _ _ _)

end RecordsOnly

/-- A command's finished form takes its place in the queue; the rest of finishing it is records and totals (R184, R205). -/
theorem State.finishCmd_recordsOnly (s : State) (k : Cmd) (status cause : Nat) : ∃ status' cause',
    RecordsOnly k.core (s.setCmd { k with phase := .done, status := status', cause := cause' }) (s.finishCmd k status cause) := by
  unfold State.finishCmd
  extract_lets failed st ca squashed n skipped audited missed done s0 s1 s2 s3 t1 t2 t3 t4 t5 t6 t7 t8 t9 t10
  have hitems : RecordsOnly k.core s0 s1 := List.foldlRecOn (motive := RecordsOnly k.core s0) failed _ (.refl _ _)
    fun t ht f _ => ht.trans (.pushRecord _ _ _ _ _ _)
  have hwritten : RecordsOnly k.core s0 s3 := (hitems.trans (.pushRecord _ _ _ _ _ _)).trans (.writeRecords _ _ _)
  have ht8 : Totals s3 t8 :=
    ((((((((Totals.refl s3).add _ _).add _ _).add _ _).add _ _).add _ _).add _ _).add _ _).add _ _
  have ht9 : Totals s3 t9 := ((ht8.count _ _ _).count _ _ _).count _ _ _
  have ht10 : Totals s3 t10 := P_ite (ht9.flag 23) ht9
  exact ⟨st, ca, hwritten.trans (.of_totals (P_ite (((ht10.flag 22).add _ _).count _ _ _) ht10))⟩

end Sys2Proof.Machine
end

section
/-!
SUPPORT. The entry of a command into its queue (R139, R142, R177), the record of a stash command that is first in it (R119, R121,
R128, R130, R164), and the settlement of O51.
-/
namespace Sys2Proof.Machine

open Sys2Proof

/-! ### Entry into a queue (R142) -/

/-- A command as it enters its queue: with its core's serial, the synchronization points before it and its order. -/
def State.numbered (s : State) (k : Cmd) : Cmd :=
  { k with serial := (s.core k.core).serial, behind := (s.core k.core).syncIssued, order := s.cores.nextOrder }

/-- The state in which command k has entered its queue. -/
def State.entered (s : State) (k : Cmd) : State :=
  { s with cores := { s.cores with cmds := s.cores.cmds ++ [s.numbered k], nextOrder := s.cores.nextOrder + 1 } }.setCore k.core
    { s.core k.core with serial := (s.core k.core).serial + 1 }

/-- Command k is first in its queue: none of its core and unit waits to start (R164). -/
def State.firstInQueue (s : State) (k : Cmd) : Bool :=
  !s.cores.cmds.any (fun x => x.core == k.core && x.unit == k.unit && x.unstarted)

theorem State.accept_of_not_send {s : State} {k : Cmd} (h : isSend k.opcode k.word = false) : s.accept k =
    if k.opcode / 16 = 4 && s.firstInQueue k && !(s.entered k).heldCmd (s.numbered k)
      then (s.entered k).recordStash (s.numbered k) else s.entered k := by
  simp only [State.accept, h]
  rfl

section Entered

variable {s : State} {k : Cmd}

theorem State.core_entered (hrun : (s.core k.core).run = .running) :
    (s.entered k).core k.core = { s.core k.core with serial := (s.core k.core).serial + 1 } :=
  State.core_setCore_listed _ _ (Core.ne_reset_of_running (x := { s.core k.core with serial := _ }) hrun)

theorem State.core_entered_ne {j : Nat} (h : j ≠ k.core) : (s.entered k).core j = s.core j := State.core_setCore_ne _ _ h

/-- A command that enters is run ahead where a synchronization point of its core is open (R177). -/
theorem State.heldCmd_entered (hrun : (s.core k.core).run = .running) :
    (s.entered k).heldCmd (s.numbered k) = (s.core k.core).runAhead := by
  unfold State.heldCmd
  rw [show (s.numbered k).core = k.core from rfl, State.core_entered hrun]
  rfl

end Entered

/-! ### Going on behind an instruction (R177) -/

theorem State.core_advance {s : State} {c : Nat} (hrun : (s.core c).run = .running) (word next : Nat) :
    ∃ r, (s.advance c word next none).core c = { s.core c with
      pc := next, refs := r
      window := if (s.core c).window.isEmpty then []
        else (s.core c).window ++ [⟨(s.core c).pc, none, (s.core c).serial, word⟩] } := by
  unfold State.advance
  simp only [Option.isNone_none, Bool.and_true, Option.isSome_none, Bool.false_eq_true, if_false]
  rw [State.core_setCore_listed]
  · exact ⟨_, rfl⟩
  · exact Core.ne_reset_of_running (x := Core.trimRefs _) hrun

theorem State.advance_onlyCore (s : State) (c word next : Nat) : OnlyCore c s (s.advance c word next none) := .setCore _ _ _

/-! ### The record of a stash command (R119, R121, R128, R130) -/

/-- On a stash st, to record command k is to make the stash st' and to finish the command. -/
def RecordsInto (k : Cmd) (st st' : Stash) : Prop :=
  ∀ s : State, s.stash = st → s.recordStash k = { s with stash := st' }.finishCmd k 0 0

theorem OneSlot.of_stash {n : Nat} {x : Slot} {s t u : State} (h : OneSlot n x s t) (hu : u.stash = t.stash) : OneSlot n x s u := by
  unfold OneSlot State.slot at h ⊢
  rwa [hu]

theorem OneSet.of_stash {n : Nat} {x : WeightSet} {s t u : State} (h : OneSet n x s t) (hu : u.stash = t.stash) :
    OneSet n x s u := by
  unfold OneSet State.wset at h ⊢
  rwa [hu]

section RecordStash

variable {s t : State} {k : Cmd}

section Congr

variable (h : t.stash = s.stash) (n : Nat)
include h

theorem State.slotOf_congr : t.slotOf n = s.slotOf n := by rw [State.slotOf, h, State.slotOf]

theorem State.slot_congr : t.slot n = s.slot n := by rw [State.slot, h, State.slot]

theorem State.wset_congr : t.wset n = s.wset n := by rw [State.wset, h, State.wset]

theorem State.setSlot_congr (x : Slot) : t.setSlot n x = { t with stash := (s.setSlot n x).stash } := by
  rw [State.setSlot, h, State.setSlot]

theorem State.setWset_congr (x : WeightSet) : t.setWset n x = { t with stash := (s.setWset n x).stash } := by
  rw [State.setWset, h, State.setWset]

end Congr

theorem recordsInto_claim (ho : k.opcode = 0x40) (hs : fwf Slot.reset s.stash.slots = true) :
    ∃ u, RecordsInto k s.stash u.stash ∧ OneSlot (s.slotOf k.microBatch)
      { s.slot (s.slotOf k.microBatch) with claim := some (k.microBatch, k.values.headD 0, none) } s u :=
  ⟨_, fun t ht => by simp only [State.recordStash, ho, State.slotOf_congr ht, State.slot_congr ht, State.setSlot_congr ht],
    oneSlot_setSlot hs _ _⟩

/-- A slot once a release of micro-batch m with an order is recorded: at the slot where its claim is granted, else at the claim that
waits. -/
def Slot.releasing (x : Slot) (m order : Nat) : Slot :=
  if x.state = 1 ∧ x.owner = m then { x with state := 2, release := order }
  else { x with claim := x.claim.map (fun q => (q.1, q.2.1, some order)) }

theorem recordsInto_rel (ho : k.opcode = 0x41) (hs : fwf Slot.reset s.stash.slots = true) :
    ∃ u, RecordsInto k s.stash u.stash ∧ OneSlot (s.slotOf k.microBatch)
      ((s.slot (s.slotOf k.microBatch)).releasing k.microBatch k.order) s u := by
  unfold RecordsInto Slot.releasing
  by_cases hheld : (s.slot (s.slotOf k.microBatch)).state = 1 ∧ (s.slot (s.slotOf k.microBatch)).owner = k.microBatch
  · rw [if_pos hheld]
    refine ⟨_, fun t ht => ?_, oneSlot_setSlot hs _ _⟩
    simp [State.recordStash, ho, State.slotOf_congr ht, State.slot_congr ht, State.setSlot_congr ht, hheld]
  · rw [if_neg hheld]
    cases hclaim : (s.slot (s.slotOf k.microBatch)).claim with
    | none =>
      refine ⟨s, fun t ht => ?_, by rw [Option.map_none, ← hclaim], fun _ _ => rfl, rfl⟩
      simp [State.recordStash, ho, State.slotOf_congr ht, State.slot_congr ht, hheld, hclaim, ← ht]
    | some q =>
      refine ⟨_, fun t ht => ?_, oneSlot_setSlot hs _ _⟩
      simp [State.recordStash, ho, State.slotOf_congr ht, State.slot_congr ht, State.setSlot_congr ht, hheld, hclaim]

theorem recordsInto_open (ho : k.opcode = 0x42) (hs : fwf WeightSet.reset s.stash.sets = true) :
    ∃ u, RecordsInto k s.stash u.stash ∧
      OneSet (bits k.word 95 88) { s.wset (bits k.word 95 88) with openState := 1 } s u :=
  ⟨_, fun t ht => by simp only [State.recordStash, ho, State.wset_congr ht, State.setWset_congr ht], oneSet_setWset hs _ _⟩

theorem recordsInto_pub (ho : k.opcode = 0x43) (hs : fwf WeightSet.reset s.stash.sets = true) :
    ∃ u, RecordsInto k s.stash u.stash ∧
      OneSet (bits k.word 95 88) { s.wset (bits k.word 95 88) with publish := some k.order } s u :=
  ⟨_, fun t ht => by simp only [State.recordStash, ho, State.wset_congr ht, State.setWset_congr ht], oneSet_setWset hs _ _⟩

end RecordStash

/-! ### The issue of a stash command (R139, R164) -/

/-- The state in which core c takes an instruction, f being the state once its word is read: the core holds the word's region. -/
def State.taking (f : State) (c : Nat) : State := f.setCore c (f.core c).holdRegion

section Takes

variable {s f : State} {c op w : Nat} (h : Takes s c op w f)
include h

theorem fetches_of_takes : s.fetches c = true := by
  obtain ⟨hf, -⟩ := h
  exact hf

theorem wOp_of_takes : wOp w = op := by
  obtain ⟨-, -, -, ho, -⟩ := h
  exact ho

theorem ReadsOnly.of_takes : ReadsOnly s f := by
  obtain ⟨-, -, hw, -⟩ := h
  exact .of_fetchWord hw

end Takes

theorem State.stalled_of_fetches {s : State} {c : Nat} (h : s.fetches c = true) : (s.core c).stalled = none := by
  simp only [State.fetches, Bool.and_eq_true, Option.isNone_iff_eq_none] at h
  obtain ⟨⟨⟨⟨⟨-, hstalled⟩, -⟩, -⟩, -⟩, -⟩ := h
  exact hstalled

theorem isSend_of_stash {opcode : Nat} (h : opcode / 16 = 4) (w : Nat) : isSend opcode w = false := by
  unfold isSend
  rw [beq_eq_false_iff_ne.2 (by omega), beq_eq_false_iff_ne.2 (by omega)]
  rfl

/-- What the four stash commands share at their issue: core c takes the instruction word w, whose opcode is op; its header is h, its
descriptor d and its values vs; it passes its checks and its queue has room; and `first` says whether it is first in its queue and
not run ahead. -/
structure StashIssue (s f : State) (c : CoreId) (w op d : Nat) (h : Header) (vs : List Nat) (first : Bool)
    (values : Core → Nat → List Nat) (check : State → Nat → Header → Nat → Nat → List Nat → Option Halt) : Prop where
  takes : Takes s c op w f
  stash : op / 16 = 4
  header : h = header (s.core c) w
  desc : d = fget 0 (s.core c).descs h.desc
  room : (s.queueOf c h.unit).length < 64
  first_eq : first = (!(s.cores.cmds.any (fun k => k.core == c.val && k.unit == h.unit && k.unstarted)) &&
    decide ((s.core c).syncIssued ≤ (s.core c).syncDone))
  reads : ∀ r, values { s.core c with refs := r } w = vs
  checked : ∀ x, check (f.setCore c x) w h d 0 vs = none

/-- A command instruction without auxiliary descriptor is issued from the state in which its core takes it. -/
theorem State.onCommand_of_taken {s f : State} {c : CoreId} {w op : Nat} (h : Takes s c op w f)
    (values : Core → Nat → List Nat) (check : State → Nat → Header → Nat → Nat → List Nat → Option Halt) :
    s.onCommand c op values check (fun _ => none) =
      (f.taking c).issue c w (header ((f.taking c).core c) w)
        (fget 0 ((f.taking c).core c).descs (header ((f.taking c).core c) w).desc) 0 (values ((f.taking c).core c) w)
        (check (f.taking c) w (header ((f.taking c).core c) w)
          (fget 0 ((f.taking c).core c).descs (header ((f.taking c).core c) w).desc) 0 (values ((f.taking c).core c) w)) := by
  obtain ⟨hf, hr, hw, ho, -⟩ := h
  exact State.onInstr_of_fetched hf hr hw ho rfl _

theorem State.issue_of_checked {s : State} {c w : Nat} {h : Header} (hroom : (s.queueOf c h.unit).length < 64) (d a : Nat)
    (vs : List Nat) : s.issue c w h d a vs none = (s.accept (Cmd.make c w h d a vs)).advance c w (s.nextPc c) none := by
  simp [State.issue, State.orHalt, hroom]

namespace StashIssue

variable {s f : State} {c : CoreId} {w op d : Nat} {h : Header} {vs : List Nat} {first : Bool}
  {values : Core → Nat → List Nat} {check : State → Nat → Header → Nat → Nat → List Nat → Option Halt}
  (i : StashIssue s f c w op d h vs first values check)
include i

theorem readsOnly : ReadsOnly s f := .of_takes i.takes

theorem running : (s.core c).run = .running := State.run_of_fetches (fetches_of_takes i.takes)

theorem core_taking : ∃ r, (f.taking c).core c = { s.core c with refs := r } :=
  State.core_setCore_holdRegion (fetches_of_takes i.takes) i.readsOnly

theorem running_taking : ((f.taking c).core c).run = .running := by
  obtain ⟨r, hg⟩ := i.core_taking
  rw [hg]
  exact i.running

/-- The command enters its queue, and the core goes on. -/
theorem onCommand_eq : s.onCommand c op values check (fun _ => none) =
    ((f.taking c).accept (Cmd.make c w h d 0 vs)).advance c w ((s.core c).pc + 1) none := by
  obtain ⟨r, hg⟩ := i.core_taking
  have hroom : ((f.taking c).queueOf c h.unit).length < 64 := by
    have := i.room
    rwa [State.queueOf, ← i.readsOnly.cores] at this
  have hpc : ((f.taking c).core c).pc = (s.core c).pc := by rw [hg]
  have hdesc : fget 0 ((f.taking c).core c).descs h.desc = d := by
    rw [hg]
    exact i.desc.symm
  have hheader : Machine.header ((f.taking c).core c) w = h := by
    rw [hg]
    exact i.header.symm
  have hvalues : values ((f.taking c).core c) w = vs := by
    rw [hg]
    exact i.reads r
  have hcheck : check (f.taking c) w h d 0 vs = none := i.checked _
  rw [State.onCommand_of_taken i.takes, hheader, hdesc, hvalues, hcheck, State.issue_of_checked hroom, State.nextPc, hpc]

/-- As the command enters, it is numbered as it would have been before the fetch. -/
theorem numbered_taking : (f.taking c).numbered (Cmd.make c w h d 0 vs) = s.numbered (Cmd.make c w h d 0 vs) := by
  obtain ⟨r, hg⟩ := i.core_taking
  have hcore : (Cmd.make c w h d 0 vs).core = c := rfl
  have horder : (f.taking c).cores.nextOrder = s.cores.nextOrder := (congrArg Cores.nextOrder i.readsOnly.cores :)
  simp only [State.numbered, horder, hcore, hg]

/-- A stash command is recorded as it enters exactly where it is first in its queue and not run ahead (R164). -/
theorem accept_eq : (f.taking c).accept (Cmd.make c w h d 0 vs) =
    if first then ((f.taking c).entered (Cmd.make c w h d 0 vs)).recordStash (s.numbered (Cmd.make c w h d 0 vs))
      else (f.taking c).entered (Cmd.make c w h d 0 vs) := by
  obtain ⟨r, hg⟩ := i.core_taking
  have hop : (Cmd.make c w h d 0 vs).opcode / 16 = 4 := by
    rw [← i.stash, ← wOp_of_takes i.takes]
    rfl
  have hheld : (!((f.taking c).core (Cmd.make c w h d 0 vs).core).runAhead) =
      decide ((s.core c).syncIssued ≤ (s.core c).syncDone) := by
    rw [show (Cmd.make c w h d 0 vs).core = c from rfl, hg, Core.runAhead, ← decide_not]
    exact decide_eq_decide.2 Nat.not_lt
  have hfirst : (f.taking c).firstInQueue (Cmd.make c w h d 0 vs) =
      !(s.cores.cmds.any (fun k => k.core == c.val && k.unit == h.unit && k.unstarted)) := by
    rw [← i.readsOnly.cores]
    rfl
  rw [State.accept_of_not_send (isSend_of_stash hop _), State.heldCmd_entered i.running_taking, i.numbered_taking, hfirst, hheld,
    decide_eq_true hop, Bool.true_and, ← i.first_eq]

/-- The core as the command has entered: it has read its region and numbers its next command. -/
theorem core_entered : ∃ r, ((f.taking c).entered (Cmd.make c w h d 0 vs)).core c =
    { s.core c with refs := r, serial := (s.core c).serial + 1 } := by
  obtain ⟨r, hg⟩ := i.core_taking
  have he := State.core_entered (s := f.taking c) (k := Cmd.make c w h d 0 vs) i.running_taking
  exact ⟨r, he.trans (by rw [show (Cmd.make c w h d 0 vs).core = c from rfl, hg])⟩

theorem core_entered_ne {j : Nat} (hj : j ≠ c.val) : ((f.taking c).entered (Cmd.make c w h d 0 vs)).core j = s.core j :=
  (State.core_entered_ne (k := Cmd.make c w h d 0 vs) hj).trans ((State.core_setCore_ne f _ hj).trans (i.readsOnly.core j))

/-- Where it is not recorded, the command waits in its queue (R164). -/
theorem waits (hfirst : first = false) : ∃ t, s.ends (s.onCommand c op values check (fun _ => none)) = .next t ∧
    Issues c w (Cmd.make c w h d 0 vs) f t := by
  rw [i.onCommand_eq, i.accept_eq, hfirst, if_neg (by decide)]
  obtain ⟨r, he⟩ := i.core_entered
  obtain ⟨ht, hothers⟩ := State.advance_onlyCore ((f.taking c).entered (Cmd.make c w h d 0 vs)) c w ((s.core c).pc + 1)
  obtain ⟨r', hself⟩ := State.core_advance (s := (f.taking c).entered (Cmd.make c w h d 0 vs)) (c := c)
    (by rw [he]; exact i.running) w ((s.core c).pc + 1)
  have hnumbered : (f.taking c).numbered (Cmd.make c w h d 0 vs) = f.numbered (Cmd.make c w h d 0 vs) := by
    rw [i.numbered_taking, State.numbered, State.numbered, i.readsOnly.core, i.readsOnly.cores]
  refine ⟨_, State.ends_of_fixed ((congrArg State.dev ht).trans i.readsOnly.dev)
    ((congrArg State.pending ht).trans i.readsOnly.pending), ?_, fun j hj => ?_, ?_⟩
  · refine ht.trans ?_
    unfold State.entered
    rw [hnumbered]
    rfl
  · rw [hothers j hj, i.core_entered_ne hj, i.readsOnly.core]
  · rw [hself, he, i.readsOnly.core, ← State.stalled_of_fetches (fetches_of_takes i.takes)]

/-- A command recorded at its issue is done, and its core goes on behind it; every other core, the contexts and the clock stand. -/
theorem records {st : Stash} (hfirst : first = true) (hrec : RecordsInto (s.numbered (Cmd.make c w h d 0 vs)) s.stash st) :
    ∃ t, s.ends (s.onCommand c op values check (fun _ => none)) = .next t ∧ t.stash = st ∧ Done c (s.core c).serial t ∧
      (t.core c).pc = (s.core c).pc + 1 ∧ (t.core c).serial = (s.core c).serial + 1 ∧
      (∀ j, j ≠ c.val → t.core j = s.core j) ∧ t.ctxs = s.ctxs ∧ t.clock = s.clock := by
  rw [i.onCommand_eq, i.accept_eq, hfirst, if_pos rfl,
    hrec ((f.taking c).entered (Cmd.make c w h d 0 vs)) i.readsOnly.stash]
  obtain ⟨r, he⟩ := i.core_entered
  obtain ⟨status, cause, hfinish⟩ := State.finishCmd_recordsOnly
    { (f.taking c).entered (Cmd.make c w h d 0 vs) with stash := st } (s.numbered (Cmd.make c w h d 0 vs)) 0 0
  generalize State.finishCmd _ _ 0 0 = v at hfinish ⊢
  obtain ⟨hstash, hctxs, hclock, hdev, hpending⟩ := hfinish.frame
  obtain ⟨a, p, n, hv⟩ := hfinish.self ((congrArg Core.run he).trans i.running)
  have hcore : v.core c =
      { s.core c with refs := r, serial := (s.core c).serial + 1, records := a, producer := p, completions := n } :=
    hv.trans (congrArg (Core.rerecorded · a p n) he)
  obtain ⟨ht, hothers⟩ := State.advance_onlyCore v c w ((s.core c).pc + 1)
  obtain ⟨r', hself⟩ := State.core_advance (s := v) (c := c) ((congrArg Core.run hcore).trans i.running) w ((s.core c).pc + 1)
  refine ⟨_, State.ends_of_fixed ((congrArg State.dev ht).trans (hdev.trans i.readsOnly.dev))
    ((congrArg State.pending ht).trans (hpending.trans i.readsOnly.pending)), (congrArg State.stash ht).trans hstash, ?_,
    congrArg Core.pc hself, (congrArg Core.serial hself).trans (congrArg Core.serial hcore), fun j hj => ?_, ?_, ?_⟩
  · intro k hk hkc hks
    have hk' := hfinish.cmds k (by rwa [ht] at hk)
    rw [State.eq_of_mem_setCmd hk' hkc hks]
  · rw [hothers j hj]
    exact (hfinish.others j hj).trans (i.core_entered_ne hj)
  · exact (congrArg State.ctxs ht).trans (hctxs.trans i.readsOnly.ctxs)
  · exact (congrArg State.clock ht).trans (hclock.trans i.readsOnly.clock)

end StashIssue

/-- Settles O51: what the four commands share is their issue; what each records is one slot or one set. -/
theorem stashCommandsAreRecorded : Obligations.StashCommandsAreRecorded := by
  unfold Obligations.StashCommandsAreRecorded
  intro s f c w d v m n h first hh hd hroom hm hn hs hw hfirst
  subst hm hn
  refine ⟨fun ht hv hc => ?_, fun ht hc => ?_, fun ht hv hc => ?_, fun ht hc => ?_⟩
  · have i : StashIssue s f c w 0x40 d h [v] first (fun x w => [fieldOrReg x w 95 64 63 62 58])
        (fun s w h _ _ v => s.claimChecks w h (v.headD 0)) :=
      ⟨ht, rfl, hh, hd, hroom, hfirst, fun _ => congrArg (fun x => [x]) hv.symm, fun _ => hc⟩
    obtain ⟨u, hrec, hone⟩ := recordsInto_claim (k := s.numbered (Cmd.make c w h d 0 [v])) (wOp_of_takes ht) hs
    refine ⟨fun hf => ?_, i.waits⟩
    obtain ⟨t, hexec, hst, hdone, hpc, hserial, hothers, hctxs, hclock⟩ := i.records hf hrec
    obtain ⟨hself, hslots, hsets⟩ := hone.of_stash hst
    exact ⟨t, hexec, hself, hslots, hsets, hdone, hpc, hserial, hothers, hctxs, hclock⟩
  · have i : StashIssue s f c w 0x41 d h [] first (fun _ _ => []) (fun s w h _ _ _ => s.relChecks w h) :=
      ⟨ht, rfl, hh, hd, hroom, hfirst, fun _ => rfl, fun _ => hc⟩
    obtain ⟨u, hrec, hone⟩ := recordsInto_rel (k := s.numbered (Cmd.make c w h d 0 [])) (wOp_of_takes ht) hs
    refine ⟨fun hf => ?_, i.waits⟩
    obtain ⟨t, hexec, hst, hdone, hpc, -, hothers, hctxs, hclock⟩ := i.records hf hrec
    obtain ⟨hself, hslots, hsets⟩ := hone.of_stash hst
    exact ⟨t, hexec, hself, hslots, hsets, hdone, hpc, hothers, hctxs, hclock⟩
  · have i : StashIssue s f c w 0x42 d h [v] first (fun x w => [fieldOrReg x w 87 56 55 54 50])
        (fun s w h _ _ v => s.openChecks w h (v.headD 0)) :=
      ⟨ht, rfl, hh, hd, hroom, hfirst, fun _ => congrArg (fun x => [x]) hv.symm, fun _ => hc⟩
    obtain ⟨u, hrec, hone⟩ := recordsInto_open (k := s.numbered (Cmd.make c w h d 0 [v])) (wOp_of_takes ht) hw
    refine ⟨fun hf => ?_, i.waits⟩
    obtain ⟨t, hexec, hst, hdone, hpc, -, hothers, hctxs, hclock⟩ := i.records hf hrec
    obtain ⟨hself, hsets, hslots⟩ := hone.of_stash hst
    exact ⟨t, hexec, hself, hsets, hslots, hdone, hpc, hothers, hctxs, hclock⟩
  · have i : StashIssue s f c w 0x43 d h [] first (fun _ _ => []) (fun s w h _ _ _ => s.pubChecks w h) :=
      ⟨ht, rfl, hh, hd, hroom, hfirst, fun _ => rfl, fun _ => hc⟩
    obtain ⟨u, hrec, hone⟩ := recordsInto_pub (k := s.numbered (Cmd.make c w h d 0 [])) (wOp_of_takes ht) hw
    refine ⟨fun hf => ?_, i.waits⟩
    obtain ⟨t, hexec, hst, hdone, hpc, -, hothers, hctxs, hclock⟩ := i.records hf hrec
    obtain ⟨hself, hsets, hslots⟩ := hone.of_stash hst
    exact ⟨t, hexec, hself, hsets, hslots, hdone, hpc, hothers, hctxs, hclock⟩

end Sys2Proof.Machine
end

section
/-!
SUPPORT. The scalar operations and conditions of Table 6.5 as those of 64-bit words, and the settlement of O41.
-/
namespace Sys2Proof.Machine

open Sys2Proof

/-! ### Two's complement (R13) -/

/-- The low bits of a word, read as two's complement, are the word's signed value. -/
theorem toSigned_toNat (a : BitVec 64) : toSigned 64 a.toNat = a.toInt := by
  have ha := a.isLt
  unfold toSigned
  rw [BitVec.toInt_eq_toNat_cond, Nat.mod_eq_of_lt ha]
  dsimp only
  split <;> split <;> omega

/-- The code of a signed value is the word of that value. -/
theorem ofSigned_eq_toNat (x : Int) : ofSigned 64 x = (BitVec.ofInt 64 x).toNat := by
  rw [BitVec.toNat_ofInt]
  rfl

theorem b2n_decide (p : Prop) [Decidable p] : b2n (decide p) = if p then 1 else 0 := by
  by_cases h : p <;> simp [b2n, h]

/-- A choice between words is the choice between their numbers. -/
theorem toNat_ite (p : Prop) [Decidable p] (a b : BitVec 64) : (if p then a else b).toNat = if p then a.toNat else b.toNat := by
  split <;> rfl

variable (a b : BitVec 64)

/-! ### Operations -/

/-- The difference d stands as a variable: beside it the kernel would unfold the subtraction and count to 2 ^ 64. -/
theorem scalarOp_sub_of_subMod {x y d : Nat} (h : subMod 64 x y = d) : scalarOp 0x01 x y = d := by
  delta scalarOp
  dsimp only
  rw [h]
  rfl

theorem scalarOp_sub : scalarOp 0x01 a.toNat b.toNat = (a - b).toNat := by
  have ha := a.isLt
  have hb := b.isLt
  refine scalarOp_sub_of_subMod ?_
  rw [BitVec.toNat_sub, subMod, Nat.mod_eq_of_lt ha, Nat.mod_eq_of_lt hb]
  congr 1
  omega

theorem scalarOp_add : scalarOp 0x00 a.toNat b.toNat = (a + b).toNat := (BitVec.toNat_add a b).symm

theorem scalarOp_mul : scalarOp 0x02 a.toNat b.toNat = (a * b).toNat := (BitVec.toNat_mul a b).symm

theorem scalarOp_shiftLeft : scalarOp 0x06 a.toNat b.toNat = (a <<< (b.toNat % 64)).toNat := by
  rw [BitVec.toNat_shiftLeft, Nat.shiftLeft_eq]
  rfl

theorem scalarOp_shiftRight : scalarOp 0x07 a.toNat b.toNat = (a >>> (b.toNat % 64)).toNat := by
  rw [BitVec.toNat_ushiftRight, Nat.shiftRight_eq_div_pow]
  rfl

theorem scalarOp_shiftRight_signed : scalarOp 0x08 a.toNat b.toNat = (a.sshiftRight (b.toNat % 64)).toNat := by
  rw [BitVec.sshiftRight, Int.shiftRight_eq_div_pow, ← ofSigned_eq_toNat, ← toSigned_toNat]
  rfl

theorem scalarOp_min_signed : scalarOp 0x09 a.toNat b.toNat = (if a.toInt ≤ b.toInt then a else b).toNat := by
  rw [toNat_ite, ← toSigned_toNat, ← toSigned_toNat]
  rfl

theorem scalarOp_max_signed : scalarOp 0x0A a.toNat b.toNat = (if a.toInt ≤ b.toInt then b else a).toNat := by
  rw [toNat_ite, ← toSigned_toNat, ← toSigned_toNat]
  rfl

theorem scalarOp_less_signed : scalarOp 0x0D a.toNat b.toNat = if a.toInt < b.toInt then 1 else 0 := by
  rw [← toSigned_toNat, ← toSigned_toNat]
  exact b2n_decide _

theorem scalarOp_less : scalarOp 0x0E a.toNat b.toNat = if a.toNat < b.toNat then 1 else 0 := b2n_decide _

/-! ### Conditions -/

theorem branchTaken_equal : branchTaken 0 a.toNat b.toNat = true ↔ a = b := by
  rw [BitVec.toNat_eq]
  exact beq_iff_eq

theorem branchTaken_unequal : branchTaken 1 a.toNat b.toNat = true ↔ a ≠ b := by
  rw [Ne, BitVec.toNat_eq]
  exact bne_iff_ne

theorem branchTaken_less_signed : branchTaken 2 a.toNat b.toNat = true ↔ a.toInt < b.toInt := by
  rw [← toSigned_toNat, ← toSigned_toNat]
  exact decide_eq_true_iff

theorem branchTaken_not_less_signed : branchTaken 3 a.toNat b.toNat = true ↔ b.toInt ≤ a.toInt := by
  rw [← toSigned_toNat, ← toSigned_toNat]
  exact decide_eq_true_iff

theorem branchTaken_less : branchTaken 4 a.toNat b.toNat = true ↔ a < b := decide_eq_true_iff

theorem branchTaken_not_less : branchTaken 5 a.toNat b.toNat = true ↔ b ≤ a := decide_eq_true_iff

/-- Settles O41: each row of Table 6.5 is the operation of 64-bit words of its name. -/
theorem scalarOperationsAreThoseOfTheTable : Obligations.ScalarOperationsAreThoseOfTheTable := by
  unfold Obligations.ScalarOperationsAreThoseOfTheTable
  intro a b
  exact ⟨scalarOp_add a b, scalarOp_sub a b, scalarOp_mul a b, (BitVec.toNat_and a b).symm, (BitVec.toNat_or a b).symm,
    (BitVec.toNat_xor a b).symm, scalarOp_shiftLeft a b, scalarOp_shiftRight a b, scalarOp_shiftRight_signed a b,
    scalarOp_min_signed a b, scalarOp_max_signed a b, rfl, rfl, scalarOp_less_signed a b, scalarOp_less a b,
    branchTaken_equal a b, branchTaken_unequal a b, branchTaken_less_signed a b, branchTaken_not_less_signed a b,
    branchTaken_less a b, branchTaken_not_less a b⟩

end Sys2Proof.Machine
end

section
/-!
SUPPORT. What an instruction that a core carries out itself makes of the core's record and of nothing else (R144, R145, R147, R177), and
the settlement of O42, O43 and O46.
-/
namespace Sys2Proof.Machine

open Sys2Proof

/-! ### A core amid its instruction -/

/-- In g the instruction has made x of the record of core c, but for the references, and nothing else has changed since f. -/
structure Amid (f : State) (c : Nat) (x : Core) (g : State) : Prop where
  only : OnlyCore c f g
  self : ∃ r, g.core c = { x with refs := r }

/-- Core x once it has executed the instruction word at its program counter: the window grows behind an open point or with the
instruction's own, and the core stands at next (R177). -/
def Core.past (x : Core) (word next : Nat) (point : Option SyncKind) : Core :=
  { x with
    window := if x.window.isEmpty && point.isNone then [] else x.window ++ [⟨x.pc, point, x.serial, word⟩]
    syncIssued := if point.isSome then x.syncIssued + 1 else x.syncIssued
    pc := next }

theorem Core.setReg_refs (x : Core) (refs : List Nat) (r v : Nat) :
    { x with refs := refs }.setReg r v = { x.setReg r v with refs := refs } := by
  unfold Core.setReg
  split <;> rfl

/-- A write of a register changes no other part of the core's record. -/
theorem Core.setReg_eq (x : Core) (r v : Nat) : x.setReg r v = { x with regs := (x.setReg r v).regs } := by
  unfold Core.setReg
  split <;> rfl

theorem Core.setReg_run (x : Core) (r v : Nat) : (x.setReg r v).run = x.run := by
  rw [Core.setReg_eq]

theorem Core.fwf_setReg {x : Core} (h : fwf 0 x.regs = true) (r v : Nat) : fwf 0 (x.setReg r v).regs = true := by
  unfold Core.setReg
  split
  · exact h
  · exact fwf_fset h _ _

theorem Core.reg_setReg_self {x : Core} (h : fwf 0 x.regs = true) {r : Nat} (hr : r ≠ 0) (v : Nat) :
    (x.setReg r v).reg r = v % 2 ^ 64 := by
  rw [Core.setReg, if_neg hr, Core.reg, if_neg hr]
  exact fget_fset_self h _ _

theorem Core.reg_setReg_ne (x : Core) {r k : Nat} (hk : k ≠ r) (v : Nat) : (x.setReg r v).reg k = x.reg k := by
  unfold Core.setReg
  split
  · rfl
  · unfold Core.reg
    split
    · rfl
    · exact fget_fset_ne 0 _ _ hk

theorem Core.reg_of_regs {x y : Core} (h : x.regs = y.regs) (k : Nat) : x.reg k = y.reg k := by
  rw [Core.reg, Core.reg, h]

namespace Amid

variable {f g : State} {c : Nat} {x : Core} (h : Amid f c x g)
include h

/-- What the record says, but for the references, is what x says. -/
theorem reads {α : Type} (read : Core → α) (hread : ∀ y r, read { y with refs := r } = read y) : read (g.core c) = read x := by
  obtain ⟨r, hr⟩ := h.self
  rw [hr, hread]

theorem reg (k : Nat) : (g.core c).reg k = x.reg k := h.reads (Core.reg · k) fun _ _ => rfl

theorem pc : (g.core c).pc = x.pc := h.reads Core.pc fun _ _ => rfl

theorem regs : (g.core c).regs = x.regs := h.reads Core.regs fun _ _ => rfl

theorem descs : (g.core c).descs = x.descs := h.reads Core.descs fun _ _ => rfl

theorem window : (g.core c).window = x.window := h.reads Core.window fun _ _ => rfl

theorem inRegions (a : Nat) : (g.core c).inRegions a = x.inRegions a := h.reads (Core.inRegions · a) fun _ _ => rfl

/-- The core's record is replaced by y, which is z but for its references. -/
theorem setCore {y z : Core} (hz : z.run = .running) (hy : ∃ r, y = { z with refs := r }) : Amid f c z (g.setCore c y) := by
  obtain ⟨r, rfl⟩ := hy
  exact ⟨h.only.trans (.setCore c g _), r, State.core_setCore_listed _ _ (Core.ne_reset_of_running (x := { z with refs := r }) hz)⟩

theorem setReg (hx : x.run = .running) (r v : Nat) : Amid f c (x.setReg r v) (g.setCore c ((g.core c).setReg r v)) := by
  obtain ⟨refs, hr⟩ := h.self
  exact h.setCore ((x.setReg_run r v).trans hx) ⟨refs, by rw [hr, Core.setReg_refs]⟩

theorem advance (hx : x.run = .running) (word next : Nat) (point : Option SyncKind) :
    Amid f c (x.past word next point) (g.advance c word next point) := by
  obtain ⟨refs, hr⟩ := h.self
  unfold State.advance
  rw [hr]
  exact h.setCore hx ⟨_, rfl⟩

/-- The commands and their order stand. -/
theorem cmds {s : State} (hrd : ReadsOnly s f) : g.cores.cmds = s.cores.cmds := by
  obtain ⟨he, -⟩ := h.only
  have hf : f.cores.cmds = s.cores.cmds := congrArg Cores.cmds hrd.cores
  rw [he]
  exact hf

theorem dev {s : State} (hrd : ReadsOnly s f) : g.dev = s.dev := by
  obtain ⟨he, -⟩ := h.only
  exact (congrArg State.dev he).trans hrd.dev

theorem clock {s : State} (hrd : ReadsOnly s f) : g.clock = s.clock := by
  obtain ⟨he, -⟩ := h.only
  exact (congrArg State.clock he).trans hrd.clock

end Amid

section Taken

variable {s f : State} {c : CoreId} {op w : Nat}

theorem Amid.taking (h : Takes s c op w f) : Amid f c (s.core c) (f.taking c) :=
  ⟨.setCore c f _, State.core_setCore_holdRegion (fetches_of_takes h) (.of_takes h)⟩

theorem running_of_takes (h : Takes s c op w f) : (s.core c).run = .running := State.run_of_fetches (fetches_of_takes h)

/-- A core that takes a word of the row's opcode carries out the row, unless it has to wait behind a point (R177). -/
theorem State.onInstr_of_taken (h : Takes s c op w f) {waits : Bool} (hn : (waits && (s.core c).runAhead) = false)
    (k : State → Nat → State) : s.onInstr c op waits k = k (f.taking c) w := by
  obtain ⟨hf, hr, hw, ho, -⟩ := h
  exact State.onInstr_of_fetched hf hr hw ho hn k

theorem controlReserved_of_takes (h : Takes s c op w f) : controlReserved w none = none := by
  obtain ⟨-, -, -, -, hb⟩ := h
  simp [controlReserved, reservedAt, lowestIn, hb, reservedHalt]

theorem controlReserved_of_value (h : Takes s c op w f) {b : Bool} (hb : b = false) (lo : Nat) :
    controlReserved w (reservedValue b lo) = none := by
  rw [hb]
  exact controlReserved_of_takes h

/-- What follows a checked condition that does not halt. -/
theorem State.orHalt_of_none {s : State} {h : Option Halt} (hh : h = none) (c w u m : Nat) (k : State → State) :
    s.orHalt c w u m h k = k s := by
  rw [hh]
  rfl

/-! ### How a control instruction ends -/

/-- Where the core's record is y gone on to next, and y is the core's own but for registers, descriptors and SIGs. -/
theorem Amid.goesOn {t : State} {y : Core} {next : Nat} (ht : Amid f c (y.past w next none) t)
    (hy : y = { s.core c with regs := y.regs, descs := y.descs, sigs := y.sigs }) :
    GoesOn c next w s t ∧ (t.core c).regs = y.regs ∧ (t.core c).descs = y.descs ∧ (t.core c).sigs = y.sigs := by
  obtain ⟨r, hr⟩ := ht.self
  refine ⟨?_, ?_, ?_, ?_⟩
  · unfold GoesOn
    rw [hr, hy]
    simp [Core.past]
  all_goals
    rw [hr]
    rfl

/-- An instruction that makes y of the core's registers, descriptors and SIGs and goes on at next. -/
theorem ends_of_advance (h : Takes s c op w f) {g : State} {y : Core} (hg : Amid f c y g)
    (hy : y = { s.core c with regs := y.regs, descs := y.descs, sigs := y.sigs }) (next : Nat) :
    ∃ t, s.ends (g.advance c w next none) = .next t ∧ OnlyCore c f t ∧ GoesOn c next w s t ∧ (t.core c).regs = y.regs ∧
      (t.core c).descs = y.descs ∧ (t.core c).sigs = y.sigs := by
  have hrun : y.run = .running := by
    rw [hy]
    exact running_of_takes h
  have ha := hg.advance hrun w next none
  exact ⟨_, State.ends_of_onlyCore (.of_takes h) ha.only, ha.only, ha.goesOn hy⟩

/-- An instruction that changes u beside the cores, and goes on at the next one. -/
theorem ends_of_effect (h : Takes s c op w f) {u : State} (hcores : u.cores = (f.taking c).cores) (hdev : u.dev = f.dev)
    (hpending : u.pending = f.pending) :
    ∃ t, s.ends (u.advance c w ((s.core c).pc + 1) none) = .next t ∧ GoesOn c ((s.core c).pc + 1) w s t ∧
      (t.core c).regs = (s.core c).regs ∧ (∀ k, k ≠ c.val → t.core k = s.core k) ∧ t = { u with cores := t.cores } := by
  have hrd : ReadsOnly s f := .of_takes h
  have hcore : ∀ k, u.core k = (f.taking c).core k := fun k => by rw [State.core, hcores, State.core]
  have hg : Amid u c (s.core c) u := ⟨⟨rfl, fun _ _ => rfl⟩, by rw [hcore]; exact (Amid.taking h).self⟩
  have ha := hg.advance (running_of_takes h) w ((s.core c).pc + 1) none
  obtain ⟨hgo, hregs, -⟩ := ha.goesOn (s := s) (w := w) rfl
  obtain ⟨-, hothers⟩ := ha.only
  refine ⟨_, State.ends_of_fixed (hdev.trans hrd.dev) (hpending.trans hrd.pending), hgo, hregs, fun k hk => ?_, rfl⟩
  rw [hothers k hk, hcore k]
  exact (State.core_setCore_ne f _ hk).trans (hrd.core k)

/-- An instruction that changes nothing but where the core goes on. -/
theorem ends_of_step (h : Takes s c op w f) {g : State} (hg : Amid f c (s.core c) g) (next : Nat) :
    ∃ t, s.ends (g.advance c w next none) = .next t ∧ OnlyCore c f t ∧ GoesOn c next w s t ∧ (t.core c).regs = (s.core c).regs ∧
      (t.core c).descs = (s.core c).descs ∧ (t.core c).sigs = (s.core c).sigs :=
  ends_of_advance h hg rfl next

/-- An instruction that writes a register and goes on at the next one (R144). -/
theorem ends_of_setRegGo (h : Takes s c op w f) (hregs : fwf 0 (s.core c).regs = true) {g : State} (hg : Amid f c (s.core c) g)
    (r : Nat) {v u : Nat} (hv : v % 2 ^ 64 = u) :
    ∃ t, s.ends (g.setRegGo c w r v) = .next t ∧ OnlyCore c f t ∧ GoesOn c ((s.core c).pc + 1) w s t ∧ RegSet c r u s t ∧
      (t.core c).descs = (s.core c).descs ∧ (t.core c).sigs = (s.core c).sigs := by
  have hx := Core.setReg_eq (s.core c) r v
  obtain ⟨t, he, hone, hgo, hr, hd, hs⟩ := ends_of_advance h (hg.setReg (running_of_takes h) r v)
    (hx.trans (by rw [hx])) ((s.core c).pc + 1)
  rw [hx] at hd hs
  refine ⟨t, ?_, hone, hgo, ⟨rfl, fun h0 => ?_, fun k hk => ?_⟩, hd, hs⟩
  · rwa [State.setRegGo, State.nextPc, hg.pc]
  · rw [Core.reg_of_regs hr, Core.reg_setReg_self hregs h0, hv]
  · rw [Core.reg_of_regs hr, Core.reg_setReg_ne _ hk]

/-- An instruction that becomes the newest point of the window (R177). -/
theorem ends_of_point (h : Takes s c op w f) {g : State} (hg : Amid f c (s.core c) g) (k : SyncKind) :
    ∃ t, s.ends (g.advance c w ((s.core c).pc + 1) (some k)) = .next t ∧ OnlyCore c f t ∧ Points c w k s t := by
  have ha := hg.advance (running_of_takes h) w ((s.core c).pc + 1) (some k)
  obtain ⟨r, hr⟩ := ha.self
  refine ⟨_, State.ends_of_onlyCore (.of_takes h) ha.only, ha.only, ?_⟩
  unfold Points
  rw [hr]
  simp [Core.past]

/-- A halt of the core amid its instruction, where no command waits (R181). -/
theorem ends_of_halt (h : Takes s c op w f) (hq : Quiet s) {g : State} {x : Core} (hg : Amid f c x g)
    (hpc : x.pc = (s.core c).pc) (hregs : x.regs = (s.core c).regs) {reason : Nat} (hr : reason < 256) (detail word mb extra : Nat) :
    ∃ t, s.ends (g.haltCore c ⟨reason, detail, 0xF⟩ word 0 mb extra) = .next t ∧ OnlyCore c f t ∧ Halts c reason detail s t := by
  have hrd : ReadsOnly s f := .of_takes h
  have hcmds : g.cores.cmds = [] := (hg.cmds hrd).trans hq.1
  obtain ⟨hone, hhalt⟩ := State.haltCore_halts (s := s) hcmds (hg.pc.trans hpc) (hg.regs.trans hregs) hr detail word mb extra
  exact ⟨_, State.ends_of_onlyCore hrd (hg.only.trans hone), hg.only.trans hone, hhalt⟩

/-! ### Register instructions (R144, R174) -/

theorem execNop_steps (h : Takes s c 0x00 w f) :
    ∃ t, execNop c s = .next t ∧ OnlyCore c f t ∧ GoesOn c ((s.core c).pc + 1) w s t ∧ (t.core c).regs = (s.core c).regs ∧
      (t.core c).descs = (s.core c).descs ∧ (t.core c).sigs = (s.core c).sigs := by
  have hg := Amid.taking h
  rw [execNop, State.onInstr_of_taken h rfl, State.orHalt_of_none (controlReserved_of_takes h), State.nextPc, hg.pc]
  exact ends_of_step h hg _

theorem execSop_sets (hregs : fwf 0 (s.core c).regs = true) (h : Takes s c 0x04 w f) (hop : wSub w % 128 ≤ 0x0E) :
    ∃ t, execSop c s = .next t ∧ OnlyCore c f t ∧ GoesOn c ((s.core c).pc + 1) w s t ∧
      RegSet c (wRd w) (scalarOp (wSub w % 128) ((s.core c).reg (wRa w))
        (if bit (wSub w) 7 then wImm w else (s.core c).reg (wRb w)) % 2 ^ 64) s t ∧
      (t.core c).descs = (s.core c).descs ∧ (t.core c).sigs = (s.core c).sigs := by
  have hg := Amid.taking h
  rw [execSop, State.onInstr_of_taken h rfl, State.orHalt_of_none (controlReserved_of_value h (by simpa using hop) 97)]
  dsimp only
  rw [hg.reg, hg.reg]
  exact ends_of_setRegGo h hregs hg _ rfl

theorem wImm_lt (w : Nat) : wImm w < 2 ^ 64 := bits_lt w 63 0

theorem execLdi_sets (hregs : fwf 0 (s.core c).regs = true) (h : Takes s c 0x05 w f) :
    ∃ t, execLdi c s = .next t ∧ OnlyCore c f t ∧ GoesOn c ((s.core c).pc + 1) w s t ∧ RegSet c (wRd w) (wImm w) s t ∧
      (t.core c).descs = (s.core c).descs ∧ (t.core c).sigs = (s.core c).sigs := by
  rw [execLdi, State.onInstr_of_taken h rfl, State.orHalt_of_none (controlReserved_of_takes h)]
  exact ends_of_setRegGo h hregs (.taking h) _ (Nat.mod_eq_of_lt (wImm_lt w))

/-- Which units exist is fixed at manufacture (R83). -/
theorem State.present_of_dev {s t : State} (h : t.dev = s.dev) (u : Nat) : t.present u = s.present u := by
  unfold State.present State.rectoMask State.versoMask
  rw [h]

theorem Amid.syncDone {g : State} (hrd : ReadsOnly s f) (hg : Amid f c (s.core c) g) (k : Nat) :
    (g.core k).syncDone = (s.core k).syncDone := by
  by_cases hk : k = c.val
  · rw [hk]
    exact hg.reads Core.syncDone fun _ _ => rfl
  · obtain ⟨-, hothers⟩ := hg.only
    rw [hothers k hk, hrd.core]

/-- The queue depth word says the same amid the instruction as before it. -/
theorem Amid.depthWord {g : State} (hrd : ReadsOnly s f) (hg : Amid f c (s.core c) g) (u : Nat) :
    g.depthWord c u = s.depthWord c u := by
  have hheld : g.heldCmd = s.heldCmd := funext fun k => by rw [State.heldCmd, hg.syncDone hrd, State.heldCmd]
  have hqueue : g.queueOf c u = s.queueOf c u := by rw [State.queueOf, hg.cmds hrd, State.queueOf]
  have hcompletions : (g.core c).completions = (s.core c).completions := hg.reads Core.completions fun _ _ => rfl
  unfold State.depthWord
  rw [State.present_of_dev (hg.dev hrd), hqueue, hheld, hcompletions]

theorem State.depthWord_mod (s : State) (c u : Nat) : s.depthWord c u % 2 ^ 64 =
    if s.present u = false then 0 else (64 * 2 ^ 56 + (s.queueOf c u).length * 2 ^ 48 +
      (64 - (s.queueOf c u).length) * 2 ^ 40 + ((s.queueOf c u).filter s.heldCmd).length * 2 ^ 32 +
      fget 0 (s.core c).completions u) % 2 ^ 64 := by
  cases h : s.present u <;> simp [State.depthWord, h]

theorem execRdq_sets (hregs : fwf 0 (s.core c).regs = true) (h : Takes s c 0x0A w f) {u : Nat}
    (hu : u = if bit (wAux w) 8 then (s.core c).reg (wRa w) % 256 else wAux w % 256) :
    ∃ t, execRdq c s = .next t ∧ OnlyCore c f t ∧ GoesOn c ((s.core c).pc + 1) w s t ∧
      RegSet c (wRd w) (s.depthWord c u % 2 ^ 64) s t ∧ (t.core c).descs = (s.core c).descs ∧ (t.core c).sigs = (s.core c).sigs := by
  have hg := Amid.taking h
  rw [execRdq, State.onInstr_of_taken h rfl, State.orHalt_of_none (controlReserved_of_takes h)]
  dsimp only
  rw [hg.reg, ← hu, hg.depthWord (.of_takes h)]
  exact ends_of_setRegGo h hregs hg _ rfl

/-! ### Jumps (R145, R189) -/

theorem ends_of_jump (h : Takes s c op w f) {g : State} (hg : Amid f c (s.core c) g) {a : Nat} (ha : (s.core c).inRegions a = true) :
    ∃ t, s.ends (g.jump c w a) = .next t ∧ OnlyCore c f t ∧ GoesOn c a w s t ∧ (t.core c).regs = (s.core c).regs ∧
      (t.core c).descs = (s.core c).descs ∧ (t.core c).sigs = (s.core c).sigs := by
  rw [State.jump, State.orHalt_of_none (by rw [hg.inRegions, ha]; rfl)]
  exact ends_of_step h hg a

theorem ends_of_jump_outside (h : Takes s c op w f) (hq : Quiet s) {g : State} (hg : Amid f c (s.core c) g) {a : Nat}
    (hlt : a < 2 ^ 64) (ha : (s.core c).inRegions a = false) :
    ∃ t, s.ends (g.jump c w a) = .next t ∧ OnlyCore c f t ∧ Halts c 0x03 a s t := by
  have hjump : g.jump c w a =
      g.haltCore c ⟨0x03, a % 2 ^ 64, 0xF⟩ w 0 0xFFFFFFFF (if (g.core c).window.isEmpty then 0 else 1) := by
    rw [State.jump, hg.inRegions, ha]
    rfl
  rw [hjump, Nat.mod_eq_of_lt hlt]
  exact ends_of_halt h hq hg rfl rfl (by decide) a _ _ _

theorem execJmp_eq (h : Takes s c 0x02 w f) {a : Nat} (ha : a = ((s.core c).reg (wRa w) + wImm w) % 2 ^ 64) :
    execJmp c s = s.ends ((f.taking c).jump c w a) := by
  rw [execJmp, State.onInstr_of_taken h rfl, State.orHalt_of_none (controlReserved_of_takes h), (Amid.taking h).reg, ha]
  rfl

theorem execBr_eq (h : Takes s c 0x03 w f) (hsub : wSub w ≤ 5) :
    execBr c s = s.ends (if branchTaken (wSub w) ((s.core c).reg (wRa w)) ((s.core c).reg (wRb w)) then (f.taking c).jump c w (wImm w)
      else (f.taking c).advance c w ((s.core c).pc + 1) none) := by
  have hg := Amid.taking h
  rw [execBr, State.onInstr_of_taken h rfl, State.orHalt_of_none (controlReserved_of_value h (by simpa using hsub) 97), hg.reg, hg.reg,
    State.nextPc, hg.pc]

/-! ### Points, SIGs and END (R147, R148, R177, R178, R180) -/

theorem execSync_points (h : Takes s c 0x0B w f) :
    ∃ t, execSync c s = .next t ∧ OnlyCore c f t ∧ Points c w (.sync (wAux w % 256)) s t := by
  have hg := Amid.taking h
  rw [execSync, State.onInstr_of_taken h rfl, State.orHalt_of_none (controlReserved_of_takes h), State.nextPc, hg.pc]
  exact ends_of_point h hg _

theorem execWaitc_points (h : Takes s c 0x0D w f) :
    ∃ t, execWaitc c s = .next t ∧ OnlyCore c f t ∧ Points c w (.waitc (wSub w) ((s.core c).reg (wRa w))) s t := by
  have hg := Amid.taking h
  rw [execWaitc, State.onInstr_of_taken h rfl, State.orHalt_of_none (controlReserved_of_takes h), State.nextPc, hg.pc, hg.reg]
  exact ends_of_point h hg _

/-- A WAITST enters the window and is judged at once where it is the oldest point (R180). -/
theorem execWaitst_eq (h : Takes s c 0x0E w f) {g : State}
    (hg : g = (f.taking c).advance c w ((s.core c).pc + 1)
      (some (.waitst ((s.core c).reg (wRa w)) (bit (wAux w) 16) (wAux w % 65536)))) :
    execWaitst c s = s.ends (if (s.core c).window.isEmpty then g.judge c else g) := by
  have ht := Amid.taking h
  rw [execWaitst, State.onInstr_of_taken h rfl, State.orHalt_of_none (controlReserved_of_takes h), hg, State.nextPc, ht.pc, ht.reg,
    ht.window]

/-- The oldest point's deadline has not passed. -/
theorem State.judge_of_not_late {s : State} {c : Nat} (h : ∀ e rest, (s.core c).window = e :: rest → s.late e.point = false) :
    s.judge c = s := by
  unfold State.judge
  dsimp only
  split
  · rfl
  · next e rest hw => rw [h e rest hw, if_neg (by decide)]

/-- The oldest point is a WAITST past its deadline: the core halts with 0x0B at the point (R180). -/
theorem State.judge_of_late {s : State} {c : Nat} {e : WinEntry} {rest : List WinEntry} (hw : (s.core c).window = e :: rest)
    (hl : s.late e.point = true) :
    s.judge c = (s.setCore c { s.core c with pc := e.pc }).haltCore c ⟨0x0B, s.clock.stitch % 2 ^ 64, 0xF⟩ e.word 0 0xFFFFFFFF 0 := by
  unfold State.judge
  dsimp only
  rw [hw]
  dsimp only
  rw [hl, if_pos rfl]

theorem State.late_waitst (s : State) (n : Nat) (deadline : Bool) (grace : Nat) :
    s.late (some (.waitst n deadline grace)) = (deadline && decide (n + grace < s.clock.stitch)) := by
  cases deadline <;> rfl

/-- A point that finds the window empty is its oldest one. -/
theorem window_of_first_point (h : Takes s c op w f) (hempty : (s.core c).window = []) (k : SyncKind) :
    (((f.taking c).advance c w ((s.core c).pc + 1) (some k)).core c).window = [⟨(s.core c).pc, some k, (s.core c).serial, w⟩] := by
  rw [((Amid.taking h).advance (running_of_takes h) w _ _).window]
  simp [Core.past, hempty]

/-- Whether a WAITST that has just become a point is late. -/
theorem late_of_advance (h : Takes s c op w f) (k : SyncKind) (n : Nat) (deadline : Bool) (grace : Nat) :
    ((f.taking c).advance c w ((s.core c).pc + 1) (some k)).late (some (.waitst n deadline grace)) =
      (deadline && decide (n + grace < s.clock.stitch)) := by
  rw [State.late_waitst, ((Amid.taking h).advance (running_of_takes h) w _ _).clock (.of_takes h)]

theorem execWaitst_points (h : Takes s c 0x0E w f)
    (hin : bit (wAux w) 16 = false ∨ (s.core c).window ≠ [] ∨ s.clock.stitch ≤ (s.core c).reg (wRa w) + wAux w % 65536) :
    ∃ t, execWaitst c s = .next t ∧ OnlyCore c f t ∧
      Points c w (.waitst ((s.core c).reg (wRa w)) (bit (wAux w) 16) (wAux w % 65536)) s t := by
  rw [execWaitst_eq h rfl]
  split
  · next hfirst =>
    have hempty : (s.core c).window = [] := List.isEmpty_iff.1 hfirst
    rw [State.judge_of_not_late]
    · exact ends_of_point h (.taking h) _
    · intro e rest hwin
      rw [window_of_first_point h hempty] at hwin
      obtain ⟨rfl, -⟩ := List.cons_eq_cons.1 hwin
      rw [late_of_advance h, Bool.and_eq_false_iff]
      refine hin.imp_right fun hle => decide_eq_false (Nat.not_lt.2 (hle.resolve_left (not_not_intro hempty)))
  · exact ends_of_point h (.taking h) _

theorem execWaitst_halts (h : Takes s c 0x0E w f) (hq : Quiet s) (hb : bit (wAux w) 16 = true) (hempty : (s.core c).window = [])
    (hlate : (s.core c).reg (wRa w) + wAux w % 65536 < s.clock.stitch) :
    ∃ t, execWaitst c s = .next t ∧ OnlyCore c f t ∧ Halts c 0x0B (s.clock.stitch % 2 ^ 64) s t := by
  have hrun := running_of_takes h
  have ha := (Amid.taking h).advance hrun w ((s.core c).pc + 1)
    (some (.waitst ((s.core c).reg (wRa w)) (bit (wAux w) 16) (wAux w % 65536)))
  obtain ⟨r, hr⟩ := ha.self
  have hback := ha.setCore (y := { (((f.taking c).advance c w ((s.core c).pc + 1)
      (some (.waitst ((s.core c).reg (wRa w)) (bit (wAux w) 16) (wAux w % 65536)))).core c) with pc := (s.core c).pc })
    (z := { (s.core c).past w ((s.core c).pc + 1) (some (.waitst ((s.core c).reg (wRa w)) (bit (wAux w) 16) (wAux w % 65536))) with
      pc := (s.core c).pc }) hrun ⟨r, by rw [hr]⟩
  rw [execWaitst_eq h rfl, if_pos (List.isEmpty_iff.2 hempty), State.judge_of_late (window_of_first_point h hempty _)
    (by rw [late_of_advance h, hb, decide_eq_true hlate]; rfl), ha.clock (.of_takes h)]
  exact ends_of_halt h hq hback rfl rfl (by decide) _ _ _ _

theorem execSig_records (h : Takes s c 0x0C w f) :
    ∃ t, execSig c s = .next t ∧ OnlyCore c f t ∧ GoesOn c ((s.core c).pc + 1) w s t ∧
      (t.core c).sigs = (s.core c).sigs ++ [⟨wSub w, (s.core c).serial, (s.core c).syncIssued⟩] ∧
      (t.core c).regs = (s.core c).regs ∧ (t.core c).descs = (s.core c).descs := by
  have hg := Amid.taking h
  obtain ⟨r, hr⟩ := hg.self
  have hset := hg.setCore (y := { (f.taking c).core c with
      sigs := ((f.taking c).core c).sigs ++ [⟨wSub w, ((f.taking c).core c).serial, ((f.taking c).core c).syncIssued⟩] })
    (z := { s.core c with sigs := (s.core c).sigs ++ [⟨wSub w, (s.core c).serial, (s.core c).syncIssued⟩] })
    (running_of_takes h) ⟨r, by rw [hr]⟩
  obtain ⟨t, he, hone, hgo, hregs, hdescs, hsigs⟩ := ends_of_advance h hset rfl ((s.core c).pc + 1)
  refine ⟨t, ?_, hone, hgo, hsigs, hregs, hdescs⟩
  rw [execSig, State.onInstr_of_taken h rfl, State.orHalt_of_none (controlReserved_of_takes h), State.nextPc, hg.pc]
  exact he

theorem execEndCore_ends (h : Takes s c 0x01 w f) (hempty : (s.core c).window = []) :
    ∃ t, execEndCore c s = .next t ∧ OnlyCore c f t ∧
      t.core c = { s.core c with run := .ended, refs := [], pc := (s.core c).pc + 1 } := by
  have hg := Amid.taking h
  obtain ⟨r, hr⟩ := hg.self
  have hbody : execEndCore c s =
      s.ends ((f.taking c).setCore c { s.core c with run := .ended, refs := [], pc := (s.core c).pc + 1 }) := by
    rw [execEndCore, State.onInstr_of_taken h rfl, State.orHalt_of_none (controlReserved_of_takes h)]
    dsimp only
    rw [hr]
    dsimp only
    rw [hempty]
    rfl
  have hone := hg.only.trans (.setCore c _ { s.core c with run := .ended, refs := [], pc := (s.core c).pc + 1 })
  refine ⟨_, hbody.trans (State.ends_of_onlyCore (.of_takes h) hone), hone, ?_⟩
  exact State.core_setCore_listed _ _ fun e => nomatch (congrArg Core.run e : CoreRun.ended = CoreRun.idle)

theorem execEndCore_points (h : Takes s c 0x01 w f) (hopen : (s.core c).window ≠ []) :
    ∃ t, execEndCore c s = .next t ∧ OnlyCore c f t ∧ Points c w .endPoint s t := by
  have hg := Amid.taking h
  rw [execEndCore, State.onInstr_of_taken h rfl, State.orHalt_of_none (controlReserved_of_takes h)]
  dsimp only
  rw [hg.window, if_neg (by rwa [List.isEmpty_iff]), State.nextPc, hg.pc]
  exact ends_of_point h hg _

end Taken

/-- Settles O42: each instruction writes its register amid the taking of its word, and the core goes on. -/
theorem registerInstructionsWriteTheirRegister : Obligations.RegisterInstructionsWriteTheirRegister := by
  unfold Obligations.RegisterInstructionsWriteTheirRegister
  refine fun s f c w hregs => ⟨?_, ?_, ?_, ?_⟩
  · exact execNop_steps
  · exact execSop_sets hregs
  · exact execLdi_sets hregs
  · intro u h hu
    rw [← State.depthWord_mod]
    exact execRdq_sets hregs h hu

/-- Settles O43: a jump goes on at its target or halts the core, as its target lies within the regions or not. -/
theorem jumpsStayInTheRegions : Obligations.JumpsStayInTheRegions := by
  unfold Obligations.JumpsStayInTheRegions
  refine fun s f c w x => ⟨fun h hx => ?_, fun h hsub => ?_⟩
  · have hlt : x < 2 ^ 64 := hx ▸ Nat.mod_lt _ (by decide)
    simp only [exec, execJmp_eq h hx]
    exact ⟨ends_of_jump h (.taking h), fun hout hq => ends_of_jump_outside h hq (.taking h) hlt hout⟩
  · simp only [exec, execBr_eq h hsub]
    refine ⟨fun htaken hin => ?_, fun htaken hout hq => ?_, fun hnot => ?_⟩
    · rw [if_pos htaken]
      exact ends_of_jump h (.taking h) hin
    · rw [if_pos htaken]
      exact ends_of_jump_outside h hq (.taking h) (wImm_lt w) hout
    · rw [hnot, if_neg (by decide)]
      exact ends_of_step h (.taking h) _

/-- Settles O46: SYNC, WAITC, WAITST and END are points of the window; a late WAITST, a SIG and a lone END take effect at once. -/
theorem pointsEnterTheWindow : Obligations.PointsEnterTheWindow := by
  unfold Obligations.PointsEnterTheWindow
  exact fun s f c w => ⟨execSync_points, execWaitc_points, execWaitst_points, execWaitst_halts, execSig_records, execEndCore_ends,
    execEndCore_points⟩

end Sys2Proof.Machine
end

section
/-!
SUPPORT. What a read accounts for and what it leaves (R316, R319, R361), what memory reads as where no word of a span carries an error,
and the settlement of O45.
-/
namespace Sys2Proof.Machine

open Sys2Proof

/-! ### What a read leaves -/

/-- From s to t, words have been read: memory holds what it held, no entry from 0x8000 on has changed, and the Index store is as
canonical as it was. -/
structure Reads (s t : State) : Prop where
  frame : ∃ n i l, t = { s with freshCount := n, index := i, mem := { s.mem with errorLog := l } }
  idx : ∀ i sub, 0x8000 ≤ i → t.idx i sub = s.idx i sub
  wf : indexWf s.index = true → indexWf t.index = true

namespace Reads

variable {s t u : State}

theorem refl (s : State) : Reads s s := ⟨⟨_, _, _, rfl⟩, fun _ _ _ => rfl, id⟩

theorem trans (h : Reads s t) (k : Reads t u) : Reads s u := by
  obtain ⟨⟨n, i, l, rfl⟩, hidx, hwf⟩ := h
  obtain ⟨⟨n', i', l', rfl⟩, kidx, kwf⟩ := k
  exact ⟨⟨_, _, _, rfl⟩, fun i sub hi => (kidx i sub hi).trans (hidx i sub hi), kwf ∘ hwf⟩

theorem idxBump (s : State) {i sub : Nat} (h : ikey i sub < 256 * 0x8000) (hi lo n : Nat) : Reads s (s.idxBump i sub hi lo n) :=
  ⟨⟨_, _, _, rfl⟩, fun j k hj => State.idx_idxSet_ne s _ (by unfold ikey at *; omega), fun hw => State.indexWf_idxSet hw _ _ _⟩

variable (h : Reads s t)
include h

theorem cells : t.mem.cells = s.mem.cells := by
  obtain ⟨⟨n, i, l, rfl⟩, -, -⟩ := h
  rfl

theorem accumulators : t.mem.accumulators = s.mem.accumulators := by
  obtain ⟨⟨n, i, l, rfl⟩, -, -⟩ := h
  rfl

/-- The limits of the domain clocks rest on the CORE step and the test overrides alone (R360). -/
theorem outside : t.outside = s.outside := by
  have h10 := h.idx 0xF010 0 (by decide)
  have h11 := h.idx 0xF011 0 (by decide)
  have hclock : t.clock = s.clock := by
    obtain ⟨⟨n, i, l, rfl⟩, -, -⟩ := h
    rfl
  unfold State.outside State.coreThirds State.fabricDivider
  rw [h10, h11, hclock]

end Reads

theorem State.countRead_reads (s : State) (bad : Bool) {store address : Nat} (h : store = 1 → address < sramEnd) :
    Reads s (s.countRead bad store address) := by
  unfold State.countRead
  split
  · have := tierOf_lt (h rfl)
    exact .idxBump s (by unfold ikey; split <;> omega) _ _ _
  · have : deviceOf address < 32 := Nat.mod_lt _ (by decide)
    exact .idxBump s (by unfold ikey; split <;> omega) _ _ _
  all_goals exact .idxBump s (by unfold ikey; split <;> omega) _ _ _

theorem State.logError_reads (s : State) (address : Nat) (src : ReadSource) (store unit : Nat) :
    Reads s (s.logError address src store unit) := by
  unfold State.logError
  split
  · exact ⟨⟨_, _, _, rfl⟩, fun _ _ _ => rfl, id⟩
  · exact .idxBump s (by decide) _ _ _

theorem State.accountRead_reads (s : State) (r : WordRead) (src : ReadSource) {store address : Nat} (unit : Nat)
    (h : store = 1 → address < sramEnd) : Reads s (s.accountRead r src store address unit) := by
  cases r with
  | clean d => exact .refl s
  | corrected d => exact s.countRead_reads _ h
  | bad => exact (s.countRead_reads _ h).trans (State.logError_reads _ _ _ _ _)

theorem State.crosses_reads (s : State) : Reads s s.crosses.2 := by
  unfold State.crosses
  split
  · exact ⟨⟨_, _, _, rfl⟩, fun _ _ _ => rfl, id⟩
  · exact .refl s

theorem State.readWord_reads (s : State) (w : Nat) (src : ReadSource) (unit : Nat) : Reads s (s.readWord w src unit).1 := by
  have ha := s.accountRead_reads (s.wordRead w) src unit (sram_of_storeOf (a := 16 * w))
  have hx := ha.trans (State.crosses_reads _)
  simp only [State.readWord]
  repeat' split
  all_goals assumption

/-- What a fetch leaves, by the name an obligation gives it. -/
theorem Reads.of_takes {s f : State} {c op w : Nat} (h : Takes s c op w f) : Reads s f := by
  obtain ⟨-, -, hw, -⟩ := h
  have project : ∀ (t : State) (n : Nat) (b : Bool), Reads s t → Reads s (t, n, b).1 := fun _ _ _ h => h
  have hf : Reads s (s.fetchWord c).1 := project _ _ _ (s.readWord_reads _ _ _)
  rwa [hw] at hf

/-! ### Reads of words without an error -/

section Clean

variable {s : State} (hl : InLimits s)
include hl

/-- A word without an error reads as it was written, and nothing is counted (R316, R361). -/
theorem State.readWord_clean {w : Nat} (hp : s.pattern w = 0) (src : ReadSource) (unit : Nat) :
    s.readWord w src unit = (s, s.wordBytes w, false) := by
  have hlen : (s.wordBytes w).length = 16 := by simp [State.wordBytes]
  have hle := leBytes_leNat (s.wordBytes w)
  rw [hlen] at hle
  have hcross : s.crosses = (0, s) := if_neg (by rw [hl]; decide)
  simp [State.readWord, State.wordRead, hp, State.accountRead, hcross, hle]

/-- Words in a row without an error read as their bytes in a row. -/
theorem State.readWords_clean (src : ReadSource) (unit k w : Nat) (acc : Bytes) (hp : ∀ i, i < k → s.pattern (w + i) = 0) :
    s.readWords src unit k w acc none = (s, acc ++ (List.range (16 * k)).map (fun i => s.loadByte (16 * w + i)), none) := by
  induction k generalizing w acc with
  | zero => simp [State.readWords]
  | succ k ih =>
    have hrest := ih (w + 1) (acc ++ s.wordBytes w) fun i hi => by
      rw [Nat.add_assoc, Nat.add_comm 1]
      exact hp (i + 1) (by omega)
    have hword : s.readWord w src unit = (s, s.wordBytes w, false) := State.readWord_clean hl (hp 0 (by omega)) src unit
    rw [State.readWords, hword]
    refine hrest.trans ?_
    have hsplit : List.range (16 * (k + 1)) = List.range 16 ++ (List.range (16 * k)).map (16 + ·) := by
      rw [Nat.mul_succ, Nat.add_comm, List.range_add]
    have hshift : ∀ i, 16 * (w + 1) + i = 16 * w + (16 + i) := by omega
    rw [hsplit, List.map_append, List.map_map, List.append_assoc]
    simp only [hshift]
    rfl

/-- A span whose words carry no error reads as its bytes. -/
theorem State.readMem_clean {a n : Nat} (hn : n ≠ 0) (hp : ∀ i, i ≤ (a + n - 1) / 16 - a / 16 → s.pattern (a / 16 + i) = 0)
    (src : ReadSource) (unit : Nat) :
    s.readMem a n src unit = (s, (List.range n).map (fun i => s.loadByte (a + i)), none) := by
  have hwords := State.readWords_clean hl src unit ((a + n - 1) / 16 - a / 16 + 1) (a / 16) [] fun i hi => hp i (by omega)
  rw [State.readMem, if_neg hn]
  dsimp only
  rw [hwords]
  refine congrArg (fun b => (s, b, none)) (List.ext_getElem ?_ fun i _ hi => ?_)
  · simp
    omega
  · simp only [List.nil_append, List.getElem_take, List.getElem_drop, List.getElem_map, List.getElem_range]
    congr 1
    omega

end Clean

/-- A sound memory's words carry no error. -/
theorem State.pattern_of_sound {s : State} (hs : Sound s) (w : Nat) : s.pattern w = 0 := by
  rw [State.pattern, hs]
  rfl

/-- Where no stored word carries an error, a fetch leaves nothing behind. -/
theorem eq_of_takes_of_sound {s f : State} {c op w : Nat} (h : Takes s c op w f) (hs : Sound s) (hl : InLimits s) : f = s := by
  obtain ⟨-, -, hw, -⟩ := h
  rw [State.fetchWord, State.readWord_clean hl (State.pattern_of_sound hs _)] at hw
  exact (congrArg Prod.fst hw).symm

theorem leNat_div (b : Bytes) (n : Nat) : leNat b / 256 ^ n = leNat (b.drop n) := by
  induction n generalizing b with
  | zero => simp
  | succ n ih =>
    cases b with
    | nil => simp [leNat]
    | cons x t =>
      have hx := x.isLt
      rw [List.drop_succ_cons, leNat, ← ih, Nat.pow_succ', ← Nat.div_div_eq_div_mul, show (x.toNat + 256 * leNat t) / 256 = leNat t by omega]

/-- The little-endian number of eight bytes without an error is what the device's own bookkeeping reads there. -/
theorem State.peek64_eq_leNat {s : State} {a : Nat} (ha : a % 8 = 0) (hp : s.pattern (a / 16) = 0) :
    s.peek64 a = leNat ((List.range 8).map fun i => s.loadByte (a + i)) := by
  have hbytes : ((s.wordBytes (a / 16)).drop (a % 16)).take 8 = (List.range 8).map fun i => s.loadByte (a + i) := by
    refine List.ext_getElem (by simp [State.wordBytes]; omega) fun i _ hi => ?_
    simp only [State.wordBytes, List.getElem_take, List.getElem_drop, List.getElem_map, List.getElem_range]
    congr 1
    omega
  rw [State.peek64, State.wordRead, if_pos hp, leNat_div, show 2 ^ 64 = 256 ^ 8 by rfl, leNat_mod, hbytes]

/-! ### Bytes of the colophon (Table 8.4) -/

/-- A byte of memory rests on its cell, the binding and which cores run. -/
theorem State.loadByte_congr {s t : State} {a : Nat} (hcell : fget 0 t.mem.cells (canon a) = fget 0 s.mem.cells (canon a))
    (hb : t.binding = s.binding) (hr : ∀ k, (t.core k).run = (s.core k).run) : t.loadByte a = s.loadByte a := by
  have hcount : t.coresIn = s.coresIn := funext fun p => by simp only [State.coresIn, hr]
  have hsize : t.colophonSize = s.colophonSize := by rw [State.colophonSize, hb, State.colophonSize]
  have hfields : t.coreFields = s.coreFields := by rw [State.coreFields, hcount, State.coreFields]
  have hphase : t.colophonPhase = s.colophonPhase := by rw [State.colophonPhase, hcount, hb, State.colophonPhase]
  have htiles : t.tilesDone = s.tilesDone := by rw [State.tilesDone, hb, State.tilesDone]
  have hstatus : t.colophonStatus = s.colophonStatus := by
    rw [State.colophonStatus, hphase, hfields, htiles, hb, State.colophonStatus]
  have hbyte : ∀ off, t.colophonByte off = s.colophonByte off := fun off => by
    simp only [State.colophonByte, State.colophonWord, hstatus, hb]
  simp only [State.loadByte, hb, hsize, hbyte, hcell]

/-- Amid an instruction of a core that still runs, memory reads as before it. -/
theorem Amid.loadByte {f g : State} {c : Nat} {x : Core} (h : Amid f c x g) (hx : x.run = (f.core c).run) (a : Nat) :
    g.loadByte a = f.loadByte a := by
  have hrun : (g.core c).run = x.run := h.reads Core.run fun _ _ => rfl
  obtain ⟨he, hothers⟩ := h.only
  have hmem : g.mem = f.mem := (congrArg State.mem he :)
  have hbinding : g.binding = f.binding := (congrArg State.binding he :)
  refine State.loadByte_congr (by rw [hmem]) hbinding fun k => ?_
  by_cases hk : k = c
  · rw [hk, hrun, hx]
  · rw [hothers k hk]

/-! ### Descriptors (R146) -/

/-- An instruction that writes a descriptor and goes on at the next one. -/
theorem ends_of_setDesc {s f : State} {c : CoreId} {op w : Nat} (h : Takes s c op w f) (hdescs : fwf 0 (s.core c).descs = true)
    {g : State} (hg : Amid f c (s.core c) g) (n v : Nat) :
    ∃ t, s.ends ((g.setCore c { g.core c with descs := fset 0 (g.core c).descs n v }).advance c w (g.nextPc c) none) = .next t ∧
      OnlyCore c f t ∧ GoesOn c ((s.core c).pc + 1) w s t ∧ (t.core c).regs = (s.core c).regs ∧
      fget 0 (t.core c).descs n = v ∧ ∀ k, k ≠ n → fget 0 (t.core c).descs k = fget 0 (s.core c).descs k := by
  obtain ⟨r, hr⟩ := hg.self
  have hset := hg.setCore (y := { g.core c with descs := fset 0 (g.core c).descs n v })
    (z := { s.core c with descs := fset 0 (s.core c).descs n v }) (running_of_takes h) ⟨r, by rw [hr]⟩
  obtain ⟨t, he, hone, hgo, hregs, hd, -⟩ := ends_of_advance h hset rfl ((s.core c).pc + 1)
  rw [State.nextPc, hg.pc]
  refine ⟨t, he, hone, hgo, hregs, ?_, fun k hk => ?_⟩
  · rw [hd]
    exact fget_fset_self hdescs _ _
  · rw [hd]
    exact fget_fset_ne 0 _ _ hk

section Descriptors

variable {s f : State} {c : CoreId} {w : Nat}

theorem firstHalt_of_none {h : Option Halt} (hh : h = none) (t : List (Option Halt)) : firstHalt (h :: t) = firstHalt t := by
  rw [hh]
  rfl

theorem haltIf_of_false {b : Bool} (hb : b = false) (h : Option Halt) : haltIf b h = none := by
  rw [hb]
  rfl

theorem execLdd_loads {v : Nat} (h : Takes s c 0x08 w f) (hdescs : fwf 0 (s.core c).descs = true)
    (hv : v = ((s.core c).reg (wRa w) + wImm w) % 2 ^ 64) (hsub : wSub w ≤ 63) (hwait : (s.core c).runAhead = false)
    (halign : v % 16 = 0) (hdata : f.inData v 160 = true) (hs : Sound f) (hl : InLimits f) :
    ∃ t, execLdd c s = .next t ∧ OnlyCore c f t ∧ GoesOn c ((s.core c).pc + 1) w s t ∧ (t.core c).regs = (s.core c).regs ∧
      fget 0 (t.core c).descs (wSub w) = leNat ((List.range 160).map (fun k => f.loadByte (v + k))) ∧
      ∀ k, k ≠ wSub w → fget 0 (t.core c).descs k = fget 0 (s.core c).descs k := by
  have hg := Amid.taking h
  have hload : ∀ a, (f.taking c).loadByte a = f.loadByte a := hg.loadByte (congrArg Core.run ((ReadsOnly.of_takes h).core c)).symm
  have hread : (f.taking c).readMem v 160 .unit 0xFF = (f.taking c, (List.range 160).map (fun k => f.loadByte (v + k)), none) := by
    rw [State.readMem_clean (s := f.taking c) hl (by decide) (fun i _ => State.pattern_of_sound (s := f.taking c) hs _)]
    simp only [hload]
  have hchecks : firstHalt [controlReserved w (reservedValue (decide (wSub w > 63)) 97), haltIf (v % 16 ≠ 0) (halt 0x07 v),
      haltIf (!(f.taking c).inData v 160) (halt 0x03 v)] = none := by
    rw [firstHalt_of_none (controlReserved_of_value h (by simpa using hsub) 97), firstHalt_of_none (haltIf_of_false (by simpa) _),
      firstHalt_of_none (haltIf_of_false (by rw [Bool.not_eq_false']; exact hdata) _)]
    rfl
  have haddr : addMod 64 (((f.taking c).core c).reg (wRa w)) (wImm w) = v := by
    rw [hg.reg, hv]
    rfl
  rw [execLdd, State.onInstr_of_taken h (by rw [hwait]; rfl), haddr]
  dsimp only
  rw [State.orHalt_of_none hchecks, hread]
  exact ends_of_setDesc h hdescs hg _ _

end Descriptors

/-! ### Fields of a descriptor (Table 6.6, R146) -/

/-- A field replaced: what lies above it, the new field, what lies below it. -/
theorem setBits_eq (x hi lo v : Nat) : setBits x hi lo v =
    2 ^ lo * (2 ^ (hi + 1 - lo) * (x / 2 ^ lo / 2 ^ (hi + 1 - lo)) + v % 2 ^ (hi + 1 - lo)) + x % 2 ^ lo := by
  have hlow := Nat.div_add_mod x (2 ^ lo)
  have hhigh := congrArg (2 ^ lo * ·) (Nat.div_add_mod (x / 2 ^ lo) (2 ^ (hi + 1 - lo)))
  simp only [Nat.mul_add] at hhigh
  simp only [setBits, bits, Nat.mul_add, Nat.mul_comm _ (2 ^ lo)]
  omega

/-- What lies below a field stands when the field is replaced. -/
theorem setBits_mod (x hi lo v : Nat) : setBits x hi lo v % 2 ^ lo = x % 2 ^ lo := by
  rw [setBits_eq, Nat.mul_add_mod, Nat.mod_mod]

theorem setBits_div (x hi lo v : Nat) : setBits x hi lo v / 2 ^ lo =
    2 ^ (hi + 1 - lo) * (x / 2 ^ lo / 2 ^ (hi + 1 - lo)) + v % 2 ^ (hi + 1 - lo) := by
  rw [setBits_eq, Nat.mul_add_div (Nat.two_pow_pos _), Nat.div_eq_of_lt (Nat.mod_lt _ (Nat.two_pow_pos _)), Nat.add_zero]

theorem bits_setBits_self {x hi lo v : Nat} (hv : v < 2 ^ (hi + 1 - lo)) : bits (setBits x hi lo v) hi lo = v := by
  rw [bits, setBits_div, Nat.mul_add_mod, Nat.mod_mod, Nat.mod_eq_of_lt hv]

/-- A field that shares no bit with the one replaced stands. -/
theorem bits_setBits_ne (x v : Nat) {hi lo hi' lo' : Nat} (hle : lo ≤ hi + 1) (hle' : lo' ≤ hi' + 1) (h : hi' < lo ∨ hi < lo') :
    bits (setBits x hi lo v) hi' lo' = bits x hi' lo' := by
  obtain h | h := h
  · have hfield : ∀ y, bits y hi' lo' = bits (y % 2 ^ lo) hi' lo' := fun y => by
      have hpow : 2 ^ lo = 2 ^ lo' * (2 ^ (hi' + 1 - lo') * 2 ^ (lo - (hi' + 1))) := by
        rw [← Nat.pow_add, ← Nat.pow_add]
        congr 1
        omega
      rw [bits, bits, hpow, Nat.mod_mul_right_div_self, Nat.mod_mul_right_mod]
    rw [hfield, setBits_mod, ← hfield]
  · have hfield : ∀ y, bits y hi' lo' = y / 2 ^ lo / 2 ^ (hi + 1 - lo) / 2 ^ (lo' - (hi + 1)) % 2 ^ (hi' + 1 - lo') := fun y => by
      rw [Nat.div_div_eq_div_mul, Nat.div_div_eq_div_mul, ← Nat.pow_add, ← Nat.pow_add, bits]
      congr 3
      omega
    rw [hfield, hfield x, setBits_div, Nat.mul_add_div (Nat.two_pow_pos _),
      Nat.div_eq_of_lt (Nat.mod_lt _ (Nat.two_pow_pos _)), Nat.add_zero]

/-- First bit of a level's trip count (Table 6.6). -/
def tripLow (l : Nat) : Nat := if l < 5 then 24 * l else 128

theorem dTrip_eq (d l : Nat) : dTrip d l = bits d (tripLow l + 23) (tripLow l) := by
  unfold dTrip tripLow
  split <;> rfl

theorem setDescField_base (d v : Nat) {i : Nat} (hi : i ≤ 3) : setDescField d i v = setBits d (dGen i + 47) (dGen i) v := if_pos hi

theorem setDescField_trip (d v : Nat) {i : Nat} (hi : 3 < i) (h9 : i ≤ 9) :
    setDescField d i v = setBits d (tripLow (i - 4) + 23) (tripLow (i - 4)) v := by
  unfold setDescField tripLow
  rw [if_neg (by omega)]
  split
  · rw [if_pos (by omega)]
  · rw [if_neg (by omega)]

/-- A new base leaves the trip counts and the other bases alone. -/
theorem setDescField_sets_base (d : Nat) {i v : Nat} (hi : i ≤ 3) (hv : v < 2 ^ 48) :
    dBase (setDescField d i v) i = v ∧ (∀ g, g ≤ 3 → g ≠ i → dBase (setDescField d i v) g = dBase d g) ∧
      ∀ l, l ≤ 5 → dTrip (setDescField d i v) l = dTrip d l := by
  rw [setDescField_base d v hi]
  refine ⟨bits_setBits_self (by rwa [show dGen i + 47 + 1 - dGen i = 48 by omega]), fun g _ hne => ?_, fun l _ => ?_⟩
  · exact bits_setBits_ne d v (by omega) (by omega) (by unfold dGen; omega)
  · rw [dTrip_eq, dTrip_eq]
    exact bits_setBits_ne d v (by omega) (by omega) (by unfold dGen tripLow; split <;> omega)

/-- A new trip count leaves the bases and the other trip counts alone. -/
theorem setDescField_sets_trip (d : Nat) {i v : Nat} (hi : 3 < i) (h9 : i ≤ 9) (hv : v < 2 ^ 24) :
    dTrip (setDescField d i v) (i - 4) = v ∧ (∀ l, l ≤ 5 → l ≠ i - 4 → dTrip (setDescField d i v) l = dTrip d l) ∧
      ∀ g, g ≤ 3 → dBase (setDescField d i v) g = dBase d g := by
  rw [setDescField_trip d v hi h9]
  refine ⟨?_, fun l _ hne => ?_, fun g _ => ?_⟩
  · rw [dTrip_eq]
    exact bits_setBits_self (by rwa [show tripLow (i - 4) + 23 + 1 - tripLow (i - 4) = 24 by omega])
  · rw [dTrip_eq, dTrip_eq]
    exact bits_setBits_ne d v (by omega) (by omega) (by unfold tripLow; split <;> split <;> omega)
  · exact bits_setBits_ne d v (by omega) (by omega) (by unfold dGen tripLow; split <;> omega)

/-- A SETD of a field that exists, with a value that fits it, sets that field (R146). -/
theorem execSetd_eq {s f : State} {c : CoreId} {w i v : Nat} (h : Takes s c 0x09 w f) (hsub : wSub w ≤ 63)
    (hv : v = ((s.core c).reg (wRa w) + wImm w) % 2 ^ 64) (hi : i = wAux w % 16) (h9 : i ≤ 9) (hbase : i ≤ 3 → v < 2 ^ 48)
    (htrip : 3 < i → v < 2 ^ 24) {g : State} (hg : g = f.taking c) :
    execSetd c s = s.ends ((g.setCore c { g.core c with
      descs := fset 0 (g.core c).descs (wSub w) (setDescField (fget 0 (s.core c).descs (wSub w)) i v) }).advance c w (g.nextPc c) none) := by
  have ht := Amid.taking h
  have hfits : ¬ (3 < i ∧ 2 ^ 24 ≤ v) := fun hb => absurd (htrip hb.1) (by omega)
  have hreaches : ¬ (i ≤ 3 ∧ 2 ^ 48 ≤ v) := fun hb => absurd (hbase hb.1) (by omega)
  have haddr : addMod 64 (((f.taking c).core c).reg (wRa w)) (wImm w) = v := by
    rw [ht.reg, hv]
    rfl
  rw [execSetd, State.onInstr_of_taken h rfl, haddr, ← hi]
  dsimp only
  rw [State.orHalt_of_none, ht.descs, hg, ht.descs]
  rw [decide_eq_false (show ¬ i > 9 by omega), decide_eq_false (show ¬ wSub w > 63 by omega)]
  refine (firstHalt_of_none (controlReserved_of_takes h) _).trans ?_
  rw [firstHalt_of_none (haltIf_of_false (by simpa using hfits) _), firstHalt_of_none (haltIf_of_false (by simpa using hreaches) _)]
  rfl

/-- Settles O45: LDD and SETD are one write of a descriptor; SETD's is one field of it. -/
theorem descriptorsAreSet : Obligations.DescriptorsAreSet := by
  unfold Obligations.DescriptorsAreSet
  intro s f c w v hdescs hv hsub
  refine ⟨fun h hwait halign hdata hs hl => execLdd_loads h hdescs hv hsub hwait halign hdata hs hl,
    fun i h hi h9 hbase htrip => ?_⟩
  obtain ⟨t, he, hone, hgo, hregs, hself, hothers⟩ := ends_of_setDesc h hdescs (.taking h) (wSub w)
    (setDescField (fget 0 (s.core c).descs (wSub w)) i v)
  refine ⟨t, (execSetd_eq h hsub hv hi h9 hbase htrip rfl).trans he, hone, hgo, hregs, hothers, ?_⟩
  rintro d d' rfl rfl
  rw [hself]
  exact ⟨fun h3 => setDescField_sets_base _ h3 (hbase h3), fun h3 => setDescField_sets_trip _ h3 h9 (htrip h3)⟩

end Sys2Proof.Machine
end

section
/-!
SUPPORT. Loads and stores of a core (R145, R304, R312): eight bytes of memory below the device area, one entry of an accumulator, and
the halt of a misaligned address, and the settlement of O44.
-/
namespace Sys2Proof.Machine

open Sys2Proof

/-! ### Bytes set below the device area -/

/-- Below the device area an address is its own canonical form (R313). -/
theorem canon_of_lt_deviceArea {a : Nat} (h : a < deviceArea) : canon a = a := by
  have below : ∀ base n, deviceArea ≤ base → ¬ (decide (base ≤ a) && decide (a < base + n)) = true := fun base n hb hc => by
    have := of_decide_eq_true (Bool.and_eq_true_iff.1 hc).1
    omega
  rw [canon, if_neg (below _ _ (by decide)), if_neg (below _ _ (by decide))]

/-- Bytes set below the device area are a run of cells. -/
theorem Memory.setBytes_eq (m : Memory) {a : Nat} {bs : Bytes} (h : a + bs.length ≤ deviceArea) :
    m.setBytes a bs = { m with cells := fsetRun 0 m.cells a bs } := by
  induction bs generalizing m a with
  | nil => rfl
  | cons b bs ih =>
    rw [List.length_cons] at h
    rw [Memory.setBytes, ih _ (by omega), Memory.setByte, canon_of_lt_deviceArea (by omega)]
    rfl

theorem fwf_fsetRun {α : Type} [DecidableEq α] {d : α} {m : FMap α} (h : fwf d m = true) (k : Nat) (vs : List α) :
    fwf d (fsetRun d m k vs) = true := by
  induction vs generalizing m k with
  | nil => exact h
  | cons v vs ih => exact ih (fwf_fset h _ _) _

/-- Reading after a run of keys has been set. -/
theorem fget_fsetRun {α : Type} [DecidableEq α] {d : α} {m : FMap α} (h : fwf d m = true) (k : Nat) (vs : List α) (j : Nat) :
    fget d (fsetRun d m k vs) j = if k ≤ j ∧ j < k + vs.length then vs.getD (j - k) d else fget d m j := by
  induction vs generalizing m k with
  | nil => exact (if_neg (by simp)).symm
  | cons v vs ih =>
    rw [fsetRun, ih (fwf_fset h _ _), fget_fset h, List.length_cons]
    by_cases hj : j = k
    · subst hj
      rw [if_neg (by omega), if_pos rfl, if_pos (by omega), Nat.sub_self, List.getD_cons_zero]
    · rw [if_neg hj]
      by_cases hin : k + 1 ≤ j ∧ j < k + 1 + vs.length
      · rw [if_pos hin, if_pos (by omega), show j - k = j - (k + 1) + 1 by omega, List.getD_cons_succ]
      · rw [if_neg hin, if_neg (by omega)]

/-- Bytes set below the device area in a sound memory, with a fresh code and the note for the copy stream. -/
theorem stores_of_setBytes_low {s : State} (hs : Sound s) (hw : fwf 0 s.mem.cells = true) {a : Nat} {bs : Bytes}
    (ha : a + bs.length ≤ deviceArea) (w v : Nat) (note : Bytes) :
    Stores a bs s (State.noteMirror { s with mem := (s.mem.setBytes a bs).setPattern w 0 } v note) := by
  have hmem : (s.mem.setBytes a bs).setPattern w 0 = { s.mem with cells := fsetRun 0 s.mem.cells a bs } := by
    rw [Memory.setBytes_eq _ ha]
    exact Memory.setPattern_sound (m := { s.mem with cells := fsetRun 0 s.mem.cells a bs }) hs w
  obtain ⟨r, hn⟩ := State.noteMirror_frame { s with mem := (s.mem.setBytes a bs).setPattern w 0 } v note
  rw [hn, hmem]
  refine ⟨⟨_, r, rfl⟩, fwf_fsetRun hw _ _, fun k hk => ?_, fun x hx => ?_⟩
  · rw [fget_fsetRun hw, if_pos (by omega), Nat.add_sub_cancel_left]
  · rw [fget_fsetRun hw, if_neg (by omega)]

/-- A store of eight bytes at a multiple of eight below the device area lies in one word, and is merged into it (R317). -/
theorem State.writeMem_eight {s : State} (hs : Sound s) (hl : InLimits s) (hw : fwf 0 s.mem.cells = true) {a : Nat} {data : Bytes}
    (hlen : data.length = 8) (h8 : a % 8 = 0) (ha : a + 8 ≤ deviceArea) (unit : Nat) : Stores a data s (s.writeMem a data unit) := by
  have hend : 16 * (a / 16) + 16 ≤ deviceArea := by
    unfold deviceArea at *
    omega
  have hword : (s.wordBytes (a / 16)).length = 16 := by simp [State.wordBytes]
  have hfit : a % 16 + data.length ≤ (s.wordBytes (a / 16)).length := by omega
  have hcross : (if storeOf (16 * (a / 16)) = 2 then s.crosses else (0, s)) = (0, s) := by
    rw [show s.crosses = (0, s) from if_neg (by rw [hl]; decide), ite_self]
  have hone : s.writeMem a data unit = s.writeWord (a / 16) (a % 16) data unit := by
    have htake : data.take (16 - a % 16) = data := List.take_of_length_le (by omega)
    have hdrop : data.drop (16 - a % 16) = [] := List.drop_eq_nil_of_le (by omega)
    have hne : data.isEmpty = false := by
      cases data with
      | nil => cases hlen
      | cons => rfl
    rw [State.writeMem, hlen, State.writeWords]
    rw [htake, hdrop, hne, if_neg (by decide)]
    rfl
  obtain ⟨hframe, hwf, hbytes, hothers⟩ := stores_of_setBytes_low hs hw (a := 16 * (a / 16))
    (bs := patch (s.wordBytes (a / 16)) (a % 16) data) (by rw [patch_length hfit]; omega) (a / 16) (a / 16)
    (patch (s.wordBytes (a / 16)) (a % 16) data)
  rw [patch_length hfit, hword] at hbytes hothers
  have hmerge : s.writeWord (a / 16) (a % 16) data unit =
      State.noteMirror { s with mem := (s.mem.setBytes (16 * (a / 16)) (patch (s.wordBytes (a / 16)) (a % 16) data)).setPattern (a / 16) 0 }
        (a / 16) (patch (s.wordBytes (a / 16)) (a % 16) data) := by
    rw [State.writeWord, hcross]
    dsimp only
    rw [if_neg Nat.zero_ne_one, if_neg (by simp [hlen]), State.readWord_clean hl (State.pattern_of_sound hs _)]
    rfl
  rw [hone, hmerge]
  refine ⟨hframe, hwf, fun k hk => ?_, fun x hx => ?_⟩
  · have hk' := hbytes (a % 16 + k) (by omega)
    rw [← Nat.add_assoc, Nat.div_add_mod] at hk'
    rw [hk', patch_getD hfit, if_pos (by omega), Nat.add_sub_cancel_left]
  · by_cases hin : 16 * (a / 16) ≤ x ∧ x < 16 * (a / 16) + 16
    · obtain ⟨i, rfl⟩ := Nat.exists_eq_add_of_le hin.1
      have hx' : 16 * (a / 16) + i < deviceArea := by omega
      rw [hbytes i (by omega), patch_getD hfit, if_neg (by omega), State.wordBytes_getD s _ (by omega),
        State.loadByte_of_low s (by rwa [canon_of_lt_deviceArea hx'])]
    · exact hothers x (by omega)

/-! ### Addresses of loads and stores (R145, R304) -/

section Access

variable {s f : State} {c : CoreId} {op w a : Nat}

theorem address_of_taken (h : Takes s c op w f) (ha : a = ((s.core c).reg (wRa w) + wImm w) % 2 ^ 64) :
    addMod 64 (((f.taking c).core c).reg (wRa w)) (wImm w) = a := by
  rw [(Amid.taking h).reg, ha]
  rfl

theorem accessHalt_of_allowed (h : Takes s c op w f) (h8 : a % 8 = 0) {ok : Bool} (hok : ok = true) :
    firstHalt [controlReserved w none, haltIf (a % 8 ≠ 0) (halt 0x07 a), haltIf (!ok) (halt 0x03 a)] = none := by
  rw [firstHalt_of_none (controlReserved_of_takes h), firstHalt_of_none (haltIf_of_false (by simpa) _), hok]
  rfl

theorem accessHalt_of_misaligned (h : Takes s c op w f) (h8 : a % 8 ≠ 0) (hlt : a < 2 ^ 64) (ok : Bool) :
    firstHalt [controlReserved w none, haltIf (a % 8 ≠ 0) (halt 0x07 a), haltIf (!ok) (halt 0x03 a)] = some ⟨0x07, a, 0xF⟩ := by
  rw [firstHalt_of_none (controlReserved_of_takes h), haltIf, if_pos (by simpa), halt, Nat.mod_eq_of_lt hlt]
  rfl

/-- A window of a present unit takes loads and stores (R304). -/
theorem windowOk_of_present (h : Takes s c op w f) {u r k : Nat} (hwin : windowAt a = some (u, r, k)) (hu : s.present u = true) :
    (f.taking c).windowOk a = true := by
  rw [State.windowOk, hwin]
  exact (State.present_of_dev ((Amid.taking h).dev (.of_takes h)) u).trans hu

/-- A row that no product writes lets an access pass (R96). -/
theorem windowBusy_of_unwritten (h : Takes s c op w f) {u r k : Nat} (hwin : windowAt a = some (u, r, k))
    (hrow : s.rowWritten u r = false) : (f.taking c).windowBusy a = false := by
  rw [State.windowBusy, hwin]
  have hrows : (f.taking c).rowWritten u r = s.rowWritten u r := by
    rw [State.rowWritten, (Amid.taking h).cmds (.of_takes h), State.rowWritten]
  exact hrows.trans hrow

/-- The accumulator windows lie beyond the device area. -/
theorem windowAt_of_lt_deviceArea {x : Nat} (h : x < deviceArea) : windowAt x = none := by
  have hlow : ¬ windowBase ≤ x := Nat.not_le.2 (Nat.lt_trans h (by decide))
  rw [windowAt, decide_eq_false hlow, Bool.false_and, if_neg (by decide)]

/-! ### Loads -/

theorem execLds_loads (hwait : (s.core c).runAhead = false) (ha : a = ((s.core c).reg (wRa w) + wImm w) % 2 ^ 64)
    (hregs : fwf 0 (s.core c).regs = true) (hl : InLimits s) (h : Takes s c 0x06 w f) (h8 : a % 8 = 0) (hdata : f.inData a 8 = true)
    (hp : f.pattern (a / 16) = 0) (hwin : windowAt a = none) :
    ∃ t, execLds c s = .next t ∧ OnlyCore c f t ∧ GoesOn c ((s.core c).pc + 1) w s t ∧ RegSet c (wRd w) (f.peek64 a) s t := by
  have hg := Amid.taking h
  have hload : ∀ x, (f.taking c).loadByte x = f.loadByte x := hg.loadByte (congrArg Core.run ((ReadsOnly.of_takes h).core c)).symm
  have hok : (f.taking c).loadOk a = true := by
    rw [State.loadOk, show (f.taking c).inData a 8 = true from hdata]
    rfl
  have hread : (f.taking c).readMem a 8 .unit 0xFF = (f.taking c, (List.range 8).map (fun i => f.loadByte (a + i)), none) := by
    rw [State.readMem_clean (s := f.taking c) ((Reads.of_takes h).outside.trans hl) (by decide) fun i hi => ?_]
    · simp only [hload]
    · rw [show i = 0 by omega]
      exact hp
  rw [execLds, State.onInstr_of_taken h (by rw [hwait]; rfl), address_of_taken h ha]
  dsimp only
  rw [State.orHalt_of_none (accessHalt_of_allowed h h8 hok), hwin]
  dsimp only
  rw [hread, State.peek64_eq_leNat h8 hp]
  have hlt := leNat_lt ((List.range 8).map fun i => f.loadByte (a + i))
  rw [List.length_map, List.length_range] at hlt
  obtain ⟨t, he, hone, hgo, hset, -⟩ := ends_of_setRegGo h hregs hg (wRd w) (Nat.mod_eq_of_lt hlt)
  exact ⟨t, he, hone, hgo, hset⟩

theorem execLds_loads_window (hwait : (s.core c).runAhead = false) (ha : a = ((s.core c).reg (wRa w) + wImm w) % 2 ^ 64)
    (hregs : fwf 0 (s.core c).regs = true) {u r k : Nat} (h : Takes s c 0x06 w f) (h8 : a % 8 = 0)
    (hwin : windowAt a = some (u, r, k)) (hu : s.present u = true) (hrow : s.rowWritten u r = false) :
    ∃ t, execLds c s = .next t ∧ OnlyCore c f t ∧ GoesOn c ((s.core c).pc + 1) w s t ∧
      RegSet c (wRd w) (f.acc u r k % 2 ^ 64) s t := by
  have hok : (f.taking c).loadOk a = true := by
    rw [State.loadOk, windowOk_of_present h hwin hu, Bool.or_true, Bool.true_or]
  rw [execLds, State.onInstr_of_taken h (by rw [hwait]; rfl), address_of_taken h ha]
  dsimp only
  rw [State.orHalt_of_none (accessHalt_of_allowed h h8 hok), hwin]
  dsimp only
  rw [windowBusy_of_unwritten h hwin hrow, if_neg (by decide)]
  obtain ⟨t, he, hone, hgo, hset, -⟩ := ends_of_setRegGo h hregs (.taking h) (wRd w) (v := (f.taking c).acc u r k) rfl
  exact ⟨t, he, hone, hgo, hset⟩

theorem execLds_halts (hwait : (s.core c).runAhead = false) (ha : a = ((s.core c).reg (wRa w) + wImm w) % 2 ^ 64)
    (h : Takes s c 0x06 w f) (h8 : a % 8 ≠ 0) (hq : Quiet s) :
    ∃ t, execLds c s = .next t ∧ OnlyCore c f t ∧ Halts c 0x07 a s t := by
  have hlt : a < 2 ^ 64 := ha ▸ Nat.mod_lt _ (by decide)
  rw [execLds, State.onInstr_of_taken h (by rw [hwait]; rfl), address_of_taken h ha]
  dsimp only
  rw [accessHalt_of_misaligned h h8 hlt]
  exact ends_of_halt h hq (.taking h) rfl rfl (by decide) a _ _ _

/-! ### Stores -/

theorem execSts_stores (hwait : (s.core c).runAhead = false) (ha : a = ((s.core c).reg (wRa w) + wImm w) % 2 ^ 64)
    (hc : Canonical s) (hl : InLimits s) (h : Takes s c 0x07 w f) (hs : Sound s) (h8 : a % 8 = 0) (hdata : f.inData a 8 = true)
    (hend : a + 8 ≤ deviceArea) (hweights : f.spanWeights ((a : Int), (a : Int) + 8) = false) :
    ∃ t, execSts c s = .next t ∧ GoesOn c ((s.core c).pc + 1) w s t ∧ (t.core c).regs = (s.core c).regs ∧
      (∀ k, k ≠ c.val → t.core k = s.core k) ∧ t.peek64 a = (s.core c).reg (wRb w) % 2 ^ 64 ∧
      (∀ x, canon x < a ∨ a + 8 ≤ canon x → t.loadByte x = s.loadByte x) ∧ t.index = f.index ∧ t.clock = s.clock := by
  obtain rfl := eq_of_takes_of_sound h hs hl
  obtain ⟨hmem, -⟩ := hc
  obtain ⟨hcells, -⟩ := memoryWf_iff.1 hmem
  have hok : (f.taking c).storeOk a = true := by
    rw [State.storeOk, show (f.taking c).inData a 8 = true from hdata,
      show (f.taking c).spanWeights ((a : Int), (a : Int) + 8) = false from hweights]
    rfl
  have hlen : (leBytes 8 ((f.core c).reg (wRb w))).length = 8 := leBytes_length _ _
  obtain ⟨⟨cells, m, hu⟩, -, hbytes, hothers⟩ := State.writeMem_eight (s := f.taking c) hs hl hcells hlen h8 hend 0xFF
  obtain ⟨t, he, hgo, hregs, hcores, ht⟩ := ends_of_effect h
    (u := (f.taking c).writeMem a (leBytes 8 ((f.core c).reg (wRb w))) 0xFF) (by rw [hu]) (by rw [hu]; rfl) (by rw [hu]; rfl)
  have hmem' : t.mem = ((f.taking c).writeMem a (leBytes 8 ((f.core c).reg (wRb w))) 0xFF).mem := (congrArg State.mem ht :)
  rw [hu] at ht
  have hsound : Sound t := by
    rw [ht]
    exact hs
  have hruns : ∀ k, (t.core k).run = (f.core k).run := fun k => by
    by_cases hk : k = c.val
    · rw [hk, hgo]
    · rw [hcores k hk]
  have hstored : (List.range 8).map (fun i => t.loadByte (a + i)) = leBytes 8 ((f.core c).reg (wRb w)) := by
    refine List.ext_getElem (by simp [hlen]) fun i hi _ => ?_
    have hi8 : i < 8 := by simpa using hi
    have hlow : a + i < deviceArea := by omega
    rw [List.getElem_map, List.getElem_range, State.loadByte_of_low t (by rwa [canon_of_lt_deviceArea hlow]), hmem', hbytes i (by omega),
      List.getD_eq_getElem _ _ (by omega)]
  refine ⟨t, ?_, hgo, hregs, hcores, ?_, fun x hx => ?_, (congrArg State.index ht :), (congrArg State.clock ht :)⟩
  · rw [execSts, State.onInstr_of_taken h (by rw [hwait]; rfl), address_of_taken h ha, (Amid.taking h).reg]
    dsimp only
    rw [State.orHalt_of_none (accessHalt_of_allowed h h8 hok), windowAt_of_lt_deviceArea (by omega), State.nextPc,
      (Amid.taking h).pc]
    exact he
  · rw [State.peek64_eq_leNat h8 (State.pattern_of_sound hsound _), hstored, leNat_leBytes, show 256 ^ 8 = 2 ^ 64 by rfl]
  · refine State.loadByte_congr ?_ (congrArg State.binding ht :) hruns
    rw [hmem']
    exact hothers (canon x) (by rwa [hlen])

theorem execSts_stores_window (hwait : (s.core c).runAhead = false) (ha : a = ((s.core c).reg (wRa w) + wImm w) % 2 ^ 64)
    (hc : Canonical s) {u r k : Nat} (h : Takes s c 0x07 w f) (h8 : a % 8 = 0) (hwin : windowAt a = some (u, r, k))
    (hu : s.present u = true) (hrow : s.rowWritten u r = false) :
    ∃ t, execSts c s = .next t ∧ GoesOn c ((s.core c).pc + 1) w s t ∧ (t.core c).regs = (s.core c).regs ∧
      t.acc u r k = (s.core c).reg (wRb w) % 2 ^ 36 ∧ t.mem.cells = s.mem.cells := by
  obtain ⟨hmem, -⟩ := hc
  obtain ⟨-, -, -, hacc, -⟩ := memoryWf_iff.1 hmem
  have hok : (f.taking c).storeOk a = true := by
    rw [State.storeOk, windowOk_of_present h hwin hu, Bool.or_true, Bool.true_or]
  rw [execSts, State.onInstr_of_taken h (by rw [hwait]; rfl), address_of_taken h ha, (Amid.taking h).reg]
  dsimp only
  rw [State.orHalt_of_none (accessHalt_of_allowed h h8 hok), hwin]
  dsimp only
  rw [windowBusy_of_unwritten h hwin hrow, if_neg (by decide), State.nextPc, (Amid.taking h).pc]
  obtain ⟨t, he, hgo, hregs, -, ht⟩ := ends_of_effect h (u := (f.taking c).setAcc u r k ((s.core c).reg (wRb w) % 2 ^ 36)) rfl rfl rfl
  refine ⟨t, he, hgo, hregs, ?_, ?_⟩
  · rw [State.acc, ht]
    exact fget_fset_self ((congrArg (fwf _) (Reads.of_takes h).accumulators).trans hacc) _ _
  · rw [ht]
    exact (Reads.of_takes h).cells

theorem execSts_halts (hwait : (s.core c).runAhead = false) (ha : a = ((s.core c).reg (wRa w) + wImm w) % 2 ^ 64)
    (h : Takes s c 0x07 w f) (h8 : a % 8 ≠ 0) (hq : Quiet s) :
    ∃ t, execSts c s = .next t ∧ OnlyCore c f t ∧ Halts c 0x07 a s t := by
  have hlt : a < 2 ^ 64 := ha ▸ Nat.mod_lt _ (by decide)
  rw [execSts, State.onInstr_of_taken h (by rw [hwait]; rfl), address_of_taken h ha]
  dsimp only
  rw [accessHalt_of_misaligned h h8 hlt]
  exact ends_of_halt h hq (.taking h) rfl rfl (by decide) a _ _ _

end Access

/-- Settles O44: a load writes a register; a store changes its eight bytes, or its accumulator entry, and the core goes on. -/
theorem scalarLoadsAndStores : Obligations.ScalarLoadsAndStores := by
  unfold Obligations.ScalarLoadsAndStores
  intro s f c w a hwait ha hregs hc hl
  refine ⟨?_, ?_, ?_, ?_, ?_, ?_⟩
  · exact execLds_loads hwait ha hregs hl
  · exact fun u r k => execLds_loads_window hwait ha hregs
  · exact execLds_halts hwait ha
  · exact execSts_stores hwait ha hc hl
  · exact fun u r k => execSts_stores_window hwait ha hc
  · exact execSts_halts hwait ha

end Sys2Proof.Machine
end

section
/-!
SUPPORT. The instructions by which a core reaches the Index and the CORE step (R149, R349, R360, R410), and the settlement of O48.
-/
namespace Sys2Proof.Machine

open Sys2Proof

/-! ### Accepted writes of a core (R349, R351) -/

/-- A core writes numeric entries alone: a DOMAIN or a text has no register form (Table 15.2). -/
theorem isBytes_of_coreWrite {s : State} {i sub v : Nat} {d : Bytes} (h : s.coreWrite i sub v = some d) :
    ∃ e, entryOf i sub = some e ∧ e.type.isBytes = false := by
  unfold State.coreWrite at h
  cases he : entryOf i sub with
  | none =>
    rw [he] at h
    cases h
  | some e =>
    refine ⟨e, rfl, ?_⟩
    rw [he] at h
    cases ht : e.type with
    | domain => simp [ht, coreBytes] at h
    | text => simp [ht, coreBytes] at h
    | _ => rfl

section Plain

variable {i sub : Nat} (h : Plain i sub)
include h

theorem State.applySwitch_of_plain (s : State) (v : Nat) : s.applySwitch i sub v = s.idxSet i sub v := by
  obtain ⟨hlist, hmirror, hrate, hpolicer, -, -⟩ := h
  simp only [List.mem_cons, not_or] at hlist
  obtain ⟨h1014, h3001, h3100, h4022, h4048, -⟩ := hlist
  unfold State.applySwitch
  split
  case h_6 =>
    rw [if_neg (by simp; omega), if_neg (by simp; omega), if_neg (by simp; omega), if_neg (by simp; omega), if_neg (by simp; omega),
      if_neg (by simp; omega)]
  all_goals contradiction

theorem State.applyCompute_of_plain (s : State) (v : Nat) : s.applyCompute i sub v = s.idxSet i sub v := by
  obtain ⟨hlist, -, -, -, hreset, hrestart⟩ := h
  simp only [List.mem_cons, not_or] at hlist
  obtain ⟨-, -, -, -, -, h5066, h5071, h5073, h5081, h5082, h5083, -⟩ := hlist
  unfold State.applyCompute
  split
  case h_7 => rw [if_neg (by simp; omega), if_neg (by simp; omega), if_neg (by simp; omega)]
  all_goals contradiction

theorem State.applyHigh_of_plain (s : State) (v : Nat) : s.applyHigh i sub v = s.idxSet i sub v := by
  obtain ⟨hlist, -⟩ := h
  simp only [List.mem_cons, not_or] at hlist
  obtain ⟨-, -, -, -, -, -, -, -, -, -, -, h8010, h8024, h8031, h8043, h9005, hA001, hA011, hF040, -⟩ := hlist
  unfold State.applyHigh
  split
  case h_9 => rfl
  all_goals contradiction

/-- An entry without a behaviour of its own takes its value and no more (R351). -/
theorem State.applyNumber_of_plain (s : State) (v : Nat) : s.applyNumber i sub v = s.idxSet i sub v := by
  unfold State.applyNumber
  split
  · exact State.applySwitch_of_plain h s v
  · split
    · exact State.applyCompute_of_plain h s v
    · exact State.applyHigh_of_plain h s v

end Plain

/-! ### IDXR and IDXW -/

section Index

variable {s f : State} {c : CoreId} {w v : Nat}

theorem switch_of_taken {op : Nat} (h : Takes s c op w f) : (f.taking c).switch = s.switch := by
  obtain ⟨n, i, m, rfl⟩ := ReadsOnly.of_takes h
  rfl

theorem principalHalt_of_principal {op : Nat} (h : Takes s c op w f) (hc : c.val % 8 < 2) {bad : Option Nat} (hb : bad = none) :
    principalHalt c w bad = none := by
  rw [principalHalt, firstHalt_of_none (haltIf_of_false (by simpa [principal] using hc) _), hb,
    firstHalt_of_none (controlReserved_of_takes h)]
  rfl

/-- A principal instruction halts a subordinate core (R138). -/
theorem principalHalt_of_subordinate (hc : 2 ≤ c.val % 8) (bad : Option Nat) : principalHalt c w bad = some ⟨0x0C, 0, 0xF⟩ := by
  rw [principalHalt, principal, decide_eq_false (Nat.not_lt.2 hc)]
  rfl

/-- What ends in t still ends in t with an entry set once the entry is set. -/
theorem State.ends_idxSet {s u t : State} (h : s.ends u = .next t) (i sub v : Nat) :
    s.ends (u.idxSet i sub v) = .next (t.idxSet i sub v) := by
  cases h
  rfl

variable (hwait : (s.core c).runAhead = false)
include hwait

/-- Both wait while a landed request does: the core stays at its instruction (log entries 7 and 47). -/
theorem execIdxr_waits (hreq : s.switch.requests ≠ []) (h : Takes s c 0x0F w f) : execIdxr c s = .next s := by
  refine State.ends_self ?_
  rw [State.onInstr_of_taken h (by rw [hwait]; rfl), State.orHalt_of_none (controlReserved_of_takes h), switch_of_taken h,
    if_pos (by simpa)]

theorem execIdxr_reads (hregs : fwf 0 (s.core c).regs = true) (hreq : s.switch.requests = []) (h : Takes s c 0x0F w f)
    (hread : (f.taking c).coreRead (wEntry w).1 (wEntry w).2 = some v) (hd : wRd w ≠ 0) (hb : wRb w ≠ 0) (hne : wRd w ≠ wRb w) :
    ∃ t, execIdxr c s = .next t ∧ OnlyCore c f t ∧ GoesOn c ((s.core c).pc + 1) w s t ∧ (t.core c).reg (wRd w) = v % 2 ^ 64 ∧
      (t.core c).reg (wRb w) = 0 ∧ ∀ k, k ≠ wRd w → k ≠ wRb w → (t.core c).reg k = (s.core c).reg k := by
  have hrun := running_of_takes h
  have hvalue := (Amid.taking h).setReg hrun (wRd w) v
  have hstatus := hvalue.setReg ((Core.setReg_run _ _ _).trans hrun) (wRb w) 0
  have hx := Core.setReg_eq (s.core c) (wRd w) v
  have hy := Core.setReg_eq ((s.core c).setReg (wRd w) v) (wRb w) 0
  obtain ⟨t, he, hone, hgo, hr, -⟩ := ends_of_advance h hstatus (hy.trans (by rw [hy, hx])) ((s.core c).pc + 1)
  have hreg := Core.reg_of_regs hr
  have hwf := Core.fwf_setReg hregs (wRd w) v
  have hpc : (((f.taking c).setCore c (((f.taking c).core c).setReg (wRd w) v)).core c).pc = (s.core c).pc :=
    hvalue.pc.trans (by rw [hx])
  refine ⟨t, ?_, hone, hgo, ?_, ?_, fun k hkd hkb => ?_⟩
  · rw [execIdxr, State.onInstr_of_taken h (by rw [hwait]; rfl), State.orHalt_of_none (controlReserved_of_takes h),
      switch_of_taken h, if_neg (by simp [hreq])]
    dsimp only
    rw [hread, State.setRegGo, State.nextPc, hpc]
    exact he
  · rw [hreg, Core.reg_setReg_ne _ hne, Core.reg_setReg_self hregs hd]
  · rw [hreg, Core.reg_setReg_self hwf hb]
    rfl
  · rw [hreg, Core.reg_setReg_ne _ hkb, Core.reg_setReg_ne _ hkd]

theorem execIdxr_refuses (hregs : fwf 0 (s.core c).regs = true) (hreq : s.switch.requests = []) (h : Takes s c 0x0F w f)
    (hread : (f.taking c).coreRead (wEntry w).1 (wEntry w).2 = none) :
    ∃ t, execIdxr c s = .next t ∧ OnlyCore c f t ∧ GoesOn c ((s.core c).pc + 1) w s t ∧ RegSet c (wRb w) 1 s t := by
  have hg := Amid.taking h
  obtain ⟨t, he, hone, hgo, hset, -⟩ := ends_of_setRegGo h hregs (hg.setCore (running_of_takes h) hg.self) (wRb w) (v := 1) rfl
  refine ⟨t, ?_, hone, hgo, hset⟩
  rw [execIdxr, State.onInstr_of_taken h (by rw [hwait]; rfl), State.orHalt_of_none (controlReserved_of_takes h),
    switch_of_taken h, if_neg (by simp [hreq])]
  dsimp only
  rw [hread]
  exact he

theorem execIdxw_waits (hreq : s.switch.requests ≠ []) (h : Takes s c 0x10 w f) (hc : c.val % 8 < 2) : execIdxw c s = .next s := by
  refine State.ends_self ?_
  rw [State.onInstr_of_taken h (by rw [hwait]; rfl), State.orHalt_of_none (principalHalt_of_principal h hc rfl), switch_of_taken h,
    if_pos (by simpa)]

theorem execIdxw_refuses (hregs : fwf 0 (s.core c).regs = true) (hreq : s.switch.requests = []) (h : Takes s c 0x10 w f)
    (hc : c.val % 8 < 2) (hwrite : (f.taking c).coreWrite (wEntry w).1 (wEntry w).2 ((s.core c).reg (wRa w)) = none) :
    ∃ t, execIdxw c s = .next t ∧ OnlyCore c f t ∧ GoesOn c ((s.core c).pc + 1) w s t ∧ RegSet c (wRd w) 1 s t := by
  rw [execIdxw, State.onInstr_of_taken h (by rw [hwait]; rfl), State.orHalt_of_none (principalHalt_of_principal h hc rfl),
    switch_of_taken h, if_neg (by simp [hreq]), (Amid.taking h).reg]
  dsimp only
  rw [hwrite]
  obtain ⟨t, he, hone, hgo, hset, -⟩ := ends_of_setRegGo h hregs (.taking h) (wRd w) (v := 1) rfl
  exact ⟨t, he, hone, hgo, hset⟩

theorem execIdxw_sets (hregs : fwf 0 (s.core c).regs = true) (hcanon : Canonical s) (hreq : s.switch.requests = [])
    (h : Takes s c 0x10 w f) (hc : c.val % 8 < 2) (hplain : Plain (wEntry w).1 (wEntry w).2) {d : Bytes}
    (hwrite : (f.taking c).coreWrite (wEntry w).1 (wEntry w).2 ((s.core c).reg (wRa w)) = some d) :
    ∃ t, execIdxw c s = .next t ∧ GoesOn c ((s.core c).pc + 1) w s t ∧ RegSet c (wRd w) 0 s t ∧
      t.idx (wEntry w).1 (wEntry w).2 = beNat d ∧ (∀ k, k ≠ c.val → t.core k = s.core k) ∧ t.mem = f.mem ∧ t.ports = s.ports := by
  obtain ⟨e, hentry, hnumeric⟩ := isBytes_of_coreWrite hwrite
  obtain ⟨t, he, ⟨hone, hothers⟩, hgo, hset, -⟩ := ends_of_setRegGo h hregs (.taking h) (wRd w) (v := 0) rfl
  have hports : f.ports = s.ports := by
    obtain ⟨n, i, m, rfl⟩ := ReadsOnly.of_takes h
    rfl
  have hindex : indexWf t.index = true := by
    obtain ⟨-, -, -, -, hwf⟩ := hcanon
    rw [show t.index = f.index from (congrArg State.index hone :)]
    exact (Reads.of_takes h).wf hwf
  refine ⟨t.idxSet (wEntry w).1 (wEntry w).2 (beNat d), ?_, hgo, hset, State.idx_idxSet_self hindex _ _ _, fun k hk => ?_,
    (congrArg State.mem hone :), (congrArg State.ports hone :).trans hports⟩
  · rw [execIdxw, State.onInstr_of_taken h (by rw [hwait]; rfl), State.orHalt_of_none (principalHalt_of_principal h hc rfl),
      switch_of_taken h, if_neg (by simp [hreq]), (Amid.taking h).reg]
    dsimp only
    rw [hwrite]
    dsimp only
    rw [State.applyWrite_of_numeric _ hentry hnumeric, State.applyNumber_of_plain hplain]
    exact State.ends_idxSet he _ _ _
  · exact (hothers k hk).trans ((ReadsOnly.of_takes h).core k)

theorem execIdxw_halts (h : Takes s c 0x10 w f) (hc : 2 ≤ c.val % 8) (hq : Quiet s) :
    ∃ t, execIdxw c s = .next t ∧ OnlyCore c f t ∧ Halts c 0x0C 0 s t := by
  rw [execIdxw, State.onInstr_of_taken h (by rw [hwait]; rfl), principalHalt_of_subordinate hc]
  exact ends_of_halt h hq (.taking h) rfl rfl (by decide) 0 _ _ _

/-! ### PSTATE (R360, R410) -/

theorem execPstate_halts (h : Takes s c 0x11 w f) (hc : 2 ≤ c.val % 8) (hq : Quiet s) :
    ∃ t, execPstate c s = .next t ∧ OnlyCore c f t ∧ Halts c 0x0C 0 s t := by
  rw [execPstate, State.onInstr_of_taken h (by rw [hwait]; rfl), principalHalt_of_subordinate hc]
  exact ends_of_halt h hq (.taking h) rfl rfl (by decide) 0 _ _ _

theorem execPstate_requests (h : Takes s c 0x11 w f) (hc : c.val % 8 < 2) (hsub : wSub w ≤ 2) :
    ∃ t, execPstate c s = .next t ∧ GoesOn c ((s.core c).pc + 1) w s t ∧ (t.core c).regs = (s.core c).regs ∧
      t.clock = { s.clock with bindingReq := if s.boot.state = 2 then wSub w else s.clock.bindingReq } ∧
      (∀ k, k ≠ c.val → t.core k = s.core k) ∧ t.power = s.power := by
  have hreq : (if (f.taking c).firmwareRunning then
        { f.taking c with clock := { (f.taking c).clock with bindingReq := wSub w } } else f.taking c) =
      { f.taking c with clock := { s.clock with bindingReq := if s.boot.state = 2 then wSub w else s.clock.bindingReq } } := by
    obtain ⟨n, i, m, rfl⟩ := ReadsOnly.of_takes h
    by_cases hb : s.boot.state = 2
    · rw [if_pos (by rw [State.firmwareRunning]; exact beq_iff_eq.2 hb), if_pos hb]
      rfl
    · rw [if_neg (by rw [State.firmwareRunning]; exact fun he => hb (beq_iff_eq.1 he)), if_neg hb]
      rfl
  have hpower : f.power = s.power := by
    obtain ⟨n, i, m, rfl⟩ := ReadsOnly.of_takes h
    rfl
  obtain ⟨t, he, hgo, hregs, hothers, ht⟩ := ends_of_effect h (u := { f.taking c with
    clock := { s.clock with bindingReq := if s.boot.state = 2 then wSub w else s.clock.bindingReq } }) rfl rfl rfl
  refine ⟨t, ?_, hgo, hregs, (congrArg State.clock ht :), hothers, (congrArg State.power ht :).trans hpower⟩
  rw [execPstate, State.onInstr_of_taken h (by rw [hwait]; rfl),
    State.orHalt_of_none (principalHalt_of_principal h hc (by rw [decide_eq_false (by omega)]; rfl))]
  dsimp only
  rw [hreq, State.nextPc, show ∀ clock, ({ f.taking c with clock := clock } : State).core c = (f.taking c).core c from fun _ => rfl,
    (Amid.taking h).pc]
  exact he

end Index

/-- Settles O48: a read and its status are two writes of registers; an accepted write is one of a register and one of the Index. -/
theorem coresReachTheIndexAndTheStep : Obligations.CoresReachTheIndexAndTheStep := by
  unfold Obligations.CoresReachTheIndexAndTheStep
  refine ⟨fun s f g c w v hwait hregs hcanon hg => ?_, fun s f c w h hwait => ⟨?_, ?_⟩⟩
  · subst hg
    refine ⟨fun hreq => ⟨?_, ?_, ?_, fun d h hc hp hw => ?_⟩, ?_, ?_, ?_⟩
    · exact execIdxr_reads hwait hregs hreq
    · exact execIdxr_refuses hwait hregs hreq
    · exact execIdxw_refuses hwait hregs hreq
    · exact execIdxw_sets hwait hregs hcanon hreq h hc hp hw
    · exact execIdxr_waits hwait
    · exact execIdxw_waits hwait
    · exact execIdxw_halts hwait
  · exact execPstate_requests hwait h
  · exact execPstate_halts hwait h

end Sys2Proof.Machine
end

section
/-!
SUPPORT. What a core stalled by a full queue keeps of its record (R142, R191), and the refutation of O50.
-/
namespace Sys2Proof.Machine

open Sys2Proof

/-! ### A full queue (R142) -/

/-- A command that passes its checks finds its queue full on a principal core: the core stalls with it, at its instruction. -/
theorem State.issue_of_full_queue {s : State} {c w : Nat} {h : Header} (hfull : 64 ≤ (s.queueOf c h.unit).length)
    (hc : principal c = true) (d a : Nat) (vs : List Nat) :
    s.issue c w h d a vs none = s.setCore c { s.core c with stalled := some (Cmd.make c w h d a vs) } := by
  rw [State.issue, State.orHalt_of_none rfl, if_neg (Nat.not_lt.2 hfull), if_pos hc]

/-- A core that has fetched holds the region of its program counter (R191). -/
theorem State.core_taking {s f : State} {c : CoreId} {op w : Nat} (h : Takes s c op w f) :
    (f.taking c).core c = (s.core c).holdRegion := by
  obtain ⟨r, hr⟩ := Core.holdRegion_eq (s.core c)
  have hrun : (s.core c).holdRegion.run = .running := (congrArg Core.run hr).trans (running_of_takes h)
  rw [State.taking, (ReadsOnly.of_takes h).core]
  exact State.core_setCore_listed f c (Core.ne_reset_of_running hrun)

/-- A COPY that finds its queue full stalls its core, which holds the region of its program counter from the fetch on. -/
theorem execCopy_of_full_queue {s f : State} {c : CoreId} {w d : Nat} {h : Header} (ht : Takes s c 0x60 w f)
    (hh : h = header (s.core c) w) (hd : d = fget 0 (s.core c).descs h.desc) (hfull : 64 ≤ (s.queueOf c h.unit).length)
    (hchecks : f.copyChecks w h d = none) (hc : c.val % 8 < 2) :
    ∃ t, execCopy c s = .next t ∧ OnlyCore c f t ∧
      t.core c = { (s.core c).holdRegion with stalled := some (Cmd.make c w h d 0 []) } := by
  have hg := Amid.taking ht
  have hheader : header ((f.taking c).core c) w = h := (hg.reads (header · w) fun _ _ => rfl).trans hh.symm
  have hfull' : 64 ≤ ((f.taking c).queueOf c h.unit).length := by
    rwa [State.queueOf, hg.cmds (.of_takes ht), ← State.queueOf]
  have hrun : (s.core c).holdRegion.run = .running := by
    rw [← State.core_taking ht]
    exact (hg.reads Core.run fun _ _ => rfl).trans (running_of_takes ht)
  have hone := hg.only.trans (.setCore c _ { (s.core c).holdRegion with stalled := some (Cmd.make c w h d 0 []) })
  refine ⟨_, ?_, hone, State.core_setCore_listed _ _ (Core.ne_reset_of_running (x := { (s.core c).holdRegion with stalled := _ }) hrun)⟩
  rw [execCopy, State.onCommand_of_taken ht, hheader, hg.descs, ← hd,
    show (f.taking c).copyChecks w h d = none from hchecks, State.issue_of_full_queue hfull' (decide_eq_true hc), State.core_taking ht]
  exact State.ends_of_onlyCore (.of_takes ht) hone

/-! ### A core whose first instruction stalls it -/

/-- A COPY for copy engine 0x90 with descriptor 0. -/
def stallingWord : Nat := 0x60 * 2 ^ 120 + 0x90 * 2 ^ 112

/-- Core 0 runs at instruction 0 of region 0, which holds the COPY, and has not held a region yet; its queue at copy engine 0x90
is full, and descriptor 0 addresses with generators 0 and 1 and has no level. -/
def stallingState : State :=
  { State.reset with
    mem := { State.reset.mem with cells := [(imemBase + 14, 0x90), (imemBase + 15, 0x60)] }
    cores := { State.reset.cores with
      cores := [(0, { Core.reset with run := .running, regions := 1, descs := [(0, 2 ^ 123 + 2 ^ 124)] })]
      cmds := List.replicate 64 (Cmd.make 0 stallingWord ⟨0x90, 0xFFFFFFFF, 0⟩ 0 0 []) } }

theorem fetchWord_stallingState : stallingState.fetchWord 0 = (stallingState, stallingWord, false) := by
  have hl : InLimits stallingState := by decide
  have hword : leNat (stallingState.wordBytes (imemBase / 16)) = stallingWord := by decide
  rw [State.fetchWord, show instrAddress 0 (stallingState.core 0).pc / 16 = imemBase / 16 by decide,
    State.readWord_clean hl (State.pattern_of_sound rfl _), hword]

theorem takes_stallingState : Takes stallingState (0 : CoreId) 0x60 stallingWord stallingState :=
  ⟨by decide, by decide, fetchWord_stallingState, by decide, by decide⟩

section Addressless

variable {d : Nat} (h : d < 2 ^ 256)
include h

/-- The generators' words stand above the first 256 bits of a descriptor (Table 6.6). -/
theorem bits_generator_eq_zero {hi lo : Nat} (hlo : 256 ≤ lo) : bits d hi lo = 0 := by
  rw [bits, Nat.div_eq_of_lt (Nat.lt_of_lt_of_le h (Nat.pow_le_pow_right (by decide) hlo)), Nat.zero_mod]

theorem dStride_eq_zero (g l : Nat) : dStride d g l = 0 := by
  simp only [dStride]
  rw [bits_generator_eq_zero h (by unfold dGen; omega), bits_generator_eq_zero h (by unfold dGen; omega),
    bits_generator_eq_zero h (by unfold dGen; omega), ite_self, ite_self]
  rfl

theorem dPitch_eq_zero (g : Nat) : dPitch d g = 0 := bits_generator_eq_zero h (by unfold dGen; omega)

theorem dGenZero_eq_true (g : Nat) : dGenZero d g = true := by
  rw [dGenZero, bits_generator_eq_zero h (by unfold dGen; omega)]
  rfl

end Addressless

theorem copyChecks_stallingState :
    stallingState.copyChecks stallingWord ⟨0x90, 0xFFFFFFFF, 0⟩ (2 ^ 123 + 2 ^ 124) = none := by
  have hlt : 2 ^ 123 + 2 ^ 124 < 2 ^ 256 := by decide
  have hrules : dRules (2 ^ 123 + 2 ^ 124) false = none := by
    unfold dRules
    simp only [dStride_eq_zero hlt, dGenZero_eq_true hlt]
    decide
  have hroles : dRoles (2 ^ 123 + 2 ^ 124) [⟨true, false⟩, ⟨true, false⟩, ⟨false, false⟩, ⟨false, false⟩] = none := by
    unfold dRoles
    simp only [dPitch_eq_zero hlt]
    decide
  have hidle : dCount (2 ^ 123 + 2 ^ 124) = 0 := by decide
  unfold State.copyChecks
  simp only [hrules, hroles, hidle, if_true]
  decide

/-- Refutes O50: a core that does not yet hold the region of its program counter and stalls with a COPY holds it from the fetch on
(R191), where the statement has its record but for the stalled command as it was. -/
theorem not_commandsEnterTheirQueues : ¬ Obligations.CommandsEnterTheirQueues := by
  unfold Obligations.CommandsEnterTheirQueues
  intro hall
  have hfull : 64 ≤ (stallingState.queueOf (0 : CoreId) 0x90).length := by decide
  obtain ⟨-, hstalls, -⟩ := hall stallingState stallingState 0 stallingWord (2 ^ 123 + 2 ^ 124) 0 ⟨0x90, 0xFFFFFFFF, 0⟩
    (by decide) (by decide)
  obtain ⟨hprincipal, -⟩ := hstalls hfull takes_stallingState copyChecks_stallingState
  obtain ⟨t, he, -, hclaimed⟩ := hprincipal (by decide)
  obtain ⟨u, he', -, hcore⟩ := execCopy_of_full_queue takes_stallingState (by decide) (by decide) hfull copyChecks_stallingState
    (by decide)
  obtain rfl : t = u := Host.Outcome.next.inj (he.symm.trans he')
  exact absurd (congrArg Core.refs (hclaimed.symm.trans hcore)) (by decide)

end Sys2Proof.Machine
end

section
/-!
SUPPORT. Synchronization points and recorded SIGs: when a point holds, what its commit leaves of the core (R177, R178), the
application of a SIG (R147), and the settlement of O47.
-/
namespace Sys2Proof.Machine

open Sys2Proof

/-! ### When a point holds (R177) -/

section PointHolds

variable (s : State) (c : Nat) {e : WinEntry}

theorem State.pointHolds_sync {u : Nat} (h : e.point = some (.sync u)) : s.pointHolds c e = true ↔
    ∀ k ∈ s.cores.cmds, k.core = c → k.serial < e.serial → u = 0xFF ∨ k.unit = u → k.phase = .done := by
  rw [State.pointHolds, h]
  simp [imp_iff_not_or, or_assoc]

theorem State.pointHolds_waitc {n v : Nat} (h : e.point = some (.waitc n v)) :
    s.pointHolds c e = true ↔ v ≤ fget 0 s.cores.syncs n := by
  rw [State.pointHolds, h]
  exact decide_eq_true_iff

theorem State.pointHolds_waitst {n g : Nat} {d : Bool} (h : e.point = some (.waitst n d g)) :
    s.pointHolds c e = true ↔ n ≤ s.clock.stitch := by
  rw [State.pointHolds, h]
  exact decide_eq_true_iff

end PointHolds

/-! ### The commit of the oldest point (R177, R178) -/

/-- Core x behind its oldest point, which rest follows: the window begins at the next point. -/
def Core.pastPoint (x : Core) (rest : List WinEntry) : Core :=
  { x with window := rest.dropWhile (fun r => r.point.isNone), syncDone := x.syncDone + 1 }

/-- Besides its references, a commit touches the proof unit's marks alone (R191, R397, R399). -/
theorem State.trimRefs_markBase (s : State) (x : Core) (e : WinEntry) :
    ∃ refs p h, (s.markBase x e).trimRefs = { x with refs := refs, proofBase := p, handBase := h } := by
  unfold State.markBase
  split
  · split <;> exact ⟨_, _, _, rfl⟩
  · exact ⟨_, _, _, rfl⟩

section Commit

variable {s : State} {c : CoreId} {e : WinEntry} {rest : List WinEntry} (hw : (s.core c).window = e :: rest)
include hw

theorem State.commit_of_endPoint (he : e.point = some .endPoint) :
    s.commit c = s.setCore c { (s.core c).pastPoint rest with run := .ended, window := [], refs := [] } := by
  have hmark : ∀ x, s.markBase x e = x := fun x => by rw [State.markBase, he]
  simp only [State.commit, hw, hmark, he, if_true]
  rfl

/-- A point other than an END leaves the core behind it, where the next one is not late (R180). -/
theorem State.commit_of_point (he : e.point ≠ some .endPoint) (hrun : (s.core c).run = .running)
    (hlate : ∀ r, (rest.dropWhile (fun r => r.point.isNone)).head? = some r → s.late r.point = false) :
    ∃ refs p h, s.commit c = s.setCore c { (s.core c).pastPoint rest with refs := refs, proofBase := p, handBase := h } := by
  obtain ⟨refs, p, h, hmark⟩ := s.trimRefs_markBase ((s.core c).pastPoint rest) e
  have hcommit : s.commit c = (s.setCore c (s.markBase ((s.core c).pastPoint rest) e).trimRefs).judge c := by
    simp only [State.commit, hw, he, if_false]
    rfl
  refine ⟨refs, p, h, ?_⟩
  rw [hcommit, hmark]
  refine State.judge_of_not_late fun r tail hwin => hlate r ?_
  rw [State.core_setCore_listed _ _ (Core.ne_reset_of_running (by exact hrun))] at hwin
  exact congrArg List.head? hwin

theorem execSyncPointCommit_of_open (h : s.pointHolds c e = false) : execSyncPointCommit c s = .next s := by
  refine State.ends_self ?_
  rw [hw]
  exact if_neg (by simp [h])

variable (hrun : (s.core c).run = .running) (hholds : s.pointHolds c e = true)
include hrun hholds

theorem execSyncPointCommit_of_holds : execSyncPointCommit c s = s.ends (s.commit c) := by
  rw [execSyncPointCommit, hw]
  exact congrArg _ (if_pos (by simp [hrun, hholds]))

theorem execSyncPointCommit_ends (he : e.point = some .endPoint) : ∃ t, execSyncPointCommit c s = .next t ∧ OnlyCore c s t ∧
    t.core c = { (s.core c).pastPoint rest with run := .ended, window := [], refs := [] } := by
  rw [execSyncPointCommit_of_holds hw hrun hholds, State.commit_of_endPoint hw he]
  exact ⟨_, State.ends_of_fixed rfl rfl, .setCore _ _ _,
    State.core_setCore_listed _ _ fun h => nomatch (congrArg Core.run h : CoreRun.ended = CoreRun.idle)⟩

theorem execSyncPointCommit_goes_on (he : e.point ≠ some .endPoint)
    (hlate : ∀ r, (rest.dropWhile (fun r => r.point.isNone)).head? = some r → s.late r.point = false) :
    ∃ t refs p h, execSyncPointCommit c s = .next t ∧ OnlyCore c s t ∧
      t.core c = { (s.core c).pastPoint rest with refs := refs, proofBase := p, handBase := h } := by
  obtain ⟨refs, p, h, hcommit⟩ := State.commit_of_point hw he hrun hlate
  rw [execSyncPointCommit_of_holds hw hrun hholds, hcommit]
  exact ⟨_, refs, p, h, State.ends_of_fixed rfl rfl, .setCore _ _ _, State.core_setCore_listed _ _ (Core.ne_reset_of_running hrun)⟩

end Commit

/-! ### SIG_APPLY (R147, R178) -/

/-- Outside proofing an increment is one write of the sync counter, up to its largest value, and the tiles that the write marks. -/
theorem State.applySig_of_unproofed {s : State} (h : s.proofing = false) (n : Nat) :
    ∃ b, s.applySig n = { s with binding := b, cores := { s.cores with
      syncs := fset 0 s.cores.syncs n (min (fget 0 s.cores.syncs n + 1) (2 ^ 64 - 1)) } } := by
  refine ⟨_, if_neg ?_⟩
  have : (s.setSync n (fget 0 s.cores.syncs n + 1)).proofing = s.proofing := rfl
  simp [this, h]

section Sigs

variable {s : State} {c : CoreId} {g : SigRec} {rest : List SigRec} (hsigs : (s.core c).sigs = g :: rest)
include hsigs

theorem execSigApply_waits (h : (s.core c).syncDone < g.behind) : execSigApply c s = .next s := by
  refine State.ends_self ?_
  rw [hsigs]
  exact if_pos (by simp [h])

theorem execSigApply_applies (hd : (s.core c).declared = true) (hbehind : g.behind ≤ (s.core c).syncDone)
    (hdone : ∀ k ∈ s.cores.cmds, k.core = c.val → k.serial < g.serial → k.phase = .done) (hp : s.proofing = false)
    (hwf : fwf 0 s.cores.syncs = true) :
    ∃ t, execSigApply c s = .next t ∧ fget 0 t.cores.syncs g.counter = min (fget 0 s.cores.syncs g.counter + 1) (2 ^ 64 - 1) ∧
      (∀ n, n ≠ g.counter → fget 0 t.cores.syncs n = fget 0 s.cores.syncs n) ∧ t.core c = { s.core c with sigs := rest } ∧
      (∀ j, j ≠ c.val → t.core j = s.core j) ∧ t.cores.cmds = s.cores.cmds ∧ t.mem = s.mem ∧ t.ctxs = s.ctxs := by
  have hgo : execSigApply c s = s.ends ((s.setCore c { s.core c with sigs := rest }).applySig g.counter) := by
    have hready : s.cores.cmds.any (fun k => k.core == c.val && decide (k.serial < g.serial) && k.phase != .done) = false := by
      simpa using hdone
    rw [execSigApply]
    dsimp only
    rw [hsigs]
    exact congrArg _ (if_neg (by simp [hready, Nat.not_lt.2 hbehind]))
  obtain ⟨b, happly⟩ := State.applySig_of_unproofed (s := s.setCore c { s.core c with sigs := rest }) hp g.counter
  rw [hgo, happly]
  refine ⟨_, State.ends_of_fixed rfl rfl, fget_fset_self hwf _ _, fun n hn => fget_fset_ne 0 _ _ hn, ?_, fun j hj => ?_, rfl, rfl, rfl⟩
  · exact State.core_setCore_listed s c (Core.ne_reset_of_declared (x := { s.core c with sigs := rest }) hd)
  · exact State.core_setCore_ne s _ hj

end Sigs

/-- Settles O47: a commit and a SIG each write the record of one core, and a SIG one sync counter besides. -/
theorem pointsAndSigsTakeEffectInOrder : Obligations.PointsAndSigsTakeEffectInOrder := by
  unfold Obligations.PointsAndSigsTakeEffectInOrder
  refine ⟨fun s c e rest hw hrun => ⟨fun hholds he => ?_, fun hholds he hlate => ?_, execSyncPointCommit_of_open hw,
    fun _ => s.pointHolds_sync c, fun _ _ => s.pointHolds_waitc c, fun _ _ _ => s.pointHolds_waitst c⟩,
    fun s c g rest hsigs => ⟨execSigApply_applies hsigs, execSigApply_waits hsigs⟩⟩
  · obtain ⟨t, hexec, honly, hcore⟩ := execSyncPointCommit_ends hw hrun hholds he
    exact ⟨t, hexec, honly, by simp [hcore, Core.pastPoint]⟩
  · obtain ⟨t, refs, p, h, hexec, honly, hcore⟩ := execSyncPointCommit_goes_on hw hrun hholds he hlate
    exact ⟨t, hexec, honly, by simp [hcore, Core.pastPoint, hrun]⟩

end Sys2Proof.Machine
end

section
/-!
SUPPORT. Cores and rings by command: a block write of one numeric entry (R340, R350), the stop of a core and the squash of its
command (R181, R182), the consumer index of a ring (R185, R186), and the settlement of O36.
-/
namespace Sys2Proof.Machine

open Sys2Proof

/-! ### A block write of one numeric entry (R340, R350) -/

section Numeric

variable {s : State} (hs : Serves s) {i sub : Nat} {e : EntryDef} (he : entryOf i sub = some e) (hi : i < 0xA000)
  (hx : e.TakesNumbers) {b : Bytes} (hb : b.length = e.type.size)
include hs he hi hx hb

/-- Below the locked security range the entry's own rule decides on a record of its size. -/
theorem State.writeStatus_of_numeric (s0 : State) (block : Bool) (group : List (Nat × Nat)) :
    s.writeStatus s0 block group i sub b = s.numericStatus s0 group i sub (beNat b) := by
  obtain ⟨-, hrails⟩ := hs
  obtain ⟨haccess, hn, hbool⟩ := hx
  have hans : s.answers i = true := by simp [State.answers, hrails]
  have hright : s.rightOf e i = e.access := if_neg (by simp; omega)
  have hfree : s.writeForbidden e i = false := by
    unfold State.writeForbidden
    rw [hright]
    obtain h | h := haccess <;> rw [h]
  simp [State.writeStatus, he, hans, hfree, hn, hbool, hb]

theorem State.write_of_numeric (hi' : i ≠ 0x7011) (h : s.numericStatus s [(i, sub)] i sub (beNat b) = 0) :
    s.write [(i, sub, b)] = (s.applyNumber i sub (beNat b)).noteAccess 0 [] := by
  obtain ⟨-, hn, -⟩ := id hx
  have hst := (State.writeStatus_of_numeric hs he hi hx hb s true [(i, sub)]).trans h
  obtain ⟨hserved, -⟩ := hs
  refine State.write_of_applied hserved (by simpa using hi') ((State.foldWrites_cons_of_accepted hst [] 0).trans ?_)
  exact congrArg (·, none) (s.applyWrite_of_numeric he hn b)

theorem State.write_of_refused_number (hi' : i ≠ 0x7011) {st : Nat} (h : s.numericStatus s [(i, sub)] i sub (beNat b) = st)
    (hne : st ≠ 0) : s.write [(i, sub, b)] = s.noteAccess st [] := by
  have hst : s.writeStatus s true (recordGroup (commandRecords [(i, sub, b)])) i sub b = st :=
    (State.writeStatus_of_numeric hs he hi hx hb s true [(i, sub)]).trans h
  obtain ⟨hserved, -⟩ := hs
  rw [State.write_of_refused_head hserved (by simpa using hi') (by rwa [hst]), hst]

end Numeric

/-! ### The stop of a core (R182) -/

/-- What a stop makes of a core: what a halt makes of it, but for the run state. -/
def Core.stopped (x : Core) (record : List Nat) : Core := { x.halted record with run := .stopped }

theorem Core.stopped_ne_reset (x : Core) (record : List Nat) : x.stopped record ≠ Core.reset := fun e =>
  nomatch (congrArg Core.run e : CoreRun.stopped = CoreRun.idle)

theorem State.stopCore_of_running {s : State} {c : Nat} (h : (s.core c).run = .running) : ∃ record : List Nat,
    s.stopCore c = (s.setCore c ((s.core c).stopped record)).squashAll c ∧ record.getD 1 0 = s.clock.stitch % 2 ^ 64 :=
  ⟨_, if_pos h, rfl⟩

/-- Without contexts nothing settles. -/
theorem State.settle_of_no_contexts {s : State} (h : s.ctxs = []) (named : Option Nat) : s.settle named = s := by
  rw [State.settle, h]
  rfl

theorem entryOf_stop (c : CoreId) : entryOf 0x5073 c = some ⟨0x5073, 0x5073, 0x00, 0x1F, .u8, .wo⟩ := by
  revert c
  decide

section StopCore

variable {s : State} (hs : Serves s) {c : CoreId}
include hs

theorem execStopCore_eq : execStopCore c s = s.ends (((s.stopCore c).settle none).noteAccess 0 []) :=
  congrArg s.ends (State.write_of_numeric hs (entryOf_stop c) (by decide) (by decide) rfl (by decide) rfl)

theorem execRegisterWrite_refuses_other_stop {b : Byte} (h : b ≠ 1) :
    execRegisterWrite 0x5073 (BitVec.ofNat 8 c) [b] s = .next (s.noteAccess 1 []) := by
  have hsub : (BitVec.ofNat 8 c).toNat = c := by
    rw [BitVec.toNat_ofNat]
    omega
  have hvalue : beNat [b] ≠ 1 := fun hv => h (BitVec.eq_of_toNat_eq (by simpa [beNat, leNat] using hv))
  have hst : s.numericStatus s [(0x5073, c.val)] 0x5073 c (beNat [b]) = 1 := by
    simp [State.numericStatus, State.refusesCompute, hvalue, b2n]
  have hw := State.write_of_refused_number hs (entryOf_stop c) (by decide) (by decide) (b := [b]) rfl (by decide) hst (by decide)
  rw [execRegisterWrite, hsub]
  exact (congrArg s.ends hw).trans (State.ends_of_fixed rfl rfl)

theorem execStopCore_of_not_running (hctxs : s.ctxs = []) (h : (s.core c).run ≠ .running) :
    execStopCore c s = .next (s.noteAccess 0 []) := by
  have hstop : s.stopCore c = s := if_neg h
  rw [execStopCore_eq hs, hstop, State.settle_of_no_contexts hctxs]
  exact State.ends_of_fixed rfl rfl

/-- With no command in the queues the stop touches the core's record alone. -/
theorem execStopCore_of_quiet (hq : Quiet s) (h : (s.core c).run = .running) : ∃ record : List Nat,
    execStopCore c s = .next ((s.setCore c ((s.core c).stopped record)).noteAccess 0 []) ∧
      record.getD 1 0 = s.clock.stitch % 2 ^ 64 := by
  obtain ⟨hcmds, hctxs⟩ := hq
  obtain ⟨record, hstop, hrecord⟩ := State.stopCore_of_running h
  refine ⟨record, ?_, hrecord⟩
  rw [execStopCore_eq hs, hstop, State.squashAll_of_no_commands (s := s.setCore c _) hcmds,
    State.settle_of_no_contexts (s := s.setCore c _) hctxs]
  exact State.ends_of_fixed rfl rfl

end StopCore

/-! ### The squash of a command (R181, step 5) -/

/-- From s to t the Index store stays canonical, and the count of core c's squashed commands stands. -/
structure SquashCountStands (c : Nat) (s t : State) : Prop where
  wf : indexWf s.index = true → indexWf t.index = true
  count : t.idx 0x5069 c = s.idx 0x5069 c

namespace SquashCountStands

variable {c : Nat} {s t u : State}

theorem of_index (h : t.index = s.index) : SquashCountStands c s t :=
  ⟨fun hw => by rwa [h], by rw [State.idx, h, State.idx]⟩

theorem trans (h : SquashCountStands c s t) (k : SquashCountStands c t u) : SquashCountStands c s u :=
  ⟨fun hw => k.wf (h.wf hw), k.count.trans h.count⟩

theorem add (h : SquashCountStands c s t) (off n : Nat) : SquashCountStands c s (t.colophonAdd off n) := h.trans (of_index rfl)

theorem flag (h : SquashCountStands c s t) (b : Nat) : SquashCountStands c s (t.colophonFlag b) := by
  refine h.trans (of_index ?_)
  unfold State.colophonFlag
  split <;> rfl

theorem count_other (h : SquashCountStands c s t) (hc : c < 256) {i : Nat} (hi : i ≠ 0x5069) (n : Nat) :
    SquashCountStands c s (t.count i 0 n) :=
  h.trans ⟨fun hw => State.indexWf_idxSet hw _ _ _, State.idx_idxSet_ne t _ fun hk => hi (ikey_inj hc (by decide) hk).1.symm⟩

end SquashCountStands

theorem State.core_freed_of_stopped {s : State} {c : Cmd} (h : (s.core c.core).run = .stopped) :
    (s.freed c).core c.core = (s.core c.core).completed c.unit :=
  State.core_setCore_listed s c.core fun e => nomatch h.symm.trans (congrArg Core.run e :)

/-- The summary record of a finished command c of such a core is taken as written, and none is left to write (R186). -/
theorem State.writeRecords_summary_of_stopped {s : State} {c : Cmd} (hr : (s.core c.core).Ringless)
    (hrun : (s.core c.core).run = .stopped) {t u : State} {bs : Bytes} (hu : u = s.setCmd c)
    (ht : t = u.pushRecord c.core c.serial c.unit true bs) : t.writeRecords c.core (t.core c.core).records.length = s.freed c := by
  obtain rfl : t = s.freed c := by rw [ht, hu, State.pushSummary_of_ringless hr]
  rw [State.core_freed_of_stopped hrun, show ((s.core c.core).completed c.unit).records = [] from hr.2]
  rfl

/-- A squashed command of a core without a ring leaves its queue at once, and is counted for its core (R173, R205). -/
theorem State.finishCmd_of_squashed {s : State} {c : Cmd} (hr : (s.core c.core).Ringless) (hrun : (s.core c.core).run = .stopped)
    (hc : c.core < 256) (hf : c.failed = []) : Totals (s.freed c) (s.finishCmd c 2 0) ∧
      (indexWf s.index = true → bits ((s.finishCmd c 2 0).idx 0x5069 c.core) 63 0 =
        min (bits (s.idx 0x5069 c.core) 63 0 + 1) (2 ^ 64 - 1)) := by
  unfold State.finishCmd
  extract_lets failed st ca squashed k skipped audited missed done s0 s1 s2 s3 t1 t2 t3 t4 t5 t6 t7 t8 t9 t10
  have hfailed : failed = [] := by
    show c.failed.foldl _ [] = []
    rw [hf]
    rfl
  have hst : st = 2 := by
    show (if failed.isEmpty then 2 else 1) = 2
    rw [hfailed]
    rfl
  have hitems : s1 = s0 := by
    show failed.foldl _ s0 = s0
    rw [hfailed]
    rfl
  have hwritten : s3 = s.freed c := State.writeRecords_summary_of_stopped (c := done) hr hrun hitems rfl
  clear_value s3
  have ht8 : Totals s3 t8 :=
    ((((((((Totals.refl s3).add _ _).add _ _).add _ _).add _ _).add _ _).add _ _).add _ _).add _ _
  have htotals : Totals s3 t9 := ((ht8.count _ _ _).count _ _ _).count _ _ _
  have hcount8 : SquashCountStands c.core s3 t8 :=
    ((((((((SquashCountStands.of_index rfl : SquashCountStands c.core s3 s3).add _ _).add _ _).add _ _).add _ _).add _ _).add _ _).add
      _ _).add _ _
  have hcount : SquashCountStands c.core s3 t9 :=
    ((hcount8.count_other hc (by decide) _).count_other hc (by decide) _).count_other hc (by decide) _
  have hsquashed : squashed = true := by
    show (st == 2) = true
    rw [hst]
    rfl
  have hsound : t10 = t9 := if_neg (by rw [hst]; decide)
  have hfreed : SquashCountStands c.core s s3 := .of_index (by rw [hwritten]; rfl)
  have hstands : SquashCountStands c.core s ((t9.colophonFlag 22).colophonAdd 0x50 1) := hfreed.trans ((hcount.flag 22).add _ _)
  rw [hsound, if_pos hsquashed, ← hwritten]
  refine ⟨((htotals.flag 22).add _ _).count _ _ _, fun hw => ?_⟩
  rw [← hstands.count]
  exact State.bits_idx_idxBump (hstands.wf hw) _ _ _ _ _

theorem State.squashAll_of_one {s : State} {c : Nat} {k : Cmd} (hcmds : s.cores.cmds = [k]) (hk : k.core = c)
    (hq : k.phase = .queued) : s.squashAll c = s.squash k := by
  simp [State.squashAll, hcmds, hk, Cmd.unstarted, hq]

/-- A queued command holds no context's place: its squash drops its held start and finishes it. -/
theorem State.squash_of_queued {s : State} {k : Cmd} (hq : k.phase = .queued) (hr : (s.core k.core).Ringless)
    (hrun : (s.core k.core).run = .stopped) (hc : k.core < 256) :
    ∃ p, Totals (State.freed { s with power := p } k) (s.squash k) ∧ (indexWf s.index = true →
      bits ((s.squash k).idx 0x5069 k.core) 63 0 = min (bits (s.idx 0x5069 k.core) 63 0 + 1) (2 ^ 64 - 1)) := by
  obtain ⟨p, hp⟩ : ∃ p, s.squash k = State.finishCmd { s with power := p } { k with failed := [], counts := Counts.zero } 2 0 :=
    ⟨_, by simp only [State.squash, hq, reduceCtorEq, if_false]; rfl⟩
  rw [hp]
  exact ⟨p, State.finishCmd_of_squashed (s := { s with power := p }) (c := { k with failed := [], counts := Counts.zero })
    hr hrun hc rfl⟩

/-- A queued command that is alone in the queues is squashed by its core's stop. -/
theorem execStopCore_squashes {s : State} (hs : Serves s) {c : CoreId} {k : Cmd} (hcanon : Canonical s) (hctxs : s.ctxs = [])
    (hcmds : s.cores.cmds = [k]) (hk : k.core = c.val) (hq : k.phase = .queued) (hrun : (s.core c).run = .running)
    (hring : (s.core c).Ringless) :
    ∃ t, execStopCore c s = .next t ∧ (t.core c).run = .stopped ∧ t.cores.cmds = [] ∧
      bits (t.idx 0x5069 c) 63 0 = min (bits (s.idx 0x5069 c) 63 0 + 1) (2 ^ 64 - 1) ∧ t.mem = s.mem := by
  obtain ⟨-, -, -, -, hindex⟩ := hcanon
  obtain ⟨record, hstop, -⟩ := State.stopCore_of_running hrun
  rw [execStopCore_eq hs, hstop, State.squashAll_of_one (s := s.setCore c _) hcmds hk hq]
  generalize hg : s.setCore c ((s.core c).stopped record) = g
  have hcore : g.core k.core = (s.core c).stopped record := by
    rw [hk, ← hg]
    exact State.core_setCore_listed s _ (Core.stopped_ne_reset _ _)
  have hstopped : (g.core k.core).run = .stopped := by rw [hcore]; rfl
  obtain ⟨p, ⟨b, i, hw⟩, hcount⟩ := State.squash_of_queued hq (by rw [hcore]; exact hring) hstopped (by omega)
  have hfreed := State.core_freed_of_stopped (s := { g with power := p }) hstopped
  generalize g.squash k = u at hw hcount ⊢
  rw [hk] at hcount hfreed hstopped
  subst hg
  have hnone : u.ctxs = [] := by
    rw [hw]
    exact hctxs
  have hfixed : u.dev = s.dev ∧ u.pending = s.pending ∧ u.mem = s.mem := by
    rw [hw]
    exact ⟨rfl, rfl, rfl⟩
  have hrunState : (u.core c).run = .stopped := by
    rw [hw]
    exact (congrArg Core.run hfreed).trans hstopped
  have hempty : u.cores.cmds = [] := by
    rw [hw]
    simp [State.freed, State.dropCmd, State.setCore, hcmds]
  obtain ⟨hdev, hpending, hmem⟩ := hfixed
  rw [State.settle_of_no_contexts hnone]
  exact ⟨u.noteAccess 0 [], State.ends_of_fixed hdev hpending, hrunState, hempty, hcount hindex, hmem⟩

/-! ### A completion ring's consumer index (R185, R186) -/

theorem entryOf_consumer (c : CoreId) : entryOf 0x5066 c = some ⟨0x5066, 0x5066, 0x00, 0x1F, .u64, .rw⟩ := by
  revert c
  decide

/-- A little-endian 64-bit word reads back where no stored word carries an error. -/
theorem State.peek64_of_bytes {s : State} (hs : Sound s) {a v : Nat} (h8 : a % 8 = 0)
    (h : ∀ k, k < 8 → s.loadByte (a + k) = (leBytes 8 v).getD k 0) : s.peek64 a = v % 2 ^ 64 := by
  have hbytes : ((List.range 8).map fun i => s.loadByte (a + i)) = leBytes 8 v := by
    refine List.ext_getElem (by simp [leBytes_length]) fun k _ hk => ?_
    have hload := h k (by rwa [leBytes_length] at hk)
    rw [List.getD_eq_getElem _ _ hk] at hload
    simpa using hload
  rw [State.peek64_eq_leNat h8 (State.pattern_of_sound hs _), hbytes, leNat_leBytes, show 256 ^ 8 = 2 ^ 64 by rfl]

section Poke

variable {s t : State} (hs : Sound s) {a v : Nat}
include hs

theorem State.poke64_sram (hw : fwf 0 s.mem.cells = true) (ha : a + 8 ≤ sramEnd) : Stores a (leBytes 8 v) s (s.poke64 a v) :=
  State.writeMem_sram hs hw (by rwa [leBytes_length]) 0xFF

theorem Stores.peek64_self (h : Stores a (leBytes 8 v) s t) (h8 : a % 8 = 0) (ha : a + 8 ≤ sramEnd) : t.peek64 a = v % 2 ^ 64 :=
  State.peek64_of_bytes (h.sound hs) h8 fun k hk => h.loadByte (by rwa [leBytes_length]) (by rwa [leBytes_length])

theorem Stores.peek64_other (h : Stores a (leBytes 8 v) s t) (h8 : a % 8 = 0) {b : Nat} (hb : b % 8 = 0) (hend : b + 8 ≤ sramEnd)
    (hne : b ≠ a) : t.peek64 b = s.peek64 b := by
  have hload : ∀ i ∈ List.range 8, t.loadByte (b + i) = s.loadByte (b + i) := fun i hi => by
    rw [List.mem_range] at hi
    exact h.loadByte_of_other (low_of_sram (by omega)) (by rw [leBytes_length]; omega)
  rw [State.peek64_eq_leNat hb (State.pattern_of_sound (h.sound hs) _), State.peek64_eq_leNat hb (State.pattern_of_sound hs _),
    List.map_congr_left hload]

end Poke

section ConsumerIndex

variable {s : State} {c : CoreId} (hring : (s.core c).ringSize ≠ 0) {v : BitVec 64}
include hring

/-- The write's status is the ring's own rule: the value lies between the consumer and the producer. -/
theorem numericStatus_consumer (group : List (Nat × Nat)) :
    s.numericStatus s group 0x5066 c v.toNat = b2n (!consumerOk (s.core c).producer (s.peek64 ((s.core c).ringBase + 8)) v.toNat) := by
  simp [State.numericStatus, State.refusesCompute, hring]

variable (hs : Serves s)
include hs

theorem execConsumerIndex_sets (h : consumerOk (s.core c).producer (s.peek64 ((s.core c).ringBase + 8)) v.toNat = true) :
    execConsumerIndex c v s = s.ends ((s.poke64 ((s.core c).ringBase + 8) v.toNat).noteAccess 0 []) := by
  have hv : beNat (beBytes 8 v.toNat) = v.toNat := beNat_beBytes_of_lt v.isLt
  have hw := State.write_of_numeric hs (entryOf_consumer c) (by decide) (by decide) (beBytes_length 8 v.toNat) (by decide)
    (by rw [hv, numericStatus_consumer hring, h]; rfl)
  have happly : s.applyNumber 0x5066 c v.toNat = s.poke64 ((s.core c).ringBase + 8) v.toNat := if_neg hring
  rw [hv, happly] at hw
  exact congrArg s.ends hw

theorem execConsumerIndex_refuses (h : consumerOk (s.core c).producer (s.peek64 ((s.core c).ringBase + 8)) v.toNat = false) :
    execConsumerIndex c v s = .next (s.noteAccess 1 []) := by
  have hw := State.write_of_refused_number hs (entryOf_consumer c) (by decide) (by decide) (beBytes_length 8 v.toNat) (by decide)
    (st := 1) (by rw [beNat_beBytes_of_lt v.isLt, numericStatus_consumer hring, h]; rfl) (by decide)
  exact (congrArg s.ends hw).trans (State.ends_of_fixed rfl rfl)

end ConsumerIndex

/-- Settles O36: a stop replaces one core's record and squashes; a consumer index is one word of memory. -/
theorem coresAndRingsByCommand : Obligations.CoresAndRingsByCommand := by
  unfold Obligations.CoresAndRingsByCommand
  refine ⟨fun s c b hs => ⟨fun hq hrun => ?_, fun k hcanon hctxs hcmds hk hqueued hrun hsize hrecords =>
    execStopCore_squashes hs hcanon hctxs hcmds hk hqueued hrun ⟨hsize, hrecords⟩, execStopCore_of_not_running hs,
    execRegisterWrite_refuses_other_stop hs⟩,
    fun s c v ahead hs hring hahead => ⟨fun hcanon hsound h64 hend hbound hle => ?_, fun h => ?_⟩⟩
  · obtain ⟨record, hexec, hstitch⟩ := execStopCore_of_quiet hs hq hrun
    have hcore : ((s.setCore c ((s.core c).stopped record)).noteAccess 0 []).core c = (s.core c).stopped record :=
      State.core_setCore_listed s _ (Core.stopped_ne_reset _ _)
    refine ⟨_, hexec, ?_⟩
    rw [hcore]
    exact ⟨rfl, rfl, rfl, rfl, rfl, hstitch, fun k hk => State.core_setCore_ne s _ hk, rfl⟩
  · obtain ⟨hmem, -⟩ := hcanon
    obtain ⟨hcells, -⟩ := memoryWf_iff.1 hmem
    have hplace : (s.core c).ringBase + 8 + 8 ≤ sramEnd := by
      unfold sramEnd
      omega
    have hok : consumerOk (s.core c).producer (s.peek64 ((s.core c).ringBase + 8)) v.toNat = true := by
      rw [consumerOk, ← hahead]
      simp [hle]
      omega
    have hstores := State.poke64_sram hsound hcells (v := v.toNat) hplace
    have hexec := execConsumerIndex_sets hring hs hok
    generalize s.poke64 ((s.core c).ringBase + 8) v.toNat = p at hstores hexec
    have hown := hstores.peek64_self hsound (by omega) hplace
    have hother := hstores.peek64_other hsound (by omega) (b := (s.core c).ringBase) (by omega) (by omega) (by omega)
    rw [Nat.mod_eq_of_lt v.isLt] at hown
    obtain ⟨⟨cells, r, hframe⟩, -, -, -⟩ := hstores
    have hcores : p.cores = s.cores := by rw [hframe]
    have hindex : p.index = s.index := by rw [hframe]
    exact ⟨p.noteAccess 0 [], hexec.trans (State.ends_of_fixed (by rw [hframe]; rfl) (by rw [hframe]; rfl)), hown, hother, hcores, rfl,
      hindex⟩
  · refine execConsumerIndex_refuses hring hs ?_
    rw [consumerOk, ← hahead]
    simp
    omega

end Sys2Proof.Machine
end

section
/-!
SUPPORT. Overlays: what the end of a load leaves of the binding (R193), where the colophon is read instead of memory (R205, Table
8.4), and the refutation of O35.
-/
namespace Sys2Proof.Machine

open Sys2Proof

/-! ### The binding at the end of an overlay load (R193) -/

theorem ReadsOnly.binding {s t : State} (h : ReadsOnly s t) : t.binding = s.binding := by
  obtain ⟨n, i, m, rfl⟩ := h
  rfl

theorem StoresOnly.binding {s t : State} (h : StoresOnly s t) : t.binding = s.binding := by
  obtain ⟨⟨n, i, m, st, r, rfl⟩, -⟩ := h
  rfl

theorem State.moveWord_binding (s : State) (src dst n : Nat) : (s.moveWord src dst n).binding = s.binding := by
  obtain ⟨hread, -⟩ := s.readMem_passOnly src n .unit 0xFF
  unfold State.moveWord
  extract_lets r t
  have ht : t.binding = s.binding := (State.writeMem_storesOnly _ _ _ _).binding.trans hread.binding
  split <;> exact ht

theorem execOverlayLoadDone_binding {s t : State} {k : Fin 256} (h : execOverlayLoadDone k s = .next t) : t.binding = s.binding := by
  obtain rfl := (Host.Outcome.next.inj h).symm
  dsimp only
  split
  · split
    · rfl
    · exact P_foldl (P := fun u => u.binding = s.binding) rfl fun u i hu => (u.moveWord_binding _ _ _).trans hu
  · rfl

/-! ### A colophon that reaches the instruction memory -/

/-- Within the colophon a load reads the colophon, whatever memory holds there (Table 8.4). -/
theorem State.loadByte_of_colophon {s : State} {a : Nat} (hphase : s.binding.phase ≠ 0) (hlow : deviceArea ≤ canon a)
    (hhigh : canon a < deviceArea + s.colophonSize) : s.loadByte a = s.colophonByte (canon a - deviceArea) :=
  if_pos (by simp [hphase, hlow, hhigh])

/-- A loaded binding with these tiles, of which the one whose bit stands first in the colophon's byte at the instruction memory is
done, and with one overlay: overlay 0 of region 0, one byte long, whose load is under way. No memory is written. -/
def overlaidState (tiles : List (Nat × Nat)) : State :=
  { State.reset with
    binding := { Binding.reset with
      loaded := true, phase := 3, overlays := [(0, 0, 4096, 1)], tileList := tiles
      tileBits := [(8 * (imemBase - deviceArea - 0x80), true)] }
    cores := { State.reset.cores with regionLoading := [(0, (1, 0, 0))] } }

/-- So many tiles that their bits fill the addresses from the colophon to the instruction memory and beyond. -/
def manyTiles : List (Nat × Nat) := List.replicate (2 ^ 43) (0, 0)

theorem length_manyTiles : manyTiles.length = 2 ^ 43 := List.length_replicate

section Overlaid

variable {tiles : List (Nat × Nat)}

theorem canonical_overlaidState : Canonical (overlaidState tiles) := (by decide : Canonical State.reset)

theorem inLimits_overlaidState : InLimits (overlaidState tiles) := (by decide : InLimits State.reset)

theorem stagingBase_overlaidState : (overlaidState tiles).stagingBase = 0x15BC0000000 :=
  (by decide : State.reset.stagingBase = 0x15BC0000000)

/-- The byte to be moved is zero. -/
theorem loadByte_staged_overlaidState : (overlaidState tiles).loadByte (0x15BC0000000 + 4096) = 0 := by
  rw [State.loadByte_of_low _ (by decide)]
  rfl

/-- With that binding the first byte of the instruction memory reads as a byte of the tile bits. -/
theorem loadByte_imemBase_of_binding {t : State} (hb : t.binding = (overlaidState tiles).binding) (hlen : tiles.length = 2 ^ 43) :
    t.loadByte imemBase = 1 := by
  have hcanon : canon imemBase = imemBase := by decide
  have hsize : t.colophonSize = roundUp (128 + ceilDiv tiles.length 8) 64 := by rw [State.colophonSize, hb]; rfl
  have hhigh : imemBase < deviceArea + t.colophonSize := by
    rw [hsize, hlen]
    decide
  rw [State.loadByte_of_colophon (by rw [hb]; exact Nat.succ_ne_zero 2) (by decide) (by rwa [hcanon]), hcanon, State.colophonByte, hb]
  rfl

end Overlaid

/-- Refutes O35: memory is read at the colophon's addresses as the colophon, which has no largest size in the statement; with 2^43
tiles it reaches the instruction memory, and the overlay's byte, which is zero, does not stand in its region. -/
theorem not_overlaysAreLoaded : ¬ Obligations.OverlaysAreLoaded := by
  unfold Obligations.OverlaysAreLoaded
  intro hall
  obtain ⟨-, -, -, hdone, -⟩ := hall (overlaidState manyTiles) 0 0
  obtain ⟨t, hexec, -, -, -, -, -, hbytes⟩ := hdone 0 0 4096 1 rfl rfl rfl rfl rfl
  have hstands := hbytes canonical_overlaidState rfl inLimits_overlaidState (by rw [stagingBase_overlaidState]; decide)
    (by rw [stagingBase_overlaidState]) (by rw [stagingBase_overlaidState]; decide) (by decide) 0 Nat.zero_lt_one
  have hbinding : t.binding = (overlaidState manyTiles).binding := execOverlayLoadDone_binding (k := 0) hexec
  have hone : t.loadByte imemBase = 1 := loadByte_imemBase_of_binding hbinding length_manyTiles
  rw [stagingBase_overlaidState] at hstands
  exact absurd (hone.symm.trans (hstands.trans loadByte_staged_overlaidState)) (by decide)

end Sys2Proof.Machine
end

section
/-!
SUPPORT. What reads and writes of memory and of the pool's leaves leave of the folio (R272, R316, R317), and that the stores of
contexts, of DOMAIN entries and of the Index stay canonical.
-/
namespace Sys2Proof.Machine

open Sys2Proof

/-! ### Canonical stores -/

theorem indexWf_fkeep {m : FMap Nat} (h : indexWf m = true) (p : Nat → Bool) : indexWf (fkeep p m) = true := by
  obtain ⟨hs, hd⟩ := indexWf_iff.1 h
  exact indexWf_iff.2 ⟨hs.sublist (List.filter_sublist.map _), fun e he => hd e (List.mem_of_mem_filter he)⟩

/-- The stores of contexts, of DOMAIN entries and of the Index are canonical. -/
abbrev StoresWf (s : State) : Prop := fwf Ctx.reset s.ctxs = true ∧ fwf [] s.domains = true ∧ indexWf s.index = true

theorem storesWf_of_canonical {s : State} (h : Canonical s) : StoresWf s := h.2.2

/-- Every primitive update keeps these stores canonical, hence every operation does. -/
theorem closed_storesWf : Closed StoresWf where
  plain h _ _ _ _ _ := h
  memPlain h _ _ _ _ _ := h
  memWrite h := h
  memPattern h := h
  idxSet h := ⟨h.1, h.2.1, State.indexWf_idxSet h.2.2 _ _ _⟩
  idxClear := fun {_ p} h => ⟨h.1, h.2.1, indexWf_fkeep h.2.2 fun k => !p (k / 256)⟩
  domainSet h := ⟨h.1, fwf_fset h.2.1 _ _, h.2.2⟩
  domainKeep h := ⟨h.1, fwf_fkeep h.2.1 _, h.2.2⟩
  setPort h _ := h
  lower h _ := h
  setCtx h := ⟨fwf_fset h.1 _ _, h.2⟩
  noCtxs h := ⟨rfl, h.2⟩
  setAcc h := h
  setRowPoison h := h
  noAcc h := h
  setLeafPattern h := h
  clearMem h := h
  request h _ := h

/-! ### What memory and the pool touch -/

/-- From s to t, memory and the leaves of the pool may have been read, written and cleared: nothing but them, the draws and the copy
stream has changed, and of the Index at most the counts 0x7000 to 0x7FFF. -/
structure Touches (s t : State) : Prop where
  frame : ∃ n i m sw r, t = { s with freshCount := n, index := i, mem := m, switch := sw, proof := { s.proof with mirror := r } }
  idx : ∀ i sub, ikey i sub < ikey 0x7000 0 ∨ ikey 0x8000 0 ≤ ikey i sub → t.idx i sub = s.idx i sub

namespace Touches

variable {s t u : State}

/-- A change that leaves the Index alone. -/
theorem of_frame {n : Nat} {m : Memory} {sw : Switch} {r : List (Nat × Bytes)}
    (h : t = { s with freshCount := n, mem := m, switch := sw, proof := { s.proof with mirror := r } }) : Touches s t := by
  subst h
  exact ⟨⟨_, _, _, _, _, rfl⟩, fun _ _ _ => rfl⟩

theorem refl (s : State) : Touches s s := of_frame rfl

theorem trans (h : Touches s t) (k : Touches t u) : Touches s u := by
  obtain ⟨⟨n, i, m, sw, r, rfl⟩, hidx⟩ := h
  obtain ⟨⟨n', i', m', sw', r', rfl⟩, kidx⟩ := k
  exact ⟨⟨_, _, _, _, _, rfl⟩, fun i sub hi => (kidx i sub hi).trans (hidx i sub hi)⟩

theorem idxBump (s : State) {i sub : Nat} (h : ikey 0x7000 0 ≤ ikey i sub ∧ ikey i sub < ikey 0x8000 0) (hi lo n : Nat) :
    Touches s (s.idxBump i sub hi lo n) :=
  ⟨⟨_, _, _, _, _, rfl⟩, fun _ _ hj => State.idx_idxSet_ne s _ (by omega)⟩

theorem withMem (s : State) (m : Memory) : Touches s { s with mem := m } := of_frame rfl

theorem withSwitch (s : State) (sw : Switch) : Touches s { s with switch := sw } := of_frame rfl

theorem ite {b : Prop} [Decidable b] (ht : Touches s t) (hu : Touches s u) : Touches s (if b then t else u) := P_ite ht hu

theorem ite_fst {α : Type} {b : Prop} [Decidable b] {p q : State × α} (hp : Touches s p.1) (hq : Touches s q.1) :
    Touches s (if b then p else q).1 := P_ite1 hp hq

theorem foldl {α : Type} {f : State → α → State} (hf : ∀ v a, Touches v (f v a)) (l : List α) (s : State) :
    Touches s (l.foldl f s) := P_foldl (P := Touches s) (.refl s) fun v a hv => hv.trans (hf v a)

theorem foldl_fst {α β : Type} {f : State × β → α → State × β} (hf : ∀ p a, Touches p.1 (f p a).1) (l : List α) {p : State × β} :
    Touches p.1 (l.foldl f p).1 := P_foldl1 (P := Touches p.1) (.refl _) fun v a hv => hv.trans (hf v a)

variable (h : Touches s t)
include h

theorem dev : t.dev = s.dev := by
  obtain ⟨⟨n, i, m, sw, r, rfl⟩, -⟩ := h
  rfl

theorem pending : t.pending = s.pending := by
  obtain ⟨⟨n, i, m, sw, r, rfl⟩, -⟩ := h
  rfl

theorem clock : t.clock = s.clock := by
  obtain ⟨⟨n, i, m, sw, r, rfl⟩, -⟩ := h
  rfl

theorem cores : t.cores = s.cores := by
  obtain ⟨⟨n, i, m, sw, r, rfl⟩, -⟩ := h
  rfl

theorem stash : t.stash = s.stash := by
  obtain ⟨⟨n, i, m, sw, r, rfl⟩, -⟩ := h
  rfl

theorem binding : t.binding = s.binding := by
  obtain ⟨⟨n, i, m, sw, r, rfl⟩, -⟩ := h
  rfl

theorem ctxs : t.ctxs = s.ctxs := by
  obtain ⟨⟨n, i, m, sw, r, rfl⟩, -⟩ := h
  rfl

/-- The limits of the domain clocks rest on the CORE step and the test overrides alone (R360). -/
theorem outside : t.outside = s.outside := by
  have h10 := h.idx 0xF010 0 (by decide)
  have h11 := h.idx 0xF011 0 (by decide)
  unfold State.outside State.coreThirds State.fabricDivider
  rw [h10, h11, h.clock]

end Touches

/-! ### Memory (R316, R317) -/

theorem State.countRead_touches (s : State) (bad : Bool) {store address : Nat} (h : store = 1 → address < sramEnd) :
    Touches s (s.countRead bad store address) := by
  have hkeys : ∀ i k, i ∈ [0x7001, 0x7002, 0x7003, 0x7004] → k < 32 → ikey 0x7000 0 ≤ ikey i k ∧ ikey i k < ikey 0x8000 0 := by
    intro i k hi hk
    simp only [List.mem_cons, List.not_mem_nil, or_false] at hi
    unfold ikey
    omega
  unfold State.countRead
  split
  · have := tierOf_lt (h rfl)
    exact .idxBump s (hkeys _ _ (by split <;> decide) (by omega)) _ _ _
  · exact .idxBump s (hkeys _ _ (by split <;> decide) (Nat.mod_lt _ (by decide))) _ _ _
  all_goals exact .idxBump s (by split <;> decide) _ _ _

theorem State.logError_touches (s : State) (address : Nat) (src : ReadSource) (store unit : Nat) :
    Touches s (s.logError address src store unit) := .ite (.withMem s _) (.idxBump s (by decide) _ _ _)

theorem State.accountRead_touches (s : State) (r : WordRead) (src : ReadSource) {store address : Nat} (unit : Nat)
    (h : store = 1 → address < sramEnd) : Touches s (s.accountRead r src store address unit) := by
  cases r with
  | clean d => exact .refl s
  | corrected d => exact s.countRead_touches _ h
  | bad => exact (s.countRead_touches _ h).trans (State.logError_touches _ _ _ _ _)

theorem State.crosses_touches (s : State) : Touches s s.crosses.2 := by
  unfold State.crosses
  split
  · exact .of_frame rfl
  · exact .refl s

theorem State.readWord_touches (s : State) (w : Nat) (src : ReadSource) (unit : Nat) : Touches s (s.readWord w src unit).1 := by
  have ha := s.accountRead_touches (s.wordRead w) src unit (sram_of_storeOf (a := 16 * w))
  have hx := ha.trans (State.crosses_touches _)
  simp only [State.readWord]
  repeat' split
  all_goals assumption

theorem State.readWords_touches (s : State) (src : ReadSource) (unit k w : Nat) (acc : Bytes) (bad : Option Nat) :
    Touches s (s.readWords src unit k w acc bad).1 := by
  induction k generalizing s w acc bad with
  | zero => exact .refl s
  | succ k ih => exact (s.readWord_touches w src unit).trans (ih _ _ _ _)

theorem State.readMem_touches (s : State) (a n : Nat) (src : ReadSource) (unit : Nat) : Touches s (s.readMem a n src unit).1 :=
  .ite_fst (.refl s) (s.readWords_touches _ _ _ _ _ _)

theorem State.noteMirror_touches (s : State) (w : Nat) (data : Bytes) : Touches s (s.noteMirror w data) := by
  obtain ⟨r, hr⟩ := s.noteMirror_frame w data
  exact .of_frame hr

theorem State.writeWord_touches (s : State) (w off : Nat) (data : Bytes) (unit : Nat) : Touches s (s.writeWord w off data unit) := by
  have hx : Touches s (if storeOf (16 * w) = 2 then s.crosses else (0, s)).2 := by
    split
    · exact s.crosses_touches
    · exact .refl s
  unfold State.writeWord
  extract_lets x t r merged u
  have hr : Touches s u := hx.trans (t.readWord_touches w .unit unit)
  exact .ite hx (.ite (hx.trans ((Touches.withMem _ _).trans (State.noteMirror_touches _ _ _)))
    (hr.trans ((Touches.withMem _ _).trans (State.noteMirror_touches _ _ _))))

theorem State.writeWords_touches (s : State) (unit k w off : Nat) (data : Bytes) : Touches s (s.writeWords unit k w off data) := by
  induction k generalizing s w off data with
  | zero => exact .refl s
  | succ k ih => exact .ite (.refl s) ((s.writeWord_touches w off _ unit).trans (ih _ _ _ _))

theorem State.writeMem_touches (s : State) (a : Nat) (data : Bytes) (unit : Nat) : Touches s (s.writeMem a data unit) :=
  s.writeWords_touches _ _ _ _ _

theorem State.clearMem_touches (s : State) (a n : Nat) : Touches s (s.clearMem a n) := .withMem s _

/-! ### Leaves (R271, R272) -/

theorem State.readLeafWord_touches (s : State) (h w : Nat) (src : ReadSource) (unit : Nat) :
    Touches s (s.readLeafWord h w src unit).1 := by
  have ha : Touches s (s.accountRead (s.leafWordRead h w) src 4 h unit) :=
    s.accountRead_touches _ src unit fun e => absurd e (by decide)
  unfold State.readLeafWord
  dsimp only
  split <;> exact ha

theorem State.readLeaf_touches (s : State) (h n : Nat) (src : ReadSource) (unit : Nat) : Touches s (s.readLeaf h n src unit).1 := by
  unfold State.readLeaf
  refine .ite_fst ((Touches.withSwitch s _).trans (State.readMem_touches _ _ _ _ _)) ?_
  exact P_foldl1 (P := Touches s) (.refl s) fun v a hv => hv.trans (v.1.readLeafWord_touches h a src unit)

theorem State.setLeafPattern_touches (s : State) (h w p : Nat) : Touches s (s.setLeafPattern h w p) := .withMem s _

theorem State.writeLeaf_touches (s : State) (h off : Nat) (data : Bytes) : Touches s (s.writeLeaf h off data) := by
  refine .ite ((Touches.withSwitch s _).trans (State.writeMem_touches _ _ _ _)) (Touches.trans (.foldl (fun v w => ?_) _ s) (.withSwitch _ _))
  exact .ite (.refl v) (.ite (v.setLeafPattern_touches _ _ _) ((v.readLeafWord_touches _ _ _ _).trans (State.setLeafPattern_touches _ _ _ _)))

theorem State.poolFlag_touches (s : State) (b : Nat) : Touches s (s.poolFlag b) := .ite (.refl s) (.withSwitch s _)

theorem State.poolRead_touches (s : State) (k address : Nat) : Touches s (s.poolRead k address) :=
  .ite ((s.accountRead_touches .bad .pool 0xFF fun e => absurd e (by decide)).trans (State.poolFlag_touches _ _)) (.refl s)

theorem State.poolWritten_touches (s : State) (k : Nat) : Touches s (s.poolWritten k) := .withMem s _

theorem State.setLeafList_touches (s : State) (ext : Bool) (l : LeafList) : Touches s (s.setLeafList ext l) :=
  .ite (.withSwitch s _) (.withSwitch s _)

theorem State.setLeafCount_touches (s : State) (h c : Nat) : Touches s (s.setLeafCount h c) := .of_frame rfl

theorem State.readLink_touches (s : State) (h : Nat) : Touches s (s.readLink h).1 :=
  .ite_fst ((s.readLeaf_touches _ _ _ _).trans (State.poolFlag_touches _ _)) (s.readLeaf_touches _ _ _ _)

theorem State.alloc_touches (s : State) (ext : Bool) : Touches s (s.alloc ext).1 := by
  unfold State.alloc
  extract_lets l s1 r s2 s3 h
  have h1 : Touches s s1 := s.poolRead_touches _ _
  have h2 : Touches s s2 :=
    ((h1.trans (State.poolRead_touches _ _ _)).trans (State.readLink_touches _ _)).trans (State.setLeafList_touches _ _ _)
  have h3 : Touches s s3 := h1.trans (State.poolRead_touches _ _ _)
  refine .ite_fst ?_ (.ite_fst ?_ h3)
  · exact ((h2.trans (State.poolWritten_touches _ _)).trans (State.poolWritten_touches _ _)).trans (State.setLeafCount_touches _ _ _)
  · exact ((h3.trans (State.setLeafList_touches _ _ _)).trans (State.poolWritten_touches _ _)).trans (State.setLeafCount_touches _ _ _)

theorem State.freeLeaf_touches (s : State) (h : Nat) : Touches s (s.freeLeaf h).1 := by
  unfold State.freeLeaf
  extract_lets c s1 ext l s2
  have h1 : Touches s s1 := (s.poolRead_touches _ _).trans (State.setLeafCount_touches _ _ _)
  have h2 : Touches s s2 :=
    ((h1.trans (State.poolRead_touches _ _ _)).trans (State.poolRead_touches _ _ _)).trans (State.writeLeaf_touches _ _ _ _)
  refine .ite_fst ?_ h1
  exact ((h2.trans (State.setLeafList_touches _ _ _)).trans (State.poolWritten_touches _ _)).trans (State.poolWritten_touches _ _)

theorem State.freeLeaves_touches (s : State) (hs : List Nat) : Touches s (s.freeLeaves hs) :=
  .foldl (fun v h => v.freeLeaf_touches h) hs s

end Sys2Proof.Machine
end

section
/-!
SUPPORT. Staging by command (R195, R197, R310): a block write of one record, what a write of memory stores where nothing crosses
badly, and the settlement of O31.
-/
namespace Sys2Proof.Machine

open Sys2Proof

/-! ### A block write of one record (R340, R350) -/

/-- Only the locked security range takes a right away from an entry. -/
theorem State.rightOf_of_low (s : State) (e : EntryDef) {i : Nat} (hi : i < 0xA000) : s.rightOf e i = e.access :=
  if_neg (by simp; omega)

section OneRecord

variable {s : State} (hs : Serves s) {i sub : Nat} {b : Bytes}
include hs

theorem State.write_of_accepted (hi : i ≠ 0x7011) (h : s.writeStatus s true [(i, sub)] i sub b = 0) :
    s.write [(i, sub, b)] = (s.applyWrite i sub b).noteAccess 0 [] :=
  have ⟨hserved, _⟩ := hs
  State.write_of_applied hserved (by simpa using hi) ((State.foldWrites_cons_of_accepted h [] 0).trans rfl)

theorem State.write_of_refused {st : Nat} (hi : i ≠ 0x7011) (h : s.writeStatus s true [(i, sub)] i sub b = st) (hst : st ≠ 0) :
    s.write [(i, sub, b)] = s.noteAccess st [] := by
  subst h
  obtain ⟨hserved, -⟩ := hs
  exact State.write_of_refused_head hserved (by simpa using hi) hst

variable {e : EntryDef} (he : entryOf i sub = some e) (hfree : s.writeForbidden e i = false)
include he hfree

theorem State.writeStatus_of_number (hn : e.type.isBytes = false) (hbool : e.type ≠ .boolean) (hb : b.length = e.type.size) (s0 : State)
    (block : Bool) (group : List (Nat × Nat)) : s.writeStatus s0 block group i sub b = s.numericStatus s0 group i sub (beNat b) := by
  obtain ⟨-, hrails⟩ := hs
  simp [State.writeStatus, State.answers, hrails, he, hfree, hn, hbool, hb]

theorem State.writeStatus_of_bytes (hn : e.type.isBytes = true) (s0 : State) (group : List (Nat × Nat)) :
    s.writeStatus s0 true group i sub b = s.domainStatus i b := by
  obtain ⟨-, hrails⟩ := hs
  simp [State.writeStatus, State.answers, hrails, he, hfree, hn]

end OneRecord

/-- The row of a command entry of one byte (Table 8.5). -/
abbrev commandRow (i : Nat) : EntryDef := ⟨i, i, 0, 0, .u8, .wo⟩

section Command

variable {s : State} (hs : Serves s) {i v : Nat} (he : entryOf i 0 = some (commandRow i)) (hi : i < 0x7000) (hv : v < 256)
include hs he hi hv

/-- A command that its entry's own rule allows is applied. -/
theorem State.writeNumber_of_allowed (h : s.numericStatus s [(i, 0)] i 0 v = 0) :
    s.writeNumber i 0 1 v = (s.applyNumber i 0 v).noteAccess 0 [] := by
  have hback : beNat (beBytes 1 v) = v := beNat_beBytes_of_lt hv
  have hw := State.write_of_numeric hs he (by omega) ⟨.inr rfl, rfl, nofun⟩ (beBytes_length 1 v) (by omega) (by rw [hback, h])
  rwa [hback] at hw

/-- A command that its entry's own rule refuses changes nothing. -/
theorem State.writeNumber_of_refused {st : Nat} (h : s.numericStatus s [(i, 0)] i 0 v = st) (hst : st ≠ 0) :
    s.writeNumber i 0 1 v = s.noteAccess st [] := by
  have hback : beNat (beBytes 1 v) = v := beNat_beBytes_of_lt hv
  exact State.write_of_refused_number hs he (by omega) ⟨.inr rfl, rfl, nofun⟩ (beBytes_length 1 v) (by omega) (by rw [hback, h]) hst

end Command

/-! ### What a write of memory stores (R317) -/

theorem State.readWord_length (s : State) (w : Nat) (src : ReadSource) (unit : Nat) : (s.readWord w src unit).2.1.length = 16 := by
  have hword : (s.wordBytes w).length = 16 := by simp [State.wordBytes]
  have hle : ∀ x, (leBytes 16 x).length = 16 := leBytes_length 16
  simp only [State.readWord]
  repeat' split
  all_goals simp only [hle, hword]

/-- From s to t memory has taken these bytes from a on, and its cells below `lo` stand as they were. -/
structure BytesStored (a lo : Nat) (data : Bytes) (s t : State) : Prop where
  wf : fwf 0 t.mem.cells = true
  bytes : ∀ k, k < data.length → fget 0 t.mem.cells (a + k) = data.getD k 0
  below : ∀ x, x < lo → fget 0 t.mem.cells x = fget 0 s.mem.cells x

section WriteMem

variable {s : State} (hl : InLimits s) (hwf : fwf 0 s.mem.cells = true) {w off : Nat} {data : Bytes}
include hl

/-- A write inside a word sets the word's 16 cells, of which those from the offset on are the data. -/
theorem State.writeWord_cells (hfit : off + data.length ≤ 16) (hend : 16 * w + 16 ≤ deviceArea) (unit : Nat) : ∃ bs : Bytes,
    bs.length = 16 ∧ (∀ k, k < data.length → bs.getD (off + k) 0 = data.getD k 0) ∧
      (s.writeWord w off data unit).mem.cells = fsetRun 0 s.mem.cells (16 * w) bs := by
  have hnote : ∀ (v : State) (bs : Bytes) (p : Nat), bs.length = 16 →
      (State.noteMirror { v with mem := (v.mem.setBytes (16 * w) bs).setPattern w p } w bs).mem.cells =
        fsetRun 0 v.mem.cells (16 * w) bs := fun v bs p hbs => by
    obtain ⟨r, hr⟩ := State.noteMirror_frame { v with mem := (v.mem.setBytes (16 * w) bs).setPattern w p } w bs
    rw [hr, Memory.setBytes_eq v.mem (by omega)]
    rfl
  have hcross : (if storeOf (16 * w) = 2 then s.crosses else (0, s)) = (0, s) := by rw [State.crosses_of_inLimits hl, ite_self]
  rw [State.writeWord, hcross]
  dsimp only
  rw [if_neg Nat.zero_ne_one]
  split
  · next hwhole =>
    obtain ⟨rfl, hlen⟩ : off = 0 ∧ data.length = 16 := by simpa using hwhole
    exact ⟨data, hlen, fun k _ => by rw [Nat.zero_add], hnote s data 0 hlen⟩
  · have hread := s.readWord_length w .unit unit
    have hin : off + data.length ≤ (s.readWord w .unit unit).2.1.length := by omega
    have hlen := (patch_length hin).trans hread
    refine ⟨_, hlen, fun k hk => ?_, (hnote _ _ _ hlen).trans ?_⟩
    · rw [patch_getD hin, if_pos (by omega), Nat.add_sub_cancel_left]
    · rw [(s.readWord_passOnly w .unit unit).2]

include hwf

theorem State.writeWords_stored {k : Nat} (hoff : off < 16) (hk : off + data.length ≤ 16 * k) (hend : 16 * w + off + data.length ≤ deviceArea)
    (unit : Nat) : BytesStored (16 * w + off) (16 * w) data s (s.writeWords unit k w off data) := by
  induction k generalizing s w off data with
  | zero => exact ⟨hwf, fun k hk' => by omega, fun _ _ => rfl⟩
  | succ k ih =>
    by_cases hd : data = []
    · subst hd
      have hstay : s.writeWords unit (k + 1) w off [] = s := by simp [State.writeWords]
      rw [hstay]
      exact ⟨hwf, fun k hk' => absurd hk' (Nat.not_lt_zero k), fun _ _ => rfl⟩
    have hpos : 0 < data.length := List.length_pos_iff.2 hd
    have htake : (data.take (16 - off)).length = min (16 - off) data.length := List.length_take
    have hne : ¬ (data.take (16 - off)).isEmpty = true := fun h => by
      rw [List.isEmpty_iff.1 h, List.length_nil] at htake
      omega
    have hword : 16 * w + 16 ≤ deviceArea := by
      unfold deviceArea at *
      omega
    obtain ⟨bs, hlen, hbytes, hcells⟩ := State.writeWord_cells hl (off := off) (data := data.take (16 - off)) (by omega) hword unit
    have hread := fun x => fget_fsetRun hwf (16 * w) bs x
    have hl' : InLimits (s.writeWord w off (data.take (16 - off)) unit) := (s.writeWord_touches w off _ unit).outside.trans hl
    have hdrop : (data.drop (16 - off)).length = data.length - (16 - off) := List.length_drop
    have hrest : 16 * (w + 1) + 0 + (data.drop (16 - off)).length ≤ deviceArea := by omega
    obtain ⟨twf, tbytes, tbelow⟩ := ih hl' (hcells ▸ fwf_fsetRun hwf _ _) (w := w + 1) (off := 0) (data := data.drop (16 - off))
      (by decide) (by omega) hrest
    rw [State.writeWords, if_neg hne]
    rw [hcells] at tbelow
    refine ⟨twf, fun j hj => ?_, fun x hx => ?_⟩
    · by_cases hin : j < 16 - off
      · rw [tbelow _ (by omega), hread, if_pos (by omega), Nat.add_assoc, Nat.add_sub_cancel_left, hbytes j (by omega)]
        simp [List.getD_eq_getElem?_getD, hin]
      · have hj' := tbytes (j - (16 - off)) (by omega)
        rw [show 16 * (w + 1) + 0 + (j - (16 - off)) = 16 * w + off + j by omega] at hj'
        rw [hj']
        simp only [List.getD_eq_getElem?_getD, List.getElem?_drop]
        congr 2
        omega
    · rw [tbelow x (by omega), hread, if_neg (by omega)]

/-- A write of memory below the device area stores its bytes. -/
theorem State.loadByte_writeMem {a : Nat} (hend : a + data.length ≤ deviceArea) (unit : Nat) {k : Nat} (hk : k < data.length) :
    (s.writeMem a data unit).loadByte (a + k) = data.getD k 0 := by
  have hstore := State.writeWords_stored hl hwf (w := a / 16) (k := data.length / 16 + 2) (Nat.mod_lt a (by decide)) (by omega)
    (by omega : 16 * (a / 16) + a % 16 + data.length ≤ deviceArea) unit
  have hbyte := hstore.bytes k hk
  rw [Nat.div_add_mod] at hbyte
  rw [State.loadByte_of_low _ (by rw [canon_of_lt_deviceArea] <;> omega)]
  exact hbyte

end WriteMem

/-! ### Cleared spans -/

theorem State.idx_clearMem (s : State) (a n i sub : Nat) : (s.clearMem a n).idx i sub = s.idx i sub := rfl

theorem State.overflowBase_clearMem (s : State) (a n : Nat) : (s.clearMem a n).overflowBase = s.overflowBase := rfl

theorem State.stagingBase_clearMem (s : State) (a n : Nat) : (s.clearMem a n).stagingBase = s.stagingBase := rfl

theorem fget_fkeep_of_dropped {α : Type} (d : α) (m : FMap α) {p : Nat → Bool} {k : Nat} (h : p k = false) : fget d (fkeep p m) k = d := by
  by_contra hne
  have hmem := List.of_mem_filter (mem_of_fget_ne hne)
  exact absurd hmem (by simp [h])

theorem State.loadByte_clearMem (s : State) {a n x : Nat} (hx : x < deviceArea) (hin : a ≤ x ∧ x < a + n) :
    (s.clearMem a n).loadByte x = 0 := by
  rw [State.loadByte_of_low _ (by rwa [canon_of_lt_deviceArea hx])]
  exact fget_fkeep_of_dropped 0 s.mem.cells (p := fun k => !(decide (a ≤ k) && decide (k < a + n))) (by simp [hin])

theorem State.loadByte_clearMem_of_not_mem (s : State) {a n x : Nat} (hx : x < deviceArea) (hout : ¬ (a ≤ x ∧ x < a + n)) :
    (s.clearMem a n).loadByte x = s.loadByte x := by
  have hlow : canon x < deviceArea := by rwa [canon_of_lt_deviceArea hx]
  rw [State.loadByte_of_low _ hlow, State.loadByte_of_low _ hlow]
  exact fget_fkeep 0 s.mem.cells (p := fun k => !(decide (a ≤ k) && decide (k < a + n))) (by simp; omega)

/-- Neither an entry nor a noted access is a byte below the device area. -/
theorem State.loadByte_noted (s : State) (i sub v st : Nat) (data : Bytes) {x : Nat} (hx : x < deviceArea) :
    ((s.idxSet i sub v).noteAccess st data).loadByte x = s.loadByte x :=
  State.loadByte_of_mem rfl (by rwa [canon_of_lt_deviceArea hx])

/-- The entries of the staging region after a move (R310). -/
theorem State.idx_of_moved {s : State} (h : indexWf s.index = true) (size top base : Nat) :
    let t := ((s.idxSet 0x5083 0 size).idxSet 0x7031 0 top).idxSet 0x7032 0 base
    t.idx 0x5083 0 = size ∧ t.overflowBase = top ∧ t.stagingBase = base ∧ t.idx 0x5086 0 = s.idx 0x5086 0 := by
  have h1 := State.indexWf_idxSet h 0x5083 0 size
  have h2 := State.indexWf_idxSet h1 0x7031 0 top
  have other := fun (v : State) (i j x : Nat) (hj : j ≠ i) => v.idx_idxSet_other (k := 0) (sub := 0) (by decide) (by decide) x hj
  exact ⟨((other _ 0x7032 0x5083 _ (by decide)).trans (other _ 0x7031 _ _ (by decide))).trans (State.idx_idxSet_self h _ _ _),
    (other _ 0x7032 0x7031 _ (by decide)).trans (State.idx_idxSet_self h1 _ _ _), State.idx_idxSet_self h2 _ _ _,
    ((other _ 0x7032 0x5086 _ (by decide)).trans (other _ 0x7031 _ _ (by decide))).trans (other _ 0x5083 _ _ (by decide))⟩

/-! ### The three commands (R195, R197, R310) -/

section Staging

variable {s : State} (hs : Serves s) (hloaded : s.binding.loaded = false)
include hs hloaded

omit hloaded in
theorem writeStatus_of_segment (d : Bytes) : s.writeStatus s true [(0x5080, 0)] 0x5080 0 d = b2n (!s.segmentOk d) := by
  refine State.writeStatus_of_bytes hs (e := ⟨0x5080, 0x5080, 0, 0, .domain, .wo⟩) (by decide) ?_ rfl s _
  rw [State.writeForbidden, s.rightOf_of_low _ (by decide)]

omit hs in
theorem State.segmentOk_iff {d : Bytes} : s.segmentOk d = true ↔ 8 ≤ d.length ∧ beAt d 0 8 + (d.length - 8) ≤ s.stagingSize := by
  simp [State.segmentOk, hloaded]

theorem execImageSegment_of_ok {d : Bytes} (hd : 8 ≤ d.length) (hfit : beAt d 0 8 + (d.length - 8) ≤ s.stagingSize) :
    execImageSegment d s = s.ends ((s.stage d).noteAccess 0 []) := by
  have hst := writeStatus_of_segment hs d
  rw [(State.segmentOk_iff hloaded).2 ⟨hd, hfit⟩] at hst
  exact congrArg s.ends (State.write_of_accepted hs (by decide) hst)

theorem execImageSegment_of_not_ok {d : Bytes} (h : d.length < 8 ∨ s.stagingSize < beAt d 0 8 + (d.length - 8)) :
    execImageSegment d s = .next (s.noteAccess 1 []) := by
  have hno : s.segmentOk d = false := Bool.eq_false_iff.2 fun hok => by
    have := (State.segmentOk_iff hloaded).1 hok
    omega
  have hst := writeStatus_of_segment hs d
  rw [hno] at hst
  exact (congrArg s.ends (State.write_of_refused hs (by decide) hst (by decide))).trans (State.ends_of_fixed rfl rfl)

theorem execDiscard_eq : execDiscard s = .next (s.clearStaged.noteAccess 0 []) := by
  have hst : s.numericStatus s [(0x5081, 0)] 0x5081 0 2 = 0 := by
    simp [State.numericStatus, State.refusesCompute, hloaded, b2n]
  exact (congrArg s.ends (State.writeNumber_of_allowed hs (by decide) (by decide) (by decide) hst)).trans (State.ends_of_fixed rfl rfl)

theorem execStagingSizeWrite_eq {g : BitVec 16} (hlo : 16 ≤ g.toNat) (hhi : g.toNat ≤ 256) :
    execStagingSizeWrite g s = s.ends ((s.setStaging g.toNat).noteAccess 0 []) := by
  have hv : beNat (beBytes 2 g.toNat) = g.toNat := beNat_beBytes_of_lt g.isLt
  have he : entryOf 0x5083 0 = some ⟨0x5083, 0x5083, 0, 0, .u16, .rwi⟩ := by decide
  have hfree : s.writeForbidden ⟨0x5083, 0x5083, 0, 0, .u16, .rwi⟩ 0x5083 = false := by
    rw [State.writeForbidden, s.rightOf_of_low _ (by decide)]
    exact hloaded
  have hst := State.writeStatus_of_number hs he hfree rfl (by decide) (beBytes_length 2 g.toNat) s true [(0x5083, 0)]
  have hnum : s.numericStatus s [(0x5083, 0)] 0x5083 0 (beNat (beBytes 2 g.toNat)) = 0 := by
    simp [State.numericStatus, State.refusesCompute, hv, hlo, hhi, b2n]
  have hw := State.write_of_accepted hs (by decide) (hst.trans hnum)
  rw [s.applyWrite_of_numeric he rfl, hv] at hw
  exact congrArg s.ends hw

end Staging

/-- A segment with bytes is stored at its offset and extends the staged extent. -/
theorem State.stage_of_bytes {s : State} {d : Bytes} (hd : 9 ≤ d.length) : s.stage d =
    (s.writeMem (s.stagingBase + beAt d 0 8) (d.drop 8) 0xFF).idxSet 0x5086 0 (max (s.idx 0x5086 0) (beAt d 0 8 + (d.length - 8))) := by
  have hne : ¬ (d.drop 8).isEmpty = true := by
    rw [List.isEmpty_iff, List.drop_eq_nil_iff]
    omega
  rw [State.stage, List.length_drop]
  exact if_neg hne

theorem imageSegment_stages {s : State} {d : Bytes} (hs : Serves s) (hc : Canonical s) (hloaded : s.binding.loaded = false)
    (hend : s.stagingBase + s.stagingSize ≤ deviceArea) (hl : InLimits s) (hd : 9 ≤ d.length)
    (hfit : beAt d 0 8 + (d.length - 8) ≤ s.stagingSize) : ∃ t, exec (.imageSegment d) s = .next t ∧ t.lastStatus = 0 ∧
      (∀ k, k < d.length - 8 → t.loadByte (s.stagingBase + beAt d 0 8 + k) = d.getD (8 + k) 0) ∧
      t.idx 0x5086 0 = max (s.idx 0x5086 0) (beAt d 0 8 + (d.length - 8)) ∧ t.cores = s.cores ∧ t.binding = s.binding := by
  have hlen : (d.drop 8).length = d.length - 8 := List.length_drop
  have hw := s.writeMem_touches (s.stagingBase + beAt d 0 8) (d.drop 8) 0xFF
  obtain ⟨-, -, hindex⟩ := closed_storesWf.writeMem (a1 := s.stagingBase + beAt d 0 8) (a2 := d.drop 8) (a3 := 0xFF)
    (storesWf_of_canonical hc)
  obtain ⟨hmem, -⟩ := hc
  obtain ⟨hcells, -⟩ := memoryWf_iff.1 hmem
  have hbytes := fun k => State.loadByte_writeMem hl hcells (a := s.stagingBase + beAt d 0 8) (data := d.drop 8) (by omega) 0xFF (k := k)
  have hexec := execImageSegment_of_ok hs hloaded (by omega) hfit
  rw [State.stage_of_bytes hd] at hexec
  generalize s.writeMem (s.stagingBase + beAt d 0 8) (d.drop 8) 0xFF = v at *
  refine ⟨_, hexec.trans (State.ends_of_fixed hw.dev hw.pending), rfl, fun k hk => ?_, State.idx_idxSet_self hindex _ _ _, hw.cores,
    hw.binding⟩
  rw [State.loadByte_noted _ _ _ _ _ _ (by omega), hbytes k (by omega)]
  simp [List.getD_eq_getElem?_getD]

/-- A discard leaves nothing staged and every other byte as it was (R197). -/
theorem discard_clears {s : State} (hs : Serves s) (hc : Canonical s) (hloaded : s.binding.loaded = false)
    (hend : s.stagingBase + s.stagingSize ≤ deviceArea) : ∃ t, exec .discard s = .next t ∧ t.idx 0x5086 0 = 0 ∧
      (∀ a, s.stagingBase ≤ a → a < s.stagingBase + s.stagingSize → t.loadByte a = 0) ∧
      (∀ a, a < s.stagingBase → t.loadByte a = s.loadByte a) ∧
      t = { s with index := t.index, mem := t.mem, lastStatus := 0, lastData := [] } := by
  have hmem := fun a => State.loadByte_noted (s.clearMem s.stagingBase s.stagingSize) 0x5086 0 0 0 [] (x := a)
  obtain ⟨-, -, -, -, hindex⟩ := hc
  refine ⟨_, execDiscard_eq hs hloaded, State.idx_idxSet_self (s := s.clearMem _ _) hindex _ _ _, fun a hlo hhi => ?_,
    fun a ha => ?_, rfl⟩
  · exact (hmem a (by omega)).trans (s.loadByte_clearMem (by omega) ⟨hlo, hhi⟩)
  · exact (hmem a (by omega)).trans (s.loadByte_clearMem_of_not_mem (by omega) (by omega))

/-- The staging region moves to `base` with n bytes, `size` GiB, and every staged byte is cleared. -/
def State.moveStaging (s : State) (size base n : Nat) : State :=
  (((s.clearStaged.idxSet 0x5083 0 size).idxSet 0x7031 0 s.overflowBase).idxSet 0x7032 0 base).clearMem base n

theorem State.moveStaging_frame (s : State) (size base n : Nat) :
    ∃ i m, s.moveStaging size base n = { s with index := i, mem := m } := by
  unfold State.moveStaging State.clearStaged State.clearMem State.idxSet
  exact ⟨_, _, rfl⟩

theorem State.idx_moveStaging {s : State} (h : indexWf s.index = true) (size base n : Nat) :
    (s.moveStaging size base n).idx 0x5083 0 = size ∧ (s.moveStaging size base n).overflowBase = s.overflowBase ∧
      (s.moveStaging size base n).stagingBase = base ∧ (s.moveStaging size base n).idx 0x5086 0 = 0 := by
  have hcleared : indexWf s.clearStaged.index = true := State.indexWf_idxSet (s := s.clearMem s.stagingBase s.stagingSize) h _ _ _
  have hstaged : s.clearStaged.idx 0x5086 0 = 0 := by
    rw [State.clearStaged]
    exact State.idx_idxSet_self h _ _ _
  obtain ⟨hsize, htop, hbase, hextent⟩ := State.idx_of_moved hcleared size s.overflowBase base
  refine ⟨?_, ?_, ?_, ?_⟩ <;> rw [State.moveStaging]
  · rw [State.idx_clearMem, hsize]
  · rw [State.overflowBase_clearMem, htop]
  · rw [State.stagingBase_clearMem, hbase]
  · rw [State.idx_clearMem, hextent, hstaged]

theorem State.loadByte_moveStaging (s : State) {size base n a : Nat} (hend : base + n ≤ deviceArea) (hlo : base ≤ a) (hhi : a < base + n) :
    (s.moveStaging size base n).loadByte a = 0 := State.loadByte_clearMem _ (by omega) ⟨hlo, hhi⟩

/-- Where the staging region lies below the overflow region, the size that stands changes nothing and another one moves the staging
base alone (R310). -/
theorem State.setStaging_eq {s : State} {k : Nat} (hk : k ≤ 64) (htop : s.overflowBase = deviceArea - k * 2 ^ 30)
    (hbase : s.stagingBase = s.overflowBase - s.stagingSize) {v : Nat} (hv : v ≤ 256) (hold : s.idx 0x5083 0 ≤ 256) :
    s.setStaging v = if v = s.idx 0x5083 0 then s else s.moveStaging v (s.overflowBase - v * 2 ^ 30) (v * 2 ^ 30) := by
  have hsize : s.stagingSize = s.idx 0x5083 0 * 2 ^ 30 := rfl
  have hgib : (deviceArea - s.overflowBase) / 2 ^ 30 = k := by
    unfold deviceArea at *
    omega
  have hsame : s.stagingBase = s.overflowBase - v * 2 ^ 30 ↔ v = s.idx 0x5083 0 := by
    unfold deviceArea at *
    omega
  rw [State.setStaging, hgib, State.carve, ← htop, State.moveStaging]
  simp only [decide_true, Bool.true_and, decide_eq_true_eq, hsame]

/-- What a staging size write has done to the state. -/
structure StagingSized (gib : Nat) (s t : State) : Prop where
  frame : t = { s with index := t.index, mem := t.mem }
  size : t.idx 0x5083 0 = gib
  top : t.overflowBase = s.overflowBase
  base : t.stagingBase = s.overflowBase - gib * 2 ^ 30
  cleared : gib ≠ s.idx 0x5083 0 → t.idx 0x5086 0 = 0 ∧
    ∀ a, t.stagingBase ≤ a → a < t.stagingBase + t.stagingSize → t.loadByte a = 0

theorem State.setStaging_sized {s : State} (hw : indexWf s.index = true) {k : Nat} (hk : k ≤ 64)
    (htop : s.overflowBase = deviceArea - k * 2 ^ 30) (hbase : s.stagingBase = s.overflowBase - s.stagingSize) {v : Nat} (hv : v ≤ 256)
    (hold : s.idx 0x5083 0 ≤ 256) : StagingSized v s (s.setStaging v) := by
  rw [State.setStaging_eq hk htop hbase hv hold]
  by_cases hsame : v = s.idx 0x5083 0
  · rw [if_pos hsame]
    exact ⟨rfl, hsame.symm, rfl, by rw [hbase, State.stagingSize, hsame], fun h => absurd hsame h⟩
  · rw [if_neg hsame]
    have hfit : s.overflowBase - v * 2 ^ 30 + v * 2 ^ 30 ≤ deviceArea := by
      unfold deviceArea at *
      omega
    obtain ⟨hsize, htop', hbase', hextent⟩ := State.idx_moveStaging hw v (s.overflowBase - v * 2 ^ 30) (v * 2 ^ 30)
    obtain ⟨i, m, hframe⟩ := s.moveStaging_frame v (s.overflowBase - v * 2 ^ 30) (v * 2 ^ 30)
    refine ⟨by rw [hframe], hsize, htop', hbase', fun _ => ⟨hextent, fun a hlo hhi => ?_⟩⟩
    rw [State.stagingSize, hsize] at hhi
    rw [hbase'] at hlo hhi
    exact s.loadByte_moveStaging hfit hlo hhi

theorem stagingSizeWrite_moves {s : State} {g : BitVec 16} (hs : Serves s) (hc : Canonical s) (hloaded : s.binding.loaded = false)
    {k : Nat} (hk : k ≤ 64) (htop : s.overflowBase = deviceArea - k * 2 ^ 30) (hbase : s.stagingBase = s.overflowBase - s.stagingSize)
    (hlo : 16 ≤ g.toNat) (hhi : g.toNat ≤ 256) (hold : s.idx 0x5083 0 ≤ 256) :
    ∃ t, exec (.stagingSizeWrite g) s = .next t ∧ t.idx 0x5083 0 = g.toNat ∧ t.overflowBase = s.overflowBase ∧
      t.stagingBase = s.overflowBase - g.toNat * 2 ^ 30 ∧
      (g.toNat ≠ s.idx 0x5083 0 → t.idx 0x5086 0 = 0 ∧
        ∀ a, t.stagingBase ≤ a → a < t.stagingBase + t.stagingSize → t.loadByte a = 0) ∧
      t = { s with index := t.index, mem := t.mem, lastStatus := 0, lastData := [] } := by
  have hexec := execStagingSizeWrite_eq hs hloaded hlo hhi
  obtain ⟨-, -, -, -, hindex⟩ := hc
  have hsized := State.setStaging_sized hindex hk htop hbase hhi hold
  generalize s.setStaging g.toNat = v at *
  obtain ⟨hframe, hsize, htop', hbase', hcleared⟩ := hsized
  have hdev : v.dev = s.dev := (congrArg State.dev hframe :)
  have hpending : v.pending = s.pending := (congrArg State.pending hframe :)
  exact ⟨v.noteAccess 0 [], hexec.trans (State.ends_of_fixed hdev hpending), hsize, htop', hbase', hcleared,
    congrArg (·.noteAccess 0 []) hframe⟩

/-- Settles O31: each of the three commands is one accepted write, whose effect on memory is a store or a cleared span. -/
theorem imagesAreStaged : Obligations.ImagesAreStaged := by
  unfold Obligations.ImagesAreStaged
  intro s d g hs hc hloaded _ hend
  refine ⟨fun hl hd hfit => imageSegment_stages hs hc hloaded hend hl hd hfit, fun hd hfit => ?_, fun h => ?_,
    discard_clears hs hc hloaded hend, fun k hk htop hbase hlo hhi hold => stagingSizeWrite_moves hs hc hloaded hk htop hbase hlo hhi hold⟩
  · have hstay : s.stage d = s := if_pos (by simp [hd])
    have hexec := execImageSegment_of_ok hs hloaded (d := d) (by omega) (by omega)
    rw [hstay] at hexec
    exact hexec.trans (State.ends_of_fixed rfl rfl)
  · exact execImageSegment_of_not_ok hs hloaded h

end Sys2Proof.Machine
end

section
/-!
SUPPORT. Loading (R197, R198, R205): what the checks read, a refusal and an installation leave of the folio, and the settlement of O32.
-/
namespace Sys2Proof.Machine

open Sys2Proof

/-! ### The staged image -/

theorem State.stagedWord_passOnly (s : State) (w : Nat) : PassOnly s (s.stagedWord w).1 := by
  have hread := s.readWord_passOnly w .unit 0xFF
  have hdraw : ∀ v : State, PassOnly v v.draw.2 := fun v => ⟨⟨_, _, _, rfl⟩, rfl⟩
  exact .ite_fst (hread.trans (hdraw _)) hread

theorem State.stagedImage_passOnly (s : State) : PassOnly s s.stagedImage.1 := by
  unfold State.stagedImage
  refine PassOnly.foldl_fst (p := (s, [])) (fun p i => ?_) _
  exact p.1.stagedWord_passOnly (s.stagingBase / 16 + i)

/-! ### The sections (R198, steps 2 and 3) -/

theorem State.putBytes_touches (s : State) (a : Nat) (data : Bytes) : Touches s (s.putBytes a data).1 :=
  .ite_fst (s.readWord_touches _ _ _) (s.writeMem_touches _ _ _)

theorem State.zeroSpan_touches (s : State) (a n : Nat) : Touches s (s.zeroSpan a n).1 :=
  (s.clearMem_touches _ _).trans (State.putBytes_touches _ _ _)

theorem Touches.onward {s : State} {x : State × Option Nat} (h : Touches s x.1) {f : State → State × Option Nat}
    (hf : ∀ v, Touches v (f v).1) : Touches s (onward x f).1 := by
  unfold Machine.onward
  split
  · exact h.trans (hf _)
  · exact h

theorem State.putSection_touches (s : State) (m : Image) (k a : Nat) : Touches s (s.putSection m k a).1 := by
  unfold State.putSection
  dsimp only
  split
  · exact s.readMem_touches _ _ _ _
  · exact (s.readMem_touches _ _ _ _).trans (State.putBytes_touches _ _ _)

theorem State.fillRegion_touches (s : State) (m : Image) (r : ImageRecord) : Touches s (s.fillRegion m r).1 :=
  .onward (s.zeroSpan_touches _ _) fun v => .ite_fst (.refl v) (v.putSection_touches _ _ _)

theorem State.fillSet_touches (s : State) (m : Image) (r : ImageRecord) : Touches s (s.fillSet m r).1 :=
  .ite_fst (.refl s) (s.putSection_touches _ _ _)

theorem State.fillCode_touches (s : State) (m : Image) (r : ImageRecord) : Touches s (s.fillCode m r).1 :=
  .ite_fst (s.putSection_touches _ _ _) (.refl s)

theorem State.readProgram_touches (s : State) (m : Image) (r : ImageRecord) : Touches s (s.readProgram m r).1 :=
  s.readMem_touches _ _ _ _

theorem State.fillKind_touches (m : Image) (kind : Nat) {f : State → Image → ImageRecord → State × Option Nat}
    (hf : ∀ v r, Touches v (f v m r).1) (x : State × Option Nat) : Touches x.1 (State.fillKind m kind f x).1 :=
  .foldl_fst (fun p r => .onward (.refl p.1) fun v => hf v r) _

theorem State.stashHeaders_touches (s : State) (t : Stash) : Touches s (s.stashHeaders t) :=
  .foldl (fun v _ => .foldl (fun w _ => w.writeMem_touches _ _ _) _ v) _ s

theorem State.fillAll_touches (s : State) (m : Image) (t : Stash) : Touches s (s.fillAll m t).1 := by
  have hsets := State.fillKind_touches m 7 (fun v r => v.fillSet_touches m r) (s, none)
  have hregions := hsets.trans (State.fillKind_touches m 8 (fun v r => v.fillRegion_touches m r) _)
  have hheaded := hregions.onward (f := fun v => (v.stashHeaders t, none)) fun v => v.stashHeaders_touches t
  exact (hheaded.trans (State.fillKind_touches m 4 (fun v r => v.fillCode_touches m r) _)).trans
    (State.fillKind_touches m 0x0A (fun v r => v.readProgram_touches m r) _)

theorem State.clearRings_touches (s : State) (m : Image) : Touches s (s.clearRings m) :=
  .foldl (fun v _ => .ite (.refl v) (v.writeMem_touches _ _ _)) _ s

/-! ### The contexts (R198, step 3) -/

/-- From s to t the cores, the stash, the binding and the clock stand as they were, and so do fuses, ROM and the queue. -/
structure Stands (s t : State) : Prop where
  dev : t.dev = s.dev
  pending : t.pending = s.pending
  clock : t.clock = s.clock
  cores : t.cores = s.cores
  stash : t.stash = s.stash
  binding : t.binding = s.binding

namespace Stands

variable {s t u : State}

theorem refl (s : State) : Stands s s := ⟨rfl, rfl, rfl, rfl, rfl, rfl⟩

theorem trans (h : Stands s t) (k : Stands t u) : Stands s u :=
  ⟨k.dev.trans h.dev, k.pending.trans h.pending, k.clock.trans h.clock, k.cores.trans h.cores, k.stash.trans h.stash,
    k.binding.trans h.binding⟩

theorem of_touches (h : Touches s t) : Stands s t := ⟨h.dev, h.pending, h.clock, h.cores, h.stash, h.binding⟩

theorem setCtx (s : State) (n : Nat) (v : Ctx) : Stands s (s.setCtx n v) := ⟨rfl, rfl, rfl, rfl, rfl, rfl⟩

theorem foldl {α : Type} {f : State → α → State} (hf : ∀ v a, Stands v (f v a)) (l : List α) (s : State) :
    Stands s (l.foldl f s) := P_foldl (P := Stands s) (.refl s) fun v a hv => hv.trans (hf v a)

end Stands

theorem State.takeLeaves_touches (n : Nat) (s : State) (acc : List Nat) : Touches s (State.takeLeaves n s acc).1 := by
  induction n generalizing s acc with
  | zero => exact .refl s
  | succ n ih =>
    have halloc := s.alloc_touches false
    unfold State.takeLeaves
    split
    · next h =>
      rw [h] at halloc
      exact halloc.trans (ih _ _)
    · next h =>
      rw [h] at halloc
      exact halloc

theorem State.bindContexts_stands (s : State) (m : Image) : Stands s (s.bindContexts m) :=
  Stands.trans (t := { s with ctxs := [] }) ⟨rfl, rfl, rfl, rfl, rfl, rfl⟩
    (.foldl (fun v _ => (Stands.of_touches (State.takeLeaves_touches _ v [])).trans (.setCtx _ _ _)) _ _)

/-! ### Refusal and installation (R197, R198, R205) -/

theorem State.idx_refuseImage {s : State} (h : indexWf s.index = true) (code detail : Nat) :
    (s.refuseImage code detail).idx 0x5085 0 = detail % 2 ^ 64 := State.idx_idxSet_self h _ _ _

theorem State.colophonWord_refuseImage (s : State) (code detail : Nat) : (s.refuseImage code detail).colophonWord 0x78 = detail % 2 ^ 64 :=
  fget_fset_self (m := []) rfl 0x78 (detail % 2 ^ 64)

section Load

variable {s u : State} {b : Bytes} {m : Image} {o : Nat} (h : s.stagedImage = (u, b))
include h

theorem State.load_of_fault (hp : parseImage b = .error o) : s.load = u.refuseImage 0x03 o := by
  simp only [State.load, h, hp]

theorem State.load_of_check (hp : parseImage b = .ok m) {code detail : Nat} (hc : u.checkImage m = some (code, detail)) :
    s.load = u.refuseImage code detail := by
  simp only [State.load, h, hp, hc]

theorem State.load_of_sound (hp : parseImage b = .ok m) (hc : u.checkImage m = none) : s.load = u.install m := by
  simp only [State.load, h, hp, hc]

end Load

/-- The Index takes a load where no binding is loaded and firmware runs (R197, R409). -/
theorem execLoad_eq {s : State} (hs : Serves s) (hloaded : s.binding.loaded = false) (hrun : s.firmwareRunning = true) :
    execLoad s = s.ends (s.load.noteAccess 0 []) := by
  have hst : s.numericStatus s [(0x5081, 0)] 0x5081 0 1 = 0 := by
    simp [State.numericStatus, State.refusesCompute, hloaded, hrun, b2n]
  exact congrArg s.ends (State.writeNumber_of_allowed hs (by decide) (by decide) (by decide) hst)

theorem execLoad_of_refused {s : State} (hs : Serves s) (h : s.binding.loaded = true ∨ s.firmwareRunning = false) :
    execLoad s = .next (s.noteAccess 1 []) := by
  have hst : s.numericStatus s [(0x5081, 0)] 0x5081 0 1 = 1 := by
    obtain h | h := h <;> simp [State.numericStatus, State.refusesCompute, h, b2n]
  exact (congrArg s.ends (State.writeNumber_of_refused hs (by decide) (by decide) (by decide) hst (by decide))).trans
    (State.ends_of_fixed rfl rfl)

/-- An image that is refused leaves no binding, the colophon of a refusal, and of all else what reading it left (R197, R205). -/
theorem load_refuses {s u : State} {b : Bytes} {code detail : Nat} (hs : Serves s) (hc : Canonical s) (hstaged : s.stagedImage = (u, b))
    (hloaded : s.binding.loaded = false) (hrun : s.firmwareRunning = true) (hload : s.load = u.refuseImage code detail) :
    ∃ t, exec .load s = .next t ∧ t.binding.loaded = false ∧ t.colophonPhase = 2 ∧ t.binding.refusal = code ∧
      t.idx 0x5085 0 = detail % 2 ^ 64 ∧ t.colophonWord 0x78 = detail % 2 ^ 64 ∧ t.cores = s.cores ∧ t.ctxs = s.ctxs ∧
      t.mem.cells = s.mem.cells := by
  obtain ⟨hreads, hcells⟩ : PassOnly s u := (congrArg (PassOnly s ·.1) hstaged).mp s.stagedImage_passOnly
  obtain ⟨-, -, hindex⟩ : StoresWf u := (congrArg (StoresWf ·.1) hstaged).mp (closed_storesWf.stagedImage (storesWf_of_canonical hc))
  have hexec := execLoad_eq hs hloaded hrun
  rw [hload] at hexec
  obtain ⟨n, i, mem, rfl⟩ := hreads
  exact ⟨_, hexec.trans (State.ends_of_fixed rfl rfl), rfl, rfl, rfl, State.idx_refuseImage hindex code detail,
    State.colophonWord_refuseImage _ code detail, rfl, rfl, hcells⟩

/-- The stash, the rings, the cores and the contexts of a new binding (R198, step 3). -/
def State.equip (v : State) (m : Image) : State := { { v with stash := m.stashOf }.clearRings m with cores := m.coresOf }.bindContexts m

theorem State.equip_stands (v : State) (m : Image) : Stands { v with stash := m.stashOf, cores := m.coresOf } (v.equip m) := by
  obtain ⟨hdev, hpending, hclock, -, hstash, hbinding⟩ := Stands.of_touches ({ v with stash := m.stashOf }.clearRings_touches m)
  refine Stands.trans ?_ (State.bindContexts_stands _ m)
  exact ⟨hdev, hpending, hclock, rfl, hstash, hbinding⟩

theorem storesWf_equip {v : State} (h : StoresWf v) (m : Image) : StoresWf (v.equip m) :=
  closed_storesWf.bindContexts (closed_storesWf.clearRings (s := { v with stash := m.stashOf }) h)

/-- A binding takes its place, with its digest and no offset of a fault (R197, R198). -/
def State.declare (w : State) (b : Binding) (digest : Bytes) : State :=
  (State.idxSet { w with binding := b } 0x5085 0 0).domainSet 0x5084 0 digest

theorem State.install_of_filled {u v : State} {m : Image} (h : u.clearBinding.fillAll m m.stashOf = (v, none)) : ∃ strict held,
    u.install m = (v.equip m).declare (m.bindingOf strict held) (sha384 m.bytes) := by
  refine ⟨(v.equip m).strict, (v.equip m).idx 0x8010 0 == 2 && (v.equip m).proofing, ?_⟩
  simp only [State.install, h]
  rfl

theorem State.install_of_unread {u : State} {m : Image} {a : Nat} (h : (u.clearBinding.fillAll m m.stashOf).2 = some a) :
    u.install m = (u.clearBinding.fillAll m m.stashOf).1.refuseImage 0x16 a := by
  simp only [State.install, h]

/-- What an installed image makes of the folio (R198). -/
theorem load_installs {s u : State} {b : Bytes} {m : Image} (hs : Serves s) (hc : Canonical s) (hstaged : s.stagedImage = (u, b))
    (hloaded : s.binding.loaded = false) (hrun : s.firmwareRunning = true) (hp : parseImage b = .ok m) (hcheck : u.checkImage m = none)
    (hfill : (u.clearBinding.fillAll m m.stashOf).2 = none) :
    ∃ t, exec .load s = .next t ∧ t.lastStatus = 0 ∧ t.binding.loaded = true ∧ t.binding.phase = 3 ∧ t.binding.coresPending = true ∧
      t.domain 0x5084 0 = sha384 m.bytes ∧ t.idx 0x5085 0 = 0 ∧ t.cores = m.coresOf ∧ t.stash = m.stashOf ∧ t.clock.bindingReq = 0 := by
  obtain ⟨hreads, -⟩ : PassOnly s u := (congrArg (PassOnly s ·.1) hstaged).mp s.stagedImage_passOnly
  have hwf : StoresWf u := (congrArg (StoresWf ·.1) hstaged).mp (closed_storesWf.stagedImage (storesWf_of_canonical hc))
  have hexec := execLoad_eq hs hloaded hrun
  have hfilled := u.clearBinding.fillAll_touches m m.stashOf
  have hfilledWf := closed_storesWf.fillAll (a1 := m) (a2 := m.stashOf) (closed_storesWf.clearBinding hwf)
  obtain ⟨v, hv⟩ : ∃ v, u.clearBinding.fillAll m m.stashOf = (v, none) := ⟨_, Prod.ext rfl hfill⟩
  rw [hv] at hfilled hfilledWf
  obtain ⟨strict, held, hinstall⟩ := State.install_of_filled hv
  have hequipped := v.equip_stands m
  obtain ⟨-, hdomains, hindex⟩ := storesWf_equip hfilledWf m
  rw [State.load_of_sound hstaged hp hcheck, hinstall] at hexec
  generalize v.equip m = w at *
  refine ⟨_, hexec.trans (State.ends_of_fixed ?_ ?_), rfl, rfl, rfl, rfl, fget_fset_self hdomains _ _, State.idx_idxSet_self hindex _ _ _,
    hequipped.cores, hequipped.stash, ?_⟩
  · exact hequipped.dev.trans (hfilled.dev.trans hreads.dev)
  · exact hequipped.pending.trans (hfilled.pending.trans hreads.pending)
  · exact congrArg Clock.bindingReq (hequipped.clock.trans hfilled.clock)

/-- A section of which a word cannot be read ends the installation (R198). -/
theorem load_of_unread {s u : State} {b : Bytes} {m : Image} {a : Nat} (hs : Serves s) (hc : Canonical s) (hstaged : s.stagedImage = (u, b))
    (hloaded : s.binding.loaded = false) (hrun : s.firmwareRunning = true) (hp : parseImage b = .ok m) (hcheck : u.checkImage m = none)
    (hfill : (u.clearBinding.fillAll m m.stashOf).2 = some a) :
    ∃ t, exec .load s = .next t ∧ t.binding.loaded = false ∧ t.binding.refusal = 0x16 ∧ t.idx 0x5085 0 = a % 2 ^ 64 := by
  obtain ⟨hreads, -⟩ : PassOnly s u := (congrArg (PassOnly s ·.1) hstaged).mp s.stagedImage_passOnly
  have hwf : StoresWf u := (congrArg (StoresWf ·.1) hstaged).mp (closed_storesWf.stagedImage (storesWf_of_canonical hc))
  have hexec := execLoad_eq hs hloaded hrun
  have hfilled := u.clearBinding.fillAll_touches m m.stashOf
  obtain ⟨-, -, hindex⟩ := closed_storesWf.fillAll (a1 := m) (a2 := m.stashOf) (closed_storesWf.clearBinding hwf)
  rw [State.load_of_sound hstaged hp hcheck, State.install_of_unread hfill] at hexec
  generalize (u.clearBinding.fillAll m m.stashOf).1 = v at *
  exact ⟨_, hexec.trans (State.ends_of_fixed (hfilled.dev.trans hreads.dev) (hfilled.pending.trans hreads.pending)), rfl, rfl,
    State.idx_refuseImage hindex 0x16 a⟩

/-- Settles O32: the Index takes or refuses the load; a load that it takes ends in a refusal or in an installation. -/
theorem loadChecksAndInstalls : Obligations.LoadChecksAndInstalls := by
  unfold Obligations.LoadChecksAndInstalls
  intro s u b m o hs hc hstaged
  refine ⟨fun hloaded hrun hp => load_refuses hs hc hstaged hloaded hrun (State.load_of_fault hstaged hp),
    fun code detail hloaded hrun hp hcheck => ?_,
    fun hloaded hrun hp hcheck => ⟨load_installs hs hc hstaged hloaded hrun hp hcheck,
      fun a => load_of_unread hs hc hstaged hloaded hrun hp hcheck⟩,
    execLoad_of_refused hs⟩
  obtain ⟨t, hexec, hended, hphase, hrefusal, hdetail, -, hrest⟩ :=
    load_refuses hs hc hstaged hloaded hrun (State.load_of_check hstaged hp hcheck)
  exact ⟨t, hexec, hended, hphase, hrefusal, hdetail, hrest⟩

end Sys2Proof.Machine
end

section
/-!
SUPPORT. The start of a binding's cores (R198), the stop of every core at a release, and the end of a binding (R199).
-/
namespace Sys2Proof.Machine

open Sys2Proof

/-! ### The cores start (R198) -/

/-- What its start makes of a core. -/
def Core.begun (x : Core) : Core := { x with run := .running, pc := x.entry }

/-- From s to t the listed cores have started. -/
structure CoresBegun (l : List Nat) (s t : State) : Prop where
  frame : ∃ m, t = { s with cores := { s.cores with cores := m } }
  listed : ∀ c ∈ l, t.core c = (s.core c).begun
  others : ∀ c, c ∉ l → t.core c = s.core c

theorem coresBegun_foldl {l : List Nat} (hl : l.Nodup) (s : State) :
    CoresBegun l s (l.foldl (fun v c => v.setCore c (v.core c).begun) s) := by
  induction l generalizing s with
  | nil => exact ⟨⟨_, rfl⟩, nofun, fun _ _ => rfl⟩
  | cons a l ih =>
    obtain ⟨ha, hl⟩ := List.nodup_cons.1 hl
    obtain ⟨⟨m, hm⟩, hlisted, hothers⟩ := ih hl (s.setCore a (s.core a).begun)
    have hself : (s.setCore a (s.core a).begun).core a = (s.core a).begun :=
      State.core_setCore_listed s a (Core.ne_reset_of_running rfl)
    refine ⟨⟨m, hm⟩, fun c hc => ?_, fun c hc => ?_⟩
    · obtain rfl | hc := List.mem_cons.1 hc
      · exact (hothers c ha).trans hself
      · have hne : c ≠ a := fun e => ha (e ▸ hc)
        rw [List.foldl_cons, hlisted c hc, State.core_setCore_ne _ _ hne]
    · obtain ⟨hne, hc⟩ := not_or.1 (mt List.mem_cons.2 hc)
      rw [List.foldl_cons, hothers c hc, State.core_setCore_ne _ _ hne]

/-- The cores that start: those with a core record. -/
def State.declaredCores (s : State) : List Nat := (List.range 32).filter fun c => (s.core c).declared

theorem State.mem_declaredCores {s : State} {c : Nat} : c ∈ s.declaredCores ↔ c < 32 ∧ (s.core c).declared = true := by
  simp [State.declaredCores]

theorem State.startCores_spec (s : State) : ∃ b, s.startCores = { s with cores := s.startCores.cores, binding := b } ∧
    b.coresPending = false ∧ (∃ m, s.startCores.cores = { s.cores with cores := m }) ∧
    (∀ c ∈ s.declaredCores, s.startCores.core c = (s.core c).begun) ∧ (∀ c, c ∉ s.declaredCores → s.startCores.core c = s.core c) := by
  obtain ⟨⟨m, hm⟩, hlisted, hothers⟩ := coresBegun_foldl (l := s.declaredCores) (List.nodup_range.filter _) s
  obtain ⟨b, hb, hpending⟩ : ∃ b, s.startCores =
      { s.declaredCores.foldl (fun v c => v.setCore c (v.core c).begun) s with binding := b } ∧ b.coresPending = false :=
    ⟨_, rfl, rfl⟩
  rw [hb]
  refine ⟨b, ?_, hpending, ⟨m, ?_⟩, hlisted, hothers⟩ <;> rw [hm]

theorem State.colophonFlag_spec (s : State) (n : Nat) : ∃ f, s.colophonFlag n = { s with binding := { s.binding with flags := f } } ∧
    bit f n = true := by
  unfold State.colophonFlag
  split
  · exact ⟨_, rfl, ‹_›⟩
  · next h =>
    refine ⟨_, rfl, ?_⟩
    have hpos : 0 < 2 ^ n := Nat.two_pow_pos n
    simp only [bit, beq_iff_eq] at h ⊢
    rw [Nat.add_div_right _ hpos]
    omega

/-- What CORES_START has done: every core with a record runs at its entry, and of a start stitch that had passed the colophon says so. -/
structure Started (s t : State) : Prop where
  frame : t = { s with cores := t.cores, binding := t.binding }
  pending : t.binding.coresPending = false
  cmds : t.cores.cmds = s.cores.cmds
  begun : ∀ c, c < 32 → (s.core c).declared = true → t.core c = { s.core c with run := .running, pc := (s.core c).entry }
  others : ∀ c, (s.core c).declared = false → t.core c = s.core c

theorem State.startCores_started (s : State) : Started s s.startCores := by
  obtain ⟨b, hb, hpending, ⟨m, hm⟩, hlisted, hothers⟩ := s.startCores_spec
  refine ⟨?_, ?_, ?_, fun c hc hd => hlisted c (State.mem_declaredCores.2 ⟨hc, hd⟩), fun c hd => hothers c fun hc => ?_⟩
  · rw [hb]
  · rw [hb, hpending]
  · rw [hm]
  · exact absurd (State.mem_declaredCores.1 hc).2 (by simp [hd])

theorem Started.late {s t : State} (h : Started s t) (n : Nat) : Started s (t.colophonFlag n) ∧ bit (t.colophonFlag n).binding.flags n = true := by
  obtain ⟨f, hf, hbit⟩ := t.colophonFlag_spec n
  obtain ⟨hframe, hpending, hcmds, hbegun, hothers⟩ := h
  rw [hf]
  exact ⟨⟨by rw [hframe], hpending, hcmds, hbegun, hothers⟩, hbit⟩

section CoresStart

variable {s : State} (hloaded : s.binding.loaded = true) (hpending : s.binding.coresPending = true) (hheld : s.binding.heldShadow = false)
include hloaded hpending hheld

theorem coresStart_starts (hcycle : s.clock.cycle = 0) (hstitch : s.binding.startStitch ≤ s.clock.stitch) :
    ∃ t, exec .coresStart s = .next t ∧ Started s t ∧
      (bit t.binding.flags 19 = true ∨ s.binding.startStitch = 0 ∨ s.binding.startStitch = s.clock.stitch) := by
  have hexec : exec .coresStart s = s.ends (if s.binding.startStitch ≠ 0 && s.binding.startStitch < s.clock.stitch then
      s.startCores.colophonFlag 19 else s.startCores) := by
    show execCoresStart s = _
    rw [execCoresStart]
    simp [hloaded, hpending, hheld, hcycle, Nat.not_lt.2 hstitch]
  have hstarted := s.startCores_started
  have hends : ∀ t, Started s t → s.ends t = .next t := fun t ht =>
    State.ends_of_fixed (congrArg State.dev ht.frame :) (congrArg State.pending ht.frame :)
  rw [hexec]
  split
  · obtain ⟨hlate, hbit⟩ := hstarted.late 19
    exact ⟨_, hends _ hlate, hlate, .inl hbit⟩
  · next h =>
    refine ⟨_, hends _ hstarted, hstarted, .inr ?_⟩
    simp at h
    omega

theorem coresStart_waits (h : s.clock.cycle ≠ 0 ∨ s.clock.stitch < s.binding.startStitch) : exec .coresStart s = .next s := by
  refine State.ends_self (if_pos ?_)
  simpa [hloaded, hpending, hheld] using h

end CoresStart

/-! ### Every core stops (R182, R199) -/

/-- From s to t the running ones of the listed cores have stopped. -/
structure CoresStopped (l : List Nat) (s t : State) : Prop where
  frame : ∃ m, t = { s with cores := { s.cores with cores := m } }
  listed : ∀ c ∈ l, (t.core c).run ≠ .running
  others : ∀ c, (s.core c).run ≠ .running → t.core c = s.core c

theorem State.stopCore_of_no_commands {s : State} (h : s.cores.cmds = []) (a : Nat) : CoresStopped [a] s (s.stopCore a) := by
  by_cases hrun : (s.core a).run = .running
  · obtain ⟨record, hstop, -⟩ := State.stopCore_of_running hrun
    rw [hstop, State.squashAll_of_no_commands (s := s.setCore a _) h]
    refine ⟨⟨_, rfl⟩, fun c hc => ?_, fun c hc => State.core_setCore_ne _ _ fun e => hc (e ▸ hrun)⟩
    rw [List.mem_singleton.1 hc, State.core_setCore_listed s a (Core.stopped_ne_reset _ _)]
    exact nofun
  · rw [State.stopCore, if_neg hrun]
    exact ⟨⟨_, rfl⟩, fun c hc => by rwa [List.mem_singleton.1 hc], fun _ _ => rfl⟩

theorem coresStopped_foldl (l : List Nat) {s : State} (h : s.cores.cmds = []) : CoresStopped l s (l.foldl State.stopCore s) := by
  induction l generalizing s with
  | nil => exact ⟨⟨_, rfl⟩, nofun, fun _ _ => rfl⟩
  | cons a l ih =>
    obtain ⟨⟨m, hm⟩, hself, hothers⟩ := State.stopCore_of_no_commands h a
    obtain ⟨⟨m', hm'⟩, hlisted', hothers'⟩ := ih (s := s.stopCore a) (by rw [hm]; exact h)
    refine ⟨⟨m', by rw [List.foldl_cons, hm', hm]⟩, fun c hc => ?_, fun c hc => ?_⟩
    · obtain rfl | hc := List.mem_cons.1 hc
      · have hstopped := hself c (List.mem_singleton_self c)
        rw [List.foldl_cons, hothers' c hstopped]
        exact hstopped
      · exact hlisted' c hc
    · have hkept := hothers c hc
      rw [List.foldl_cons, hothers' c (by rwa [hkept]), hkept]

theorem State.stopCores_of_none_running {s : State} (h : ∀ c, (s.core c).run ≠ .running) : s.stopCores = s :=
  P_foldl (P := (· = s)) rfl fun v c hv => by
    subst hv
    exact if_neg (h c)

/-! ### The end of a binding (R199) -/

theorem State.dropLead_ctxs (s : State) (n : Nat) : (s.dropLead n).ctxs = fset Ctx.reset s.ctxs n { s.ctx n with lead := [] } := by
  have hfreed : ∀ l : List Lead, (l.foldl (fun v x => (v.freeLeaves x.leaves).lateFragment n none) s).ctxs = s.ctxs := fun l =>
    P_foldl (P := fun v => v.ctxs = s.ctxs) rfl fun v x hv => (v.freeLeaves_touches x.leaves).ctxs.trans hv
  unfold State.dropLead State.setCtx State.ctx
  simp only [hfreed]

/-- What its end makes of a context. -/
def Ctx.unbound (x : Ctx) : Ctx := { x with declared := false, state := 0, reserve := [], items := [], localWait := [] }

theorem State.unbind_ctxs (s : State) (n : Nat) :
    (s.unbind n).ctxs = fset Ctx.reset (s.dropLead n).ctxs n ((s.dropLead n).ctx n).unbound := by
  unfold State.unbind State.setCtx
  dsimp only
  rw [(State.freeLeaves_touches _ _).ctxs]
  rfl

theorem State.ctx_unbind_self {s : State} (h : fwf Ctx.reset s.ctxs = true) (n : Nat) : ((s.unbind n).ctx n).declared = false := by
  rw [State.ctx, s.unbind_ctxs, s.dropLead_ctxs, fget_fset_self (fwf_fset h _ _)]
  rfl

theorem State.ctx_unbind_ne (s : State) {n k : Nat} (hk : k ≠ n) : (s.unbind n).ctx k = s.ctx k := by
  rw [State.ctx, State.unbind_ctxs, fget_fset_ne _ _ _ hk, State.dropLead_ctxs, fget_fset_ne _ _ _ hk, State.ctx]

theorem State.ctx_foldl_unbind (l : FMap Ctx) {s : State} (h : StoresWf s) {n : Nat}
    (hn : n ∈ l.map Prod.fst ∨ (s.ctx n).declared = false) : ((l.foldl (fun v e => v.unbind e.1) s).ctx n).declared = false := by
  induction l generalizing s with
  | nil => exact hn.resolve_left nofun
  | cons e l ih =>
    refine ih (closed_storesWf.unbind h) ?_
    by_cases he : n = e.1
    · exact .inr (he ▸ State.ctx_unbind_self h.1 n)
    · rw [State.ctx_unbind_ne s he]
      exact hn.imp_left fun hmem => (List.mem_cons.1 hmem).resolve_left he

/-- What has not started is squashed, core by core. -/
def State.squashEvery (s : State) : State := (List.range 32).foldl (fun v c => v.squashAll c) s

/-- Every context is unbound. -/
def State.unbindEvery (s : State) : State := s.ctxs.foldl (fun v e => v.unbind e.1) s

/-- Every declared overlay is cleared from the staging region. -/
def State.clearOverlays (s : State) : State :=
  s.binding.overlays.foldl (fun v o => v.writeMem (v.stagingBase + o.2.2.1) (zeros o.2.2.2) 0xFF) s

/-- No binding is loaded (R199). -/
def State.endBinding (s : State) : State :=
  { s with
    binding := { s.binding with loaded := false, releasing := false }
    cores := { s.cores with regionLoading := [] }
    proof := { s.proof with own := [], partner := [], outbox := [] } }

/-- Once every listed context is unbound, none is declared. -/
theorem State.ctx_unbindEvery {s : State} (h : StoresWf s) (n : Nat) : (s.unbindEvery.ctx n).declared = false := by
  refine State.ctx_foldl_unbind s.ctxs h ?_
  by_cases hn : s.ctx n = Ctx.reset
  · exact .inr (by rw [hn]; rfl)
  · exact .inl (List.mem_map_of_mem (mem_of_fget_ne hn))

theorem State.clearOverlays_ctx (s : State) (n : Nat) : s.clearOverlays.ctx n = s.ctx n :=
  congrArg (fget Ctx.reset · n) (Touches.foldl (fun v _ => v.writeMem_touches _ _ _) _ s).ctxs

theorem execReleaseComplete_of_done {s : State} (hreleasing : s.binding.releasing = true)
    (hstarted : s.cores.cmds.any Cmd.started = false) :
    execReleaseComplete s = s.ends s.squashEvery.unbindEvery.clearOverlays.endBinding := by
  rw [execReleaseComplete, if_neg (by simp [hreleasing, hstarted])]
  simp only [State.squashEvery, State.unbindEvery, State.clearOverlays, State.endBinding]

theorem releaseComplete_ends {s : State} (hc : Canonical s) (hreleasing : s.binding.releasing = true)
    (hstarted : s.cores.cmds.any Cmd.started = false) : ∃ t, exec .releaseComplete s = .next t ∧ t.binding.loaded = false ∧
      t.binding.releasing = false ∧ (∀ n, (t.ctx n).declared = false) ∧ t.cores.regionLoading = [] ∧ t.proof.own = [] ∧
      t.proof.partner = [] := by
  have hsquashed : StoresWf s.squashEvery := P_foldl (storesWf_of_canonical hc) fun v c hv => closed_storesWf.squashAll hv
  have hctx : ∀ n, (s.squashEvery.unbindEvery.clearOverlays.ctx n).declared = false := fun n => by
    rw [State.clearOverlays_ctx]
    exact State.ctx_unbindEvery hsquashed n
  have hexec := execReleaseComplete_of_done hreleasing hstarted
  generalize s.squashEvery.unbindEvery.clearOverlays = v at hctx hexec
  exact ⟨_, hexec, rfl, rfl, hctx, rfl, rfl, rfl⟩

end Sys2Proof.Machine
end

section
/-!
SUPPORT. A release by command (R199): with empty queues, and with an open step, whose unfinished item fails (R249); the settlement
of O34.
-/
namespace Sys2Proof.Machine

open Sys2Proof

/-! ### The command -/

/-- The Index takes a release while a binding is loaded (Table 14.7). -/
theorem execBindingRelease_of_loaded {s : State} (hs : Serves s) (h : s.binding.loaded = true) :
    execBindingRelease s = s.ends (s.release.noteAccess 0 []) := by
  have hst : s.numericStatus s [(0x5082, 0)] 0x5082 0 1 = 0 := by simp [State.numericStatus, State.refusesCompute, h, b2n]
  exact congrArg s.ends (State.writeNumber_of_allowed hs (by decide) (by decide) (by decide) hst)

theorem execBindingRelease_of_unloaded {s : State} (hs : Serves s) (h : s.binding.loaded = false) :
    execBindingRelease s = .next (s.noteAccess 1 []) := by
  have hst : s.numericStatus s [(0x5082, 0)] 0x5082 0 1 = 1 := by simp [State.numericStatus, State.refusesCompute, h, b2n]
  exact (congrArg s.ends (State.writeNumber_of_refused hs (by decide) (by decide) (by decide) hst (by decide))).trans
    (State.ends_of_fixed rfl rfl)

/-- A release begins: no core will start, and the binding requests no step. -/
def State.beginRelease (s : State) : State :=
  { s with
    binding := { s.binding with releasing := true, coresPending := false }
    clock := { s.clock with bindingReq := 0 } }

theorem State.release_eq {s : State} (h : s.binding.releasing = false) : s.release =
    ((s.beginRelease.stopCores.cores.cmds.filter fun c => c.phase == .pendingPlace).foldl State.squash s.beginRelease.stopCores).breakAll
      0x0A := by
  rw [State.release, if_neg (by rw [h]; decide)]
  simp only [State.beginRelease]

/-- Without a pending CSTEP a release stops the cores and breaks the open steps. -/
theorem State.release_of_none_pending {s u : State} (h : s.binding.releasing = false) (hstop : s.beginRelease.stopCores = u)
    (hcmds : ∀ k ∈ u.cores.cmds, k.phase ≠ .pendingPlace) : s.release = u.breakAll 0x0A := by
  have hnone : u.cores.cmds.filter (fun c => c.phase == .pendingPlace) = [] := List.filter_eq_nil_iff.2 fun k hk => by
    simpa using hcmds k hk
  rw [State.release_eq h, hstop, hnone, List.foldl_nil]

/-! ### A release with empty queues -/

theorem State.breakAll_of_no_contexts {s : State} (h : s.ctxs = []) (cause : Nat) : s.breakAll cause = s := by
  rw [State.breakAll, h]
  exact State.settle_of_no_contexts h none

theorem bindingRelease_of_quiet {s : State} (hs : Serves s) (hq : Quiet s) (hloaded : s.binding.loaded = true)
    (hreleasing : s.binding.releasing = false) : ∃ t, exec .bindingRelease s = .next t ∧ t.binding.releasing = true ∧
      t.binding.coresPending = false ∧ t.clock.bindingReq = 0 ∧ (∀ c, c < 32 → (t.core c).run ≠ .running) ∧
      (∀ c, (s.core c).run ≠ .running → t.core c = s.core c) ∧
      t = { s with cores := t.cores, binding := t.binding, clock := { s.clock with bindingReq := 0 }, lastStatus := 0, lastData := [] } := by
  obtain ⟨hcmds, hctxs⟩ := hq
  obtain ⟨⟨m, hm⟩, hlisted, hothers⟩ := coresStopped_foldl (List.range 32) (s := s.beginRelease) hcmds
  obtain ⟨u, hu⟩ : ∃ u, (List.range 32).foldl State.stopCore s.beginRelease = u := ⟨_, rfl⟩
  rw [hu] at hm hlisted hothers
  have hnone : u.cores.cmds = [] ∧ u.ctxs = [] := by
    rw [hm]
    exact ⟨hcmds, hctxs⟩
  have hrelease := State.release_of_none_pending hreleasing hu (by simp [hnone.1])
  have hexec := execBindingRelease_of_loaded hs hloaded
  rw [hrelease, State.breakAll_of_no_contexts hnone.2] at hexec
  subst hm
  exact ⟨_, hexec.trans (State.ends_of_fixed rfl rfl), rfl, rfl, rfl, fun c hc => hlisted c (List.mem_range.2 hc), hothers, rfl⟩

/-! ### A finished command leaves its queue (R173, R184) -/

theorem State.recordDone_binding (s : State) (c serial unit : Nat) (summary : Bool) :
    (s.recordDone c serial unit summary).binding = s.binding := P_ite (P := fun v => v.binding = s.binding) rfl rfl

theorem State.writeRecord_binding (s : State) (c : Nat) : (s.writeRecord c).binding = s.binding := by
  have hwrite : ∀ (v : State) (a : Nat) (data : Bytes) (unit : Nat), (v.writeMem a data unit).binding = v.binding :=
    fun v a data unit => (v.writeMem_touches a data unit).binding
  have hcross : s.crosses.2.binding = s.binding := s.crosses_touches.binding
  unfold State.writeRecord
  dsimp only
  split
  · rfl
  · refine P_ite (P := fun v => v.binding = s.binding) rfl (P_ite (P := fun v => v.binding = s.binding) ?_ ?_)
    · exact (State.recordDone_binding _ _ _ _ _).trans hcross
    · exact (State.recordDone_binding _ _ _ _ _).trans ((hwrite _ _ _ _).trans ((hwrite _ _ _ _).trans hcross))

theorem State.writeRecords_binding (s : State) (c n : Nat) : (s.writeRecords c n).binding = s.binding := by
  induction n generalizing s with
  | zero => rfl
  | succ n ih => exact (ih _).trans (s.writeRecord_binding c)

/-- From s to t a release that is under way, or is not, has stayed so. -/
def ReleaseStands (s t : State) : Prop := t.binding.releasing = s.binding.releasing

namespace ReleaseStands

variable {s t : State}

theorem of_binding (h : t.binding = s.binding) : ReleaseStands s t := congrArg Binding.releasing h

theorem add (h : ReleaseStands s t) (off n : Nat) : ReleaseStands s (t.colophonAdd off n) := h

theorem count (h : ReleaseStands s t) (i sub n : Nat) : ReleaseStands s (t.count i sub n) := h

theorem flag (h : ReleaseStands s t) (n : Nat) : ReleaseStands s (t.colophonFlag n) := by
  obtain ⟨f, hf, -⟩ := t.colophonFlag_spec n
  rw [hf]
  exact h

end ReleaseStands

/-- A command of a core without a ring leaves its queue when it finishes, and a release that is under way goes on. -/
theorem State.finishCmd_leaves {s : State} {c : Cmd} (hr : (s.core c.core).Ringless) (status cause : Nat) :
    RecordsOnly c.core (s.freed c) (s.finishCmd c status cause) ∧ ReleaseStands s (s.finishCmd c status cause) := by
  unfold State.finishCmd
  extract_lets failed st ca squashed k skipped audited missed done s0 s1 s2 s3 t1 t2 t3 t4 t5 t6 t7 t8 t9 t10
  have hitems : s1 = s0 := List.foldlRecOn (motive := (· = s0)) failed _ rfl fun t ht f _ => by
    subst ht
    exact State.pushRecord_of_ringless (s := s0) hr _ _ _ _
  have hsummary : s2 = s.freed c := by
    show s1.pushRecord done.core done.serial done.unit true _ = _
    rw [hitems]
    exact State.pushSummary_of_ringless (c := done) hr _
  have hwritten : RecordsOnly c.core (s.freed c) s3 := hsummary ▸ .writeRecords _ _ _
  have hbinding : s3.binding = s.binding := by
    show (s2.writeRecords _ _).binding = _
    rw [State.writeRecords_binding, hsummary]
    rfl
  clear_value s3
  have ht8 : Totals s3 t8 :=
    ((((((((Totals.refl s3).add _ _).add _ _).add _ _).add _ _).add _ _).add _ _).add _ _).add _ _
  have ht9 : Totals s3 t9 := ((ht8.count _ _ _).count _ _ _).count _ _ _
  have ht10 : Totals s3 t10 := P_ite (ht9.flag 23) ht9
  have hstands8 : ReleaseStands s t8 :=
    ((((((((ReleaseStands.of_binding hbinding).add _ _).add _ _).add _ _).add _ _).add _ _).add _ _).add _ _).add _ _
  have hstands9 : ReleaseStands s t9 := ((hstands8.count _ _ _).count _ _ _).count _ _ _
  have hstands10 : ReleaseStands s t10 := P_ite (hstands9.flag 23) hstands9
  exact ⟨hwritten.trans (.of_totals (P_ite (((ht10.flag 22).add _ _).count _ _ _) ht10)),
    P_ite (((hstands10.flag 22).add _ _).count _ _ _) hstands10⟩

/-- A command that has left its queue is in it no more. -/
theorem State.cmd_of_freed {s t : State} {c : Cmd} (h : RecordsOnly c.core (s.freed c) t) : t.cmd c.core c.serial = none := by
  refine List.find?_eq_none.2 fun x hx => ?_
  obtain ⟨-, hkept⟩ := List.mem_filter.1 (h.cmds x hx)
  exact Bool.eq_false_iff.1 ((Bool.not_eq_true' _).mp hkept)

/-! ### A release with an open step (R249) -/

/-- In v context n stands as x and is the only one, and the cores, the binding and the pair are those of s. -/
structure OnlyCtx (n : Nat) (x : Ctx) (s v : State) : Prop where
  ctxs : v.ctxs = [(n, x)]
  cores : v.cores = s.cores
  binding : v.binding = s.binding
  role : v.idx 0x8010 0 = s.idx 0x8010 0

namespace OnlyCtx

variable {n : Nat} {x : Ctx} {s v w : State}

theorem ctx (h : OnlyCtx n x s v) : v.ctx n = x := by
  rw [State.ctx, h.ctxs]
  exact if_pos rfl

theorem setCtx (h : OnlyCtx n x s v) {y : Ctx} (hy : y.declared = true) : OnlyCtx n y s (v.setCtx n y) := by
  obtain ⟨hctxs, hcores, hbinding, hrole⟩ := h
  have hne : y ≠ Ctx.reset := fun e => absurd hy (by rw [e]; decide)
  exact ⟨by simp [State.setCtx, hctxs, fset, hne], hcores, hbinding, hrole⟩

theorem touches (h : OnlyCtx n x s v) (ht : Touches v w) : OnlyCtx n x s w :=
  ⟨ht.ctxs.trans h.ctxs, ht.cores.trans h.cores, ht.binding.trans h.binding, (ht.idx 0x8010 0 (by decide)).trans h.role⟩

end OnlyCtx

/-- An item that a release has failed. -/
def Item.broken (it : Item) (cause : Nat) : Item :=
  { it with finished := true, cause := cause, counts := Counts.zero, breaks := 0, omitted := 0, check := 0 }

/-- A finished item reads back from its context. -/
theorem Ctx.item_setItem (x : Ctx) (p : Nat) {it : Item} (h : it.finished = true) : (x.setItem p it).item p = it :=
  fget_fset_listed _ _ fun e => absurd h (by rw [e]; decide)

/-- A command one of whose items has failed (R184). -/
def Cmd.failing (k : Cmd) (p cause : Nat) (n : Counts) : Cmd :=
  { k with failed := k.failed ++ [(p, cause, n)], counts := k.counts.plus n }

theorem State.finishStep_of_one_failed {s : State} {core serial : Nat} {k : Cmd} (hpair : s.pairActive = false)
    (hcmd : s.cmd core serial = some k) {p cause check : Nat} {c : Counts} (hcause : cause ≠ 0) :
    s.finishStep core serial [(p, cause, c, check)] = s.finishCmd (k.failing p cause c) 0 0 := by
  simp only [State.finishStep, hcmd, List.foldl_cons, List.foldl_nil, hcause, ne_eq, not_false_eq_true, if_true, State.itemFailed,
    State.digest_of_unpaired hpair, Cmd.failing]

section OpenStep

variable {n : Nat} {x y : Ctx} {s v : State}

/-- Without an EMIT an unfinished item fails as it stands (R235). -/
theorem OnlyCtx.failItem (h : OnlyCtx n y s v) (hd : y.declared = true) (hopen : (y.item 0).finished = false)
    (hemits : ∀ i ∈ y.program, pOp i ≠ 0x0D) (cause : Nat) :
    OnlyCtx n (y.setItem 0 ((y.item 0).broken cause)) s (v.failItem n 0 cause) := by
  have hnone : y.emptyEmits = [] := by
    have hfilter : y.program.filter (fun i => pOp i == 0x0D) = [] := List.filter_eq_nil_iff.2 fun i hi => by simpa using hemits i hi
    simp [Ctx.emptyEmits, hfilter]
  have hmark := h.setCtx (y := y.setItem 0 ((y.item 0).broken cause)) hd
  simp only [State.failItem, State.markItem, h.ctx, hopen, hnone, State.emitAll, Bool.false_eq_true, if_false, List.length_nil,
    List.range_zero, List.foldl_nil]
  exact hmark

/-- A break fails the one item of an open step that has not finished (R219). -/
theorem OnlyCtx.breakStep (h : OnlyCtx n y s v) (hd : y.declared = true) (hstate : y.state = ctxOpen) (hstep : y.stepCmd.isSome = true)
    (hcount : y.count = 1) (hopen : (y.item 0).finished = false) (hripe : (y.item 0).ripe = false) (hstruck : (y.item 0).struck = none)
    (hemits : ∀ i ∈ y.program, pOp i ≠ 0x0D) (cause : Nat) :
    OnlyCtx n (y.setItem 0 ((y.item 0).broken cause)) s (v.breakStep n cause) := by
  have hend : v.endItem n 0 cause = v.failItem n 0 cause := by
    simp [State.endItem, h.ctx, hopen, hripe, hstruck]
  have hbreak : v.breakStep n cause = v.failItem n 0 cause := by
    simp only [State.breakStep, State.failRest, h.ctx, hstate, hstep, hcount]
    exact hend
  rw [hbreak]
  exact h.failItem hd hopen hemits cause

/-- The leaves of an item go back, and nothing else of its context changes (R217). -/
theorem OnlyCtx.closeItem (h : OnlyCtx n x s v) (hd : x.declared = true) (p : Nat) : ∃ r,
    OnlyCtx n { x.setItem p { x.item p with leaves := [] } with reserve := r } s (v.closeItem n p) := by
  unfold State.closeItem
  rw [h.ctx]
  dsimp only
  split
  · exact ⟨_, (h.touches (v.freeLeaves_touches _)).setCtx (y := x.setItem p { x.item p with leaves := [] }) hd⟩
  · exact ⟨_, h.setCtx hd⟩

/-- What the end of its step by a release makes of a context (R249). -/
def Ctx.ended (x : Ctx) : Ctx :=
  { x with state := ctxIdle, cursor := 0, items := [], count := 0, finishes := [], stepCmd := none }

variable {k : Cmd} (hreleasing : s.binding.releasing = true) (hcmd : s.cmd k.core k.serial = some k)
  (hring : (s.core k.core).Ringless) (hpair : s.idx 0x8010 0 = 0)
include hreleasing hcmd hring hpair

/-- During a release a step that closes with one failed item ends: its command fails and its context goes back to idle (R249). -/
theorem OnlyCtx.closeStep (h : OnlyCtx n x s v) (hd : x.declared = true) (hstate : x.state = ctxOpen)
    (hstep : x.stepCmd = some (k.core, k.serial)) (hcount : x.count = 1) (hfailed : (x.item 0).outcome ≠ 0) (named : Bool) :
    (v.closeStep n named).ctxs = [(n, x.ended)] ∧ (v.closeStep n named).cmd k.core k.serial = none ∧
      (v.closeStep n named).binding.releasing = true := by
  have hend : OnlyCtx n x.ended s (v.endStep n) := by
    rw [State.endStep, h.ctx]
    exact h.setCtx hd
  have hunpaired : (v.endStep n).pairActive = false := by simp [State.pairActive, hend.role, hpair]
  have hfind : (v.endStep n).cmd k.core k.serial = some k := by
    rw [State.cmd, hend.cores]
    exact hcmd
  have hopen : (v.binding.releasing && decide (x.state ≠ ctxFenced)) = true := by
    rw [h.binding, hreleasing, hstate]
    decide
  have hclose : v.closeStep n named =
      (v.endStep n).finishStep k.core k.serial [(0, (x.item 0).outcome, (x.item 0).counts, (x.item 0).check)] := by
    simp only [State.closeStep, h.ctx, hstep, hcount, hopen, if_true]
    rfl
  have hringEnd : ((v.endStep n).core k.core).Ringless := by
    rw [State.core, hend.cores]
    exact hring
  obtain ⟨hrecords, hstands⟩ :=
    State.finishCmd_leaves (c := k.failing 0 (x.item 0).outcome (x.item 0).counts) hringEnd 0 0
  rw [hclose, State.finishStep_of_one_failed hunpaired hfind hfailed]
  refine ⟨hrecords.frame.2.1.trans hend.ctxs, State.cmd_of_freed hrecords, hstands.trans ?_⟩
  rw [hend.binding, hreleasing]

/-- During a release the one item of an open step, once failed, is emitted at once, and its step ends (R217, R249). -/
theorem OnlyCtx.settleCtx (h : OnlyCtx n x s v) (hd : x.declared = true) (hstate : x.state = ctxOpen)
    (hstep : x.stepCmd = some (k.core, k.serial)) (hcount : x.count = 1) (hfinished : (x.item 0).finished = true)
    (hfailed : (x.item 0).outcome ≠ 0) (hemitted : (x.item 0).emitted = false) (hsent : (x.item 0).outstanding = 0) (named : Bool) :
    ((v.settleCtx n named).ctx n).state = ctxIdle ∧ ((v.settleCtx n named).ctx n).expected = x.expected ∧
      ((v.settleCtx n named).ctx n).stepCmd = none ∧ (v.settleCtx n named).cmd k.core k.serial = none ∧
      (v.settleCtx n named).binding.releasing = true := by
  obtain ⟨r, hclosed⟩ := h.closeItem hd 0
  generalize hz : { x.setItem 0 { x.item 0 with leaves := [] } with reserve := r } = z at hclosed
  have hitem : z.item 0 = { x.item 0 with leaves := [] } := by
    rw [← hz]
    exact x.item_setItem 0 (it := { x.item 0 with leaves := [] }) hfinished
  have hlast : (z.setItem 0 { z.item 0 with emitted := true }).item 0 = { z.item 0 with emitted := true } :=
    z.item_setItem 0 (it := { z.item 0 with emitted := true }) (by rw [hitem]; exact hfinished)
  have hdone : OnlyCtx n (z.setItem 0 { z.item 0 with emitted := true }) s
      ((v.closeItem n 0).setCtx n (z.setItem 0 { z.item 0 with emitted := true })) := hclosed.setCtx (by rw [← hz]; exact hd)
  have hsettle : v.settleCtx n named =
      ((v.closeItem n 0).setCtx n (z.setItem 0 { z.item 0 with emitted := true })).closeStep n named := by
    have hone : List.range 1 = [0] := rfl
    simp only [State.settleCtx, h.ctx, hstep, hcount, hone, hfinished, hemitted, hsent, hclosed.ctx, hdone.ctx, hlast, Option.isNone_some,
      List.foldl_cons, List.foldl_nil, List.all_cons, List.all_nil, Bool.false_eq_true, if_false, if_true, decide_true,
      Bool.not_false, Bool.and_true]
  have hkept : z.declared = true ∧ z.state = ctxOpen ∧ z.stepCmd = some (k.core, k.serial) ∧ z.count = 1 ∧ z.expected = x.expected := by
    rw [← hz]
    exact ⟨hd, hstate, hstep, hcount, rfl⟩
  obtain ⟨hzd, hzstate, hzstep, hzcount, hexpected⟩ := hkept
  obtain ⟨hctxs, hgone, hreleases⟩ := hdone.closeStep hreleasing hcmd hring hpair hzd hzstate hzstep hzcount
    (by rw [hlast, hitem]; exact hfailed) named
  rw [← hsettle] at hctxs hgone hreleases
  have hctx : (v.settleCtx n named).ctx n = (z.setItem 0 { z.item 0 with emitted := true }).ended := by
    rw [State.ctx, hctxs]
    exact if_pos rfl
  rw [hctx]
  exact ⟨rfl, hexpected, rfl, hgone, hreleases⟩

end OpenStep

/-- A release fails the unfinished item of the one open step, whose context goes back to idle (R199, R249). -/
theorem bindingRelease_of_lone {n : Nat} {y : Ctx} {k : Cmd} {s : State} (hs : Serves s) (hlone : Lone n y k s)
    (hcmds : s.cores.cmds = [k]) (hloaded : s.binding.loaded = true) (hreleasing : s.binding.releasing = false)
    (hstopped : ∀ c, (s.core c).run ≠ .running) : ∃ t, exec .bindingRelease s = .next t ∧ t.binding.releasing = true ∧
      (t.ctx n).state = ctxIdle ∧ (t.ctx n).expected = y.expected ∧ (t.ctx n).stepCmd = none ∧ t.cmd k.core k.serial = none := by
  obtain ⟨hctxs, hd, hstate, hstep, hcount, hopen, hemitted, hripe, hstruck, hsent, hemits, -, hcmd, hphase, hsize, hrecords, hpair⟩ := hlone
  have hrole : s.idx 0x8010 0 = 0 := by simpa [State.paired] using hpair
  have honly : OnlyCtx n y s.beginRelease s.beginRelease := ⟨hctxs, rfl, rfl, rfl⟩
  have hbroken := honly.breakStep hd hstate (by rw [hstep]; rfl) hcount hopen hripe hstruck hemits 0x0A
  have hitem : (y.setItem 0 ((y.item 0).broken 0x0A)).item 0 = (y.item 0).broken 0x0A := y.item_setItem 0 rfl
  have hfailed : ((y.item 0).broken 0x0A).outcome ≠ 0 := by simp [Item.outcome, Item.broken]
  obtain ⟨hidle, hexpected, hnone, hgone, hstays⟩ := hbroken.settleCtx (s := s.beginRelease) rfl hcmd ⟨hsize, hrecords⟩ hrole hd hstate
    hstep hcount (by rw [hitem]; rfl) (by rw [hitem]; exact hfailed) (by rw [hitem]; exact hemitted) (by rw [hitem]; exact hsent) false
  have hbreak : s.beginRelease.breakAll 0x0A = (s.beginRelease.breakStep n 0x0A).settleCtx n false := by
    have hone : s.beginRelease.ctxs = [(n, y)] := hctxs
    simp only [State.breakAll, hone, List.foldl_cons, List.foldl_nil, State.settle, hbroken.ctxs]
    rfl
  have hrelease : s.release = s.beginRelease.breakAll 0x0A :=
    State.release_of_none_pending hreleasing (State.stopCores_of_none_running hstopped) fun c hc => by
      rw [List.mem_singleton.1 (hcmds ▸ hc : c ∈ [k]), hphase]
      decide
  have hexec := execBindingRelease_of_loaded hs hloaded
  rw [hrelease, hbreak] at hexec
  exact ⟨_, hexec, hstays, hidle, hexpected, hnone, hgone⟩

/-- Settles O34: a start sets every declared core running, a release stops them and ends what the binding has open, and its end
unbinds every context. -/
theorem bindingsStartAndAreReleased : Obligations.BindingsStartAndAreReleased := by
  unfold Obligations.BindingsStartAndAreReleased
  refine ⟨fun s hloaded hpending hheld => ⟨fun hcycle hstitch => ?_, coresStart_waits hloaded hpending hheld⟩,
    fun s => ⟨bindingRelease_of_quiet, fun n y k hs _ => bindingRelease_of_lone hs, execBindingRelease_of_unloaded,
      releaseComplete_ends, fun h => State.ends_self (if_pos ?_)⟩⟩
  · obtain ⟨t, hexec, ⟨hframe, hpending', hcmds, hbegun, hothers⟩, hlate⟩ := coresStart_starts hloaded hpending hheld hcycle hstitch
    exact ⟨t, hexec, hpending', hbegun, hothers, hlate, hframe, hcmds⟩
  · obtain h | h := h <;> simp [h]

end Sys2Proof.Machine
end

section
/-!
SUPPORT. The failing of a run with an open step (R390) meets the barrier of that step (R259): the refutation of O37.
-/
namespace Sys2Proof.Machine

open Sys2Proof

/-- The number whose barrier entry, one subindex a context from 0x6150 on, is 0x8033.00, the record of the run's failure. -/
def strayContext : Nat := 256 * (0x8033 - 0x6150)

/-- The command of the open step: it runs for core 0, under serial 0. -/
def strayCommand : Cmd := { Cmd.make 0 0 ⟨0x80, noBatch, 1⟩ 0 0 [] with phase := .running }

/-- An open step with one unfinished item, under a sealed roster whose one member has delivered. -/
def strayStep : Ctx :=
  { Ctx.reset with
    declared := true, state := ctxOpen, count := 1, stepCmd := some (strayCommand.core, strayCommand.serial), sealed := true
    members := [⟨0, false, [], 0, 0, 0⟩], finishes := [(0, 1)] }

/-- An aligned folio of run 1 with a binding loaded, whose only context has that number and that step. -/
def strayFolio : State :=
  { State.reset with
    index := [(ikey 0x8030 0, 1)]
    clock := { Clock.reset with phase := .aligned }
    cores := { Cores.reset with cmds := [strayCommand] }
    binding := { Binding.reset with loaded := true }
    ctxs := [(strayContext, strayStep)] }

theorem lone_strayFolio : Lone strayContext strayStep strayCommand strayFolio := by decide +kernel

theorem notRunning_strayFolio (c : Nat) : (strayFolio.core c).run ≠ .running := nofun

/-- The failure is recorded, and then the barrier of the step that closes takes the place of the record. -/
theorem runFailed_of_runFail_strayFolio {t : State} (h : exec (.runFail 1) strayFolio = .next t) : t.runFailed = false := by
  obtain rfl := (Host.Outcome.next.inj h).symm
  decide +kernel

/-- Refutes O37: its clause on the failing of a run with an open step takes any number for a context. That of a context which the
folio does not have (R216: they are 0 to 4,095) can be one whose barrier (R259) falls on 0x8033.00; where it does, a run that RUN_FAIL
fails does not read as failed. -/
theorem not_contextsAndRunsByCommand : ¬ Obligations.ContextsAndRunsByCommand := by
  unfold Obligations.ContextsAndRunsByCommand
  rintro ⟨-, hruns⟩
  obtain ⟨-, hbreaks, -⟩ := hruns strayFolio 1 (by decide)
  obtain ⟨t, hexec, -, hfailed, -⟩ := hbreaks strayContext strayStep strayCommand (by decide) lone_strayFolio rfl rfl rfl
    notRunning_strayFolio (by decide) (by decide) (by decide)
  exact absurd (hfailed.symm.trans (runFailed_of_runFail_strayFolio hexec)) (by decide)

end Sys2Proof.Machine
end

section
/-!
SUPPORT. Canonical sparse stores agree where they read alike, and what that makes of the items of a context.
-/
namespace Sys2Proof

variable {α : Type} [DecidableEq α] {d : α} {m : FMap α}

/-- Two canonical stores that read alike are equal. -/
theorem eq_of_fget_eq {b b' : Option Nat} {m' : FMap α} (h : fwfAbove d b m = true) (h' : fwfAbove d b' m' = true)
    (hget : ∀ k, fget d m k = fget d m' k) : m = m' := by
  have head : ∀ {b : Option Nat} {a : Nat} {v : α} {t : FMap α} {m : FMap α} {b' : Option Nat}, fwfAbove d b ((a, v) :: t) = true →
      fwfAbove d b' m = true → (∀ k, fget d ((a, v) :: t) k = fget d m k) → ∀ x, x ∈ m.head? → x.1 ≤ a := by
    intro b a v t m b' h h' hget x hx
    obtain ⟨-, hne, -⟩ := fwfAbove_cons.1 h
    cases m with
    | nil => cases hx
    | cons e t' =>
      obtain rfl : e = x := by simpa using hx
      obtain ⟨-, hne', ht'⟩ := fwfAbove_cons.1 h'
      by_contra hlt
      refine hne ((if_pos rfl : fget d ((a, v) :: t) a = v).symm.trans ((hget a).trans (fget_below (b := a) ?_ (Nat.le_refl a))))
      exact fwfAbove_cons.2 ⟨fun y hy => by cases hy; omega, hne', ht'⟩
  induction m generalizing b b' m' with
  | nil =>
    cases m' with
    | nil => rfl
    | cons e t =>
      obtain ⟨-, hne, -⟩ := fwfAbove_cons.1 h'
      exact absurd ((hget e.1).trans (if_pos rfl)).symm hne
  | cons e t ih =>
    obtain ⟨a, v⟩ := e
    obtain ⟨-, hne, ht⟩ := fwfAbove_cons.1 h
    cases m' with
    | nil => exact absurd ((if_pos rfl).symm.trans (hget a)) hne
    | cons e' t' =>
      obtain ⟨a', v'⟩ := e'
      obtain ⟨-, -, ht'⟩ := fwfAbove_cons.1 h'
      obtain rfl : a = a' := Nat.le_antisymm (head h' h (fun k => (hget k).symm) _ rfl) (head h h' hget _ rfl)
      obtain rfl : v = v' := (if_pos rfl).symm.trans ((hget a).trans (if_pos rfl))
      rw [ih ht ht' fun k => ?_]
      by_cases hk : a = k
      · subst hk
        rw [fget_below ht (Nat.le_refl a), fget_below ht' (Nat.le_refl a)]
      · exact (if_neg hk).symm.trans ((hget k).trans (if_neg hk))

theorem fset_fget_self (h : fwf d m = true) (k : Nat) : fset d m k (fget d m k) = m := by
  refine eq_of_fget_eq (fwf_fset h _ _) h fun j => ?_
  rw [fget_fset h]
  split
  · subst_vars
    rfl
  · rfl

theorem fset_fset_same (h : fwf d m = true) (k : Nat) (v w : α) : fset d (fset d m k v) k w = fset d m k w := by
  refine eq_of_fget_eq (fwf_fset (fwf_fset h _ _) _ _) (fwf_fset h _ _) fun j => ?_
  rw [fget_fset (fwf_fset h _ _), fget_fset h, fget_fset h]
  split <;> rfl

end Sys2Proof

namespace Sys2Proof.Machine

open Sys2Proof

variable {x : Ctx} (h : fwf Item.fresh x.items = true) (p : Nat)
include h

theorem Ctx.item_setItem_self (it : Item) : (x.setItem p it).item p = it := fget_fset_self h p it

theorem Ctx.setItem_item : x.setItem p (x.item p) = x := by
  unfold Ctx.setItem Ctx.item
  rw [fset_fget_self h]

theorem Ctx.setItem_setItem (it it' : Item) : (x.setItem p it).setItem p it' = x.setItem p it' := by
  unfold Ctx.setItem
  dsimp only
  rw [fset_fset_same h]

end Sys2Proof.Machine
end

section
/-!
SUPPORT. What reads, writes, takings and returns of the pool's leaves leave of the folio and of the fragments that slices hold (R272,
R275), and when a taking of external leaves succeeds.
-/
namespace Sys2Proof.Machine

open Sys2Proof

/-! ### What the pool leaves alone -/

/-- From s to t leaves may have been read, written, taken and given back, with the credits they owe: the contexts, the fragments that
slices hold, the size of the external list and what `Stands` names stand, and the Index but for the counts 0x7000 to 0x7FFF. -/
structure LeavesMove (s t : State) : Prop where
  stands : Stands s t
  ctxs : t.ctxs = s.ctxs
  fragments : t.switch.fragments = s.switch.fragments
  stalled : t.switch.stalled = s.switch.stalled
  size : t.switch.externalSize = s.switch.externalSize
  idx : ∀ i sub, ikey i sub < ikey 0x7000 0 ∨ ikey 0x8000 0 ≤ ikey i sub → t.idx i sub = s.idx i sub

namespace LeavesMove

variable {s t u : State}

theorem refl (s : State) : LeavesMove s s := ⟨.refl s, rfl, rfl, rfl, rfl, fun _ _ _ => rfl⟩

theorem trans (h : LeavesMove s t) (k : LeavesMove t u) : LeavesMove s u :=
  ⟨h.stands.trans k.stands, k.ctxs.trans h.ctxs, k.fragments.trans h.fragments, k.stalled.trans h.stalled, k.size.trans h.size,
    fun i sub hi => (k.idx i sub hi).trans (h.idx i sub hi)⟩

theorem of_touches (h : Touches s t) (hf : t.switch.fragments = s.switch.fragments) (hs : t.switch.stalled = s.switch.stalled)
    (hx : t.switch.externalSize = s.switch.externalSize) : LeavesMove s t :=
  ⟨.of_touches h, h.ctxs, hf, hs, hx, h.idx⟩

theorem ite {b : Prop} [Decidable b] (ht : LeavesMove s t) (hu : LeavesMove s u) : LeavesMove s (if b then t else u) := P_ite ht hu

theorem ite_fst {β : Type} {b : Prop} [Decidable b] {p q : State × β} (hp : LeavesMove s p.1) (hq : LeavesMove s q.1) :
    LeavesMove s (if b then p else q).1 := P_ite1 hp hq

theorem foldl {β : Type} {f : State → β → State} (hf : ∀ v a, LeavesMove v (f v a)) (l : List β) (s : State) :
    LeavesMove s (l.foldl f s) := P_foldl (P := LeavesMove s) (.refl s) fun v a hv => hv.trans (hf v a)

theorem ctx (h : LeavesMove s t) (n : Nat) : t.ctx n = s.ctx n := by rw [State.ctx, h.ctxs, State.ctx]

end LeavesMove

/-- From s to t leaves may have been read and written: no leaf has left the external list or come to it. -/
structure LeavesOnly (s t : State) : Prop where
  move : LeavesMove s t
  external : t.switch.external = s.switch.external

namespace LeavesOnly

variable {s t u : State}

theorem refl (s : State) : LeavesOnly s s := ⟨.refl s, rfl⟩

theorem trans (h : LeavesOnly s t) (k : LeavesOnly t u) : LeavesOnly s u := ⟨h.move.trans k.move, k.external.trans h.external⟩

/-- What leaves the switch alone, or changes in it only what the pool notes and holds. -/
theorem of_switch (h : Touches s t) (hw : ∃ shares ls st, t.switch =
    { s.switch with shareUsed := shares, leaves := ls, poolStatus := st }) : LeavesOnly s t := by
  obtain ⟨shares, ls, st, hw⟩ := hw
  exact ⟨.of_touches h (by rw [hw]) (by rw [hw]) (by rw [hw]), by rw [hw]⟩

theorem of_switch_eq (h : Touches s t) (hw : t.switch = s.switch) : LeavesOnly s t := of_switch h ⟨_, _, _, hw⟩

theorem ite {b : Prop} [Decidable b] (ht : LeavesOnly s t) (hu : LeavesOnly s u) : LeavesOnly s (if b then t else u) := P_ite ht hu

theorem ite_fst {β : Type} {b : Prop} [Decidable b] {p q : State × β} (hp : LeavesOnly s p.1) (hq : LeavesOnly s q.1) :
    LeavesOnly s (if b then p else q).1 := P_ite1 hp hq

theorem foldl {β : Type} {f : State → β → State} (hf : ∀ v a, LeavesOnly v (f v a)) (l : List β) (s : State) :
    LeavesOnly s (l.foldl f s) := P_foldl (P := LeavesOnly s) (.refl s) fun v a hv => hv.trans (hf v a)

end LeavesOnly

/-! ### Reads and writes of leaves -/

theorem ReadsOnly.switch {s t : State} (h : ReadsOnly s t) : t.switch = s.switch := by
  obtain ⟨n, i, m, rfl⟩ := h
  rfl

theorem StoresOnly.switch {s t : State} (h : StoresOnly s t) : t.switch = s.switch := by
  obtain ⟨⟨n, i, m, st, r, rfl⟩, -⟩ := h
  rfl

theorem State.noteShare_leavesOnly (s : State) (n : Nat) : LeavesOnly s (s.noteShare n) :=
  .of_switch (.withSwitch s _) ⟨_, _, _, rfl⟩

theorem State.readMem_leavesOnly (s : State) (a n : Nat) (src : ReadSource) (unit : Nat) : LeavesOnly s (s.readMem a n src unit).1 :=
  .of_switch_eq (s.readMem_touches a n src unit) (s.readMem_passOnly a n src unit).1.switch

theorem State.writeMem_leavesOnly (s : State) (a : Nat) (data : Bytes) (unit : Nat) : LeavesOnly s (s.writeMem a data unit) :=
  .of_switch_eq (s.writeMem_touches a data unit) (s.writeMem_storesOnly a data unit).switch

theorem State.readLeafWord_leavesOnly (s : State) (h w : Nat) (src : ReadSource) (unit : Nat) :
    LeavesOnly s (s.readLeafWord h w src unit).1 := by
  refine .of_switch_eq (s.readLeafWord_touches h w src unit) ?_
  have ha := (s.accountRead_readsOnly (s.leafWordRead h w) src 4 h unit).switch
  unfold State.readLeafWord
  dsimp only
  split <;> exact ha

theorem State.readLeaf_leavesOnly (s : State) (h n : Nat) (src : ReadSource) (unit : Nat) : LeavesOnly s (s.readLeaf h n src unit).1 := by
  unfold State.readLeaf
  refine .ite_fst ((s.noteShare_leavesOnly n).trans (State.readMem_leavesOnly _ _ _ _ _)) ?_
  exact P_foldl1 (P := LeavesOnly s) (.refl s) fun v w hv => hv.trans (v.1.readLeafWord_leavesOnly h w src unit)

theorem State.setLeafPattern_leavesOnly (s : State) (h w p : Nat) : LeavesOnly s (s.setLeafPattern h w p) :=
  .of_switch_eq (s.setLeafPattern_touches h w p) rfl

theorem State.writeLeaf_leavesOnly (s : State) (h off : Nat) (data : Bytes) : LeavesOnly s (s.writeLeaf h off data) := by
  refine .ite ((s.noteShare_leavesOnly _).trans (State.writeMem_leavesOnly _ _ _ _)) (LeavesOnly.trans (.foldl (fun v w => ?_) _ s)
    (.of_switch (.withSwitch _ _) ⟨_, _, _, rfl⟩))
  exact .ite (.refl v) (.ite (v.setLeafPattern_leavesOnly _ _ _)
    ((v.readLeafWord_leavesOnly _ _ _ _).trans (State.setLeafPattern_leavesOnly _ _ _ _)))

theorem State.poolFlag_leavesOnly (s : State) (b : Nat) : LeavesOnly s (s.poolFlag b) :=
  .ite (.refl s) (.of_switch (.withSwitch s _) ⟨_, _, _, rfl⟩)

theorem State.poolRead_leavesOnly (s : State) (k address : Nat) : LeavesOnly s (s.poolRead k address) := by
  refine .ite (LeavesOnly.trans ?_ (State.poolFlag_leavesOnly _ 30)) (.refl s)
  exact .of_switch_eq (s.accountRead_touches .bad .pool 0xFF nofun) (s.accountRead_readsOnly .bad .pool 4 address 0xFF).switch

theorem State.poolWritten_leavesOnly (s : State) (k : Nat) : LeavesOnly s (s.poolWritten k) :=
  .of_switch_eq (s.poolWritten_touches k) rfl

theorem State.readLink_leavesOnly (s : State) (h : Nat) : LeavesOnly s (s.readLink h).1 :=
  .ite_fst ((s.readLeaf_leavesOnly _ _ _ _).trans (State.poolFlag_leavesOnly _ _)) (s.readLeaf_leavesOnly _ _ _ _)

theorem State.fillLeaves_leavesOnly (s : State) (hs : List Nat) (bs : Bytes) : LeavesOnly s (s.fillLeaves hs bs) := by
  induction hs generalizing s bs with
  | nil => exact .refl s
  | cons h hs ih => exact (s.writeLeaf_leavesOnly _ _ _).trans (ih _ _)

theorem State.readFrom_leavesOnly (s : State) (src : ReadSource) (unit : Nat) (hs : List Nat) (n : Nat) (acc : Bytes) (bad : Bool) :
    LeavesOnly s (s.readFrom src unit hs n acc bad).1 := by
  induction hs generalizing s n acc bad with
  | nil => exact .refl s
  | cons h hs ih => exact (s.readLeaf_leavesOnly _ _ _ _).trans (ih _ _ _ _)

theorem State.readFragment_leavesOnly (s : State) (q : Nat) (f : Frame) : LeavesOnly s (s.readFragment q f).1 :=
  .ite_fst (.refl s) (s.readFrom_leavesOnly _ _ _ _ _ _)

/-! ### Leaves taken and given back -/

theorem State.setLeafList_leavesMove (s : State) (ext : Bool) (l : LeafList) : LeavesMove s (s.setLeafList ext l) :=
  .ite (.of_touches (.withSwitch s _) rfl rfl rfl) (.of_touches (.withSwitch s _) rfl rfl rfl)

theorem State.setLeafCount_leavesOnly (s : State) (h c : Nat) : LeavesOnly s (s.setLeafCount h c) :=
  ⟨.of_touches (s.setLeafCount_touches h c) rfl rfl rfl, rfl⟩

theorem State.freeLeaf_leavesMove (s : State) (h : Nat) : LeavesMove s (s.freeLeaf h).1 := by
  unfold State.freeLeaf
  extract_lets c s1 ext l s2
  have h1 : LeavesMove s s1 := ((s.poolRead_leavesOnly _ _).trans (State.setLeafCount_leavesOnly _ _ _)).move
  have h2 : LeavesMove s s2 := h1.trans
    (((State.poolRead_leavesOnly _ _ _).trans (State.poolRead_leavesOnly _ _ _)).trans (State.writeLeaf_leavesOnly _ _ _ _)).move
  refine .ite_fst ?_ h1
  exact (h2.trans (State.setLeafList_leavesMove _ _ _)).trans
    ((State.poolWritten_leavesOnly _ _).trans (State.poolWritten_leavesOnly _ _)).move

theorem State.freeLeaves_leavesMove (s : State) (hs : List Nat) : LeavesMove s (s.freeLeaves hs) :=
  .foldl (fun v h => v.freeLeaf_leavesMove h) hs s

theorem State.setPort_leavesMove (s : State) (p : Nat) (x : Port) : LeavesMove s (s.setPort p x) :=
  ⟨⟨rfl, rfl, rfl, rfl, rfl, rfl⟩, rfl, rfl, rfl, rfl, fun _ _ _ => rfl⟩

theorem State.creditCopy_leavesMove (s : State) (f : Frame) : LeavesMove s (s.creditCopy f) := by
  refine .ite (.refl s) (.ite (s.setPort_leavesMove _ _) ?_)
  split
  · exact (s.setPort_leavesMove _ _).trans (State.setPort_leavesMove _ _ _)
  · exact .of_touches (.withSwitch s _) rfl rfl rfl

theorem State.freeFrame_leavesMove (s : State) (f : Frame) : LeavesMove s (s.freeFrame f) :=
  (s.freeLeaves_leavesMove _).trans (State.creditCopy_leavesMove _ f)

/-! ### External leaves to be had (R272) -/

/-- At least k external leaves are free, and the fresh ones have not run past the list. -/
abbrev State.Spare (s : State) (k : Nat) : Prop := k ≤ s.freeCount true ∧ s.switch.external.fresh ≤ s.switch.externalSize

theorem LeavesOnly.spare {s t : State} (h : LeavesOnly s t) {k : Nat} (hs : s.Spare k) : t.Spare k := by
  unfold State.Spare State.freeCount State.leafList State.listSize at hs ⊢
  rw [h.external, h.move.size]
  exact hs

/-- Where one is free an external leaf is taken, from the chain or else from the fresh ones, and one fewer is free then. -/
theorem State.alloc_of_spare {s : State} {k : Nat} (hs : s.Spare (k + 1)) : ∃ t h, s.alloc true = (t, some h) ∧ LeavesMove s t ∧
    t.Spare k := by
  obtain ⟨hfree, hfresh⟩ := hs
  have hread : LeavesOnly s (s.poolRead (chainKey true) s.switch.external.head) := s.poolRead_leavesOnly _ _
  have hfree' : k + 1 ≤ s.switch.external.chain + s.switch.externalSize - s.switch.external.fresh := hfree
  unfold State.alloc
  extract_lets l s1 r s2 s3 h
  have hl : l = s.switch.external := rfl
  have put : ∀ {v w : State} {l' : LeafList}, LeavesOnly s v → LeavesOnly (v.setLeafList true l') w →
      k + l'.fresh ≤ l'.chain + s.switch.externalSize → l'.fresh ≤ s.switch.externalSize → LeavesMove s w ∧ w.Spare k := by
    intro v w l' hv hw hk hfresh'
    have hset : (v.setLeafList true l').Spare k := by
      have hsize : v.switch.externalSize = s.switch.externalSize := hv.move.size
      refine ⟨?_, ?_⟩
      · show k ≤ l'.chain + v.switch.externalSize - l'.fresh
        omega
      · show l'.fresh ≤ v.switch.externalSize
        omega
    exact ⟨(hv.move.trans (State.setLeafList_leavesMove v true l')).trans hw.move, hw.spare hset⟩
  by_cases hchain : l.chain > 0
  · rw [if_pos hchain]
    have hr : LeavesOnly s r.1 := (hread.trans (State.poolRead_leavesOnly _ _ _)).trans (State.readLink_leavesOnly _ _)
    refine ⟨_, _, rfl, put hr (((State.poolWritten_leavesOnly _ _).trans (State.poolWritten_leavesOnly _ _)).trans
      (State.setLeafCount_leavesOnly _ _ _)) ?_ hfresh⟩
    rw [hl] at hchain ⊢
    dsimp only
    omega
  · have h3 : LeavesOnly s s3 := hread.trans (State.poolRead_leavesOnly _ _ _)
    have hsize : s3.listSize true = s.switch.externalSize := h3.move.size
    have hroom : l.fresh < s3.listSize true := by
      rw [hsize, hl]
      rw [hl] at hchain
      omega
    rw [if_neg hchain, if_pos hroom]
    rw [hsize] at hroom
    refine ⟨_, _, rfl, put h3 ((State.poolWritten_leavesOnly _ _).trans (State.setLeafCount_leavesOnly _ _ _)) ?_ hroom⟩
    rw [hl] at hchain ⊢
    dsimp only
    omega

/-- Where k external leaves are free, k are taken. -/
theorem State.allocMany_of_spare {s : State} {k : Nat} (hs : s.Spare k) (acc : List Nat) : ∃ t hs,
    State.allocMany (fun s => State.alloc s true) k s acc = (t, some hs) ∧ hs.length = acc.length + k ∧ LeavesMove s t := by
  induction k generalizing s acc with
  | zero => exact ⟨s, _, rfl, List.length_reverse, .refl s⟩
  | succ k ih =>
    obtain ⟨t, h, halloc, hmove, hspare⟩ := State.alloc_of_spare hs
    obtain ⟨u, hs', hmany, hlen, hmove'⟩ := ih hspare (h :: acc)
    refine ⟨u, hs', ?_, by rw [hlen, List.length_cons]; omega, hmove.trans hmove'⟩
    rw [State.allocMany, halloc]
    exact hmany

end Sys2Proof.Machine
end

section
/-!
SUPPORT. Contexts with nothing to settle, and what an open item makes of a contribution that does not complete it (R213, R214, R239,
R240).
-/
namespace Sys2Proof.Machine

open Sys2Proof

/-! ### Nothing to settle (R217) -/

/-- A context without a step, or whose step has an item to be emitted and none that could be emitted now. -/
def Ctx.Waits (x : Ctx) : Prop :=
  x.stepCmd = none ∨
    (∀ p, p < x.count → (x.item p).finished = true → (x.item p).outstanding = 0 → (x.item p).emitted = true) ∧
      ∃ p, p < x.count ∧ (x.item p).emitted = false

theorem State.settleCtx_of_waits {s : State} {n : Nat} (h : (s.ctx n).Waits) (named : Bool) : s.settleCtx n named = s := by
  unfold State.settleCtx
  dsimp only
  split
  · rfl
  · next hstep =>
    obtain hnone | ⟨hready, p, hp, hopen⟩ := h
    · exact absurd (by rw [hnone]; rfl) hstep
    · have hfold : (List.range (s.ctx n).count).foldl (fun s p =>
          let it := (State.ctx s n).item p
          if it.finished && it.outstanding = 0 && !it.emitted then
            (let s := State.closeItem s n p
             let y := State.ctx s n
             State.setCtx s n (y.setItem p { y.item p with emitted := true }))
          else s) s = s := by
        refine List.foldlRecOn (motive := (· = s)) _ _ rfl fun t ht k hk => ?_
        subst ht
        have hk' := hready k (List.mem_range.1 hk)
        exact if_neg (by simp; tauto)
      rw [hfold, if_neg]
      simp only [List.all_eq_true, List.mem_range, not_forall]
      exact ⟨p, hp, by simp [hopen]⟩

theorem State.settle_of_waits {s : State} (h : ∀ n, (s.ctx n).Waits) (named : Option Nat) : s.settle named = s :=
  List.foldlRecOn (motive := (· = s)) s.ctxs _ rfl fun t ht e _ => by
    subst ht
    exact State.settleCtx_of_waits (h e.1) _

/-- What holds of a context at reset and of every listed one holds of every context. -/
theorem State.ctx_induction {s : State} {P : Ctx → Prop} (n : Nat) (hreset : P Ctx.reset) (h : (n, s.ctx n) ∈ s.ctxs → P (s.ctx n)) :
    P (s.ctx n) := by
  by_cases hn : s.ctx n = Ctx.reset
  · rwa [hn]
  · exact h (mem_of_fget_ne hn)

theorem State.stepCmd_of_still {s : State} (h : Still s) (n : Nat) : (s.ctx n).stepCmd = none :=
  State.ctx_induction (P := fun x => x.stepCmd = none) n rfl fun hn => (h _ hn).2

theorem State.stepCmd_of_stillBut {s : State} {n : Nat} (h : StillBut n s) {k : Nat} (hk : k ≠ n) : (s.ctx k).stepCmd = none :=
  State.ctx_induction (P := fun x => x.stepCmd = none) k rfl fun hn => (h _ hn).2 hk

theorem State.settle_of_still {s : State} (h : ∀ n, (s.ctx n).stepCmd = none) (named : Option Nat) : s.settle named = s :=
  State.settle_of_waits (fun n => .inl (h n)) named

/-! ### One context changes -/

/-- From s to t context n has become z: every other context, the cores, the clock and the fragments that slices hold stand. -/
structure CtxBecomes (n : Nat) (z : Ctx) (s t : State) : Prop where
  wf : fwf Ctx.reset t.ctxs = true
  self : t.ctx n = z
  others : ∀ k, k ≠ n → t.ctx k = s.ctx k
  fragments : t.switch.fragments = s.switch.fragments
  stalled : t.switch.stalled = s.switch.stalled
  cores : t.cores = s.cores
  clock : t.clock = s.clock

namespace CtxBecomes

variable {n : Nat} {y z : Ctx} {s t u : State}

theorem setCtx (h : fwf Ctx.reset s.ctxs = true) (z : Ctx) : CtxBecomes n z s (s.setCtx n z) :=
  ⟨fwf_fset h _ _, State.ctx_setCtx_self h n z, fun _ hk => State.ctx_setCtx_ne s z hk, rfl, rfl, rfl, rfl⟩

theorem trans (h : CtxBecomes n y s t) (k : CtxBecomes n z t u) : CtxBecomes n z s u :=
  ⟨k.wf, k.self, fun j hj => (k.others j hj).trans (h.others j hj), k.fragments.trans h.fragments, k.stalled.trans h.stalled,
    k.cores.trans h.cores, k.clock.trans h.clock⟩

theorem move (h : CtxBecomes n z s t) (k : LeavesMove t u) : CtxBecomes n z s u :=
  ⟨by rw [k.ctxs]; exact h.wf, (k.ctx n).trans h.self, fun j hj => (k.ctx j).trans (h.others j hj), k.fragments.trans h.fragments,
    k.stalled.trans h.stalled, k.stands.cores.trans h.cores, k.stands.clock.trans h.clock⟩

theorem after (k : CtxBecomes n z t u) (h : LeavesMove s t) : CtxBecomes n z s u :=
  ⟨k.wf, k.self, fun j hj => (k.others j hj).trans (h.ctx j), k.fragments.trans h.fragments, k.stalled.trans h.stalled,
    k.cores.trans h.stands.cores, k.clock.trans h.stands.clock⟩

theorem count (h : CtxBecomes n z s t) (i sub m : Nat) : CtxBecomes n z s (t.count i sub m) :=
  ⟨h.wf, h.self, h.others, h.fragments, h.stalled, h.cores, h.clock⟩

end CtxBecomes

/-! ### The leaves of an item (R239) -/

theorem State.writeItemLeaf_leavesOnly (s : State) (it : Item) (i off : Nat) (bs : Bytes) : LeavesOnly s (s.writeItemLeaf it i off bs) := by
  unfold State.writeItemLeaf
  split
  · exact s.writeLeaf_leavesOnly _ _ _
  · exact .refl s

theorem State.clearItemLeaves_leavesOnly (s : State) (x : Ctx) (it : Item) : LeavesOnly s (s.clearItemLeaves x it) :=
  .foldl (fun v _ => v.writeItemLeaf_leavesOnly _ _ _ _) _ s

theorem State.storeStates_leavesOnly (s : State) (it : Item) (lo n : Nat) : LeavesOnly s (s.storeStates it lo n) :=
  .foldl (fun v _ => v.writeItemLeaf_leavesOnly _ _ _ _) _ s

theorem State.storeData_leavesOnly (s : State) (it : Item) (pos : Nat) (bs : Bytes) : LeavesOnly s (s.storeData it pos bs) :=
  .foldl (fun v _ => v.writeItemLeaf_leavesOnly _ _ _ _) _ s

/-- Loading states reads leaves, and changes of the item its states alone. -/
theorem State.loadStates_spec (s : State) (unit : Nat) (it : Item) (lo n : Nat) :
    LeavesOnly s (s.loadStates unit it lo n).1 ∧ ∃ e, (s.loadStates unit it lo n).2.1 = { it with elems := e } := by
  refine List.foldlRecOn (motive := fun r : State × Item × Bool => LeavesOnly s r.1 ∧ ∃ e, r.2.1 = { it with elems := e }) _ _
    ⟨.refl s, it.elems, rfl⟩ fun r hr k _ => ?_
  dsimp only
  split
  · exact hr
  · obtain ⟨hread, e, he⟩ := hr
    exact ⟨hread.trans (State.readLeaf_leavesOnly _ _ _ _ _), _, by rw [he]⟩

theorem State.loadStates_of_no_leaves (s : State) (unit : Nat) {it : Item} (h : it.leaves = []) (lo n : Nat) :
    s.loadStates unit it lo n = (s, it, false) := by
  refine List.foldlRecOn (motive := (· = (s, it, false))) _ _ rfl fun r hr k _ => ?_
  subst hr
  simp [h]

/-! ### A contribution is absorbed (R213, R214) -/

/-- An absorbed contribution changes of an item its states and its streams. -/
theorem Ctx.absorbInto_spec (x : Ctx) (it : Item) (c : Contribution) (now : Nat) :
    ∃ e st, x.absorbInto it c now = { it with elems := e, streams := st } := by
  have hput : ∀ st : Stream, ∃ l, it.putStream st = { it with elems := it.elems, streams := l } := fun st => by
    unfold Item.putStream
    split <;> exact ⟨_, rfl⟩
  unfold Ctx.absorbInto
  extract_lets t b code st st1
  split
  · exact ⟨_, _, rfl⟩
  · exact ⟨_, _, rfl⟩
  · exact ⟨_, _, rfl⟩
  · exact ⟨_, hput _⟩
  · exact ⟨_, hput _⟩
  · exact ⟨_, hput _⟩

/-- What is absorbed does not depend on the item's leaves. -/
theorem Ctx.absorbInto_leaves (x : Ctx) (it : Item) (hs : List Nat) (c : Contribution) (now : Nat) :
    x.absorbInto { it with leaves := hs } c now = { x.absorbInto it c now with leaves := hs } := by
  have hput : ∀ st : Stream, Item.putStream { it with leaves := hs } st = { it.putStream st with leaves := hs } := fun st => by
    unfold Item.putStream
    dsimp only
    split <;> rfl
  unfold Ctx.absorbInto
  dsimp only
  split
  · rfl
  · rfl
  · rfl
  · exact hput _
  · exact hput _
  · exact hput _

theorem Ctx.itemDone_leaves (x : Ctx) (it : Item) (hs : List Nat) : x.itemDone { it with leaves := hs } = x.itemDone it := rfl

/-- A context whose item at the contribution's position has become it, and whose member has delivered when the contribution landed
(R259). -/
def Ctx.taken (x : Ctx) (it : Item) (c : Contribution) : Ctx :=
  { x.setItem c.position it with finishes := fset 0 x.finishes c.source (max (fget 0 x.finishes c.source) (c.landed + 1)) }

/-- A contribution that does not complete its item changes of its context the item and the finish of its source, and leaves besides. -/
theorem State.take_of_unfinished {s : State} {n : Nat} (hwf : fwf Ctx.reset s.ctxs = true) {c : Contribution} {it : Item}
    (hit : it = (s.ctx n).absorbInto ((s.ctx n).item c.position) c s.now) (hdone : (s.ctx n).itemDone it = false) :
    CtxBecomes n ((s.ctx n).taken it c) s (s.take n c) := by
  subst hit
  unfold State.take
  extract_lets x it' k fin done it'' z s1 s2 s3
  have hnot : done = false := hdone
  have hitem : it'' = it' := by
    show { it' with ripe := it'.ripe || (done && x.earlyK) } = it'
    rw [hnot, Bool.false_and, Bool.or_false]
  have hset : CtxBecomes n ((s.ctx n).taken it' c) s s1 := by
    show CtxBecomes n _ s (s.setCtx n (x.taken it'' c))
    rw [hitem]
    exact .setCtx hwf _
  have hstored : LeavesOnly s1 s2 := .ite (s1.storeStates_leavesOnly _ _ _) (s1.storeData_leavesOnly _ _ _)
  rw [if_neg (by rw [hnot, Bool.false_and]; exact Bool.false_ne_true)]
  exact (hset.move hstored.move).count _ _ _

end Sys2Proof.Machine
end

section
/-!
SUPPORT. What a slice makes of a fragment: dropped, late, held ahead in lead leaves, or absorbed by the open step (R215, R240, R250,
R251).
-/
namespace Sys2Proof.Machine

open Sys2Proof

/-! ### Absorbing a sound contribution (R213, R240) -/

/-- A sound contribution to an unfinished item that can be opened is taken. -/
theorem State.absorb_of_sound {s w : State} {n : Nat} {y : Ctx} {c : Contribution} {q : State × Item × Bool} (hy : s.ctx n = y)
    (hcount : c.position < y.count) (hseal : y.sealed = false) (hfin : (y.item c.position).finished = false)
    (hq : q = if y.keepsStates then s.loadStates (0x80 + y.slice) (y.item c.position) c.offset c.count else (s, y.item c.position, false))
    (hfault : y.faultOf q.2.1 c q.2.2 = none) (hopen : (q.1.setCtx n (y.setItem c.position q.2.1)).openItem n c.position = some w) :
    s.absorb n c = some (w.take n c, 0) := by
  unfold State.absorb
  dsimp only
  rw [hy, hseal, hfin, Bool.false_and, if_neg (by simp; omega), if_neg Bool.false_ne_true, ← hq, hfault]
  dsimp only
  rw [hopen]

theorem State.openItem_of_opened {s : State} {n p : Nat} (h : ((s.ctx n).item p).opened = true) : s.openItem n p = some s := by
  unfold State.openItem
  dsimp only
  rw [if_pos h]

/-- An item opened in external leaves (R240). -/
def Item.spill (it : Item) (hs : List Nat) : Item := { it with opened := true, spilled := true, leaves := hs }

/-- An item that finds no leaves in the window's reserve is opened in external ones, as its retry for them finds it. -/
theorem State.openItem_of_spare {s : State} {n p : Nat} (hwf : fwf Ctx.reset s.ctxs = true)
    (hclosed : ((s.ctx n).item p).opened = false) (hwin : (s.ctx n).win ≤ (s.ctx n).openItems) (hspare : s.Spare (s.ctx n).itemLeaves) :
    ∃ w hs, s.openItem n p = some w ∧ hs.length = (s.ctx n).itemLeaves ∧
      CtxBecomes n ((s.ctx n).setItem p (((s.ctx n).item p).spill hs)) s w := by
  obtain ⟨t, hs, hmany, hlen, hmove⟩ := State.allocMany_of_spare hspare []
  have hopened := ((CtxBecomes.setCtx (n := n) (by rw [hmove.ctxs]; exact hwf)
    ((s.ctx n).setItem p (((s.ctx n).item p).spill hs))).count 0x6005 (s.ctx n).slice 1).after hmove
  have hcleared := fun v : State => v.clearItemLeaves_leavesOnly (s.ctx n) (((s.ctx n).item p).spill hs)
  refine ⟨_, hs, ?_, by simpa using hlen, hopened.move (hcleared _).move⟩
  unfold State.openItem
  dsimp only
  rw [hclosed, if_neg Bool.false_ne_true, if_neg (Nat.not_lt.2 hwin), hmany]
  rfl

section Taken

variable {s w : State} {n : Nat} {y : Ctx} {c : Contribution} {it : Item} (hitems : fwf Item.fresh y.items = true)
include hitems

/-- A context with its item at it becomes what it makes of the contribution. -/
theorem CtxBecomes.take (h : CtxBecomes n (y.setItem c.position it) s w) (hdone : y.itemDone (y.absorbInto it c s.now) = false) :
    CtxBecomes n (y.taken (y.absorbInto it c s.now) c) s (w.take n c) := by
  have hnow : w.now = s.now := by rw [State.now, h.clock, State.now]
  have hitem : (w.ctx n).absorbInto ((w.ctx n).item c.position) c w.now = y.absorbInto it c s.now := by
    rw [h.self, Ctx.item_setItem_self hitems, hnow]
    rfl
  have htake := State.take_of_unfinished h.wf hitem.symm (by rw [h.self]; exact hdone)
  have htaken : (y.setItem c.position it).taken (y.absorbInto it c s.now) c = y.taken (y.absorbInto it c s.now) c := by
    unfold Ctx.taken
    rw [Ctx.setItem_setItem hitems]
    rfl
  rw [h.self, htaken] at htake
  exact h.trans htake

/-- An open step whose items all wait goes on waiting once an unfinished item has taken a contribution that does not complete it. -/
theorem Ctx.taken_waits (hpos : c.position < y.count) (hfin : it.finished = false) (hemit : it.emitted = false)
    (hready : ∀ k, k < y.count → (y.item k).finished = true → (y.item k).outstanding = 0 → (y.item k).emitted = true) :
    (y.taken (y.absorbInto it c s.now) c).Waits := by
  obtain ⟨e, st, habs⟩ := y.absorbInto_spec it c s.now
  have hself : (y.taken (y.absorbInto it c s.now) c).item c.position = y.absorbInto it c s.now := Ctx.item_setItem_self hitems _ _
  refine .inr ⟨fun p hp => ?_, c.position, hpos, by rw [hself, habs]; exact hemit⟩
  by_cases h : p = c.position
  · subst h
    rw [hself, habs]
    exact fun hf => absurd (hfin.symm.trans hf) Bool.false_ne_true
  · have hother : (y.taken (y.absorbInto it c s.now) c).item p = y.item p := fget_fset_ne _ _ _ h
    rw [hother]
    exact hready p hp

end Taken

/-! ### The cases of Table 10.2 -/

theorem State.takeOrHold_of_none {s t : State} {q : Nat} {f : Frame} (h : s.takeFragment q f = (t, none)) : s.takeOrHold q f = t := by
  rw [State.takeOrHold, h]

section Fragment

variable {u : State} {n q k : Nat} {f : Frame} {y : Ctx} {b : Contribution}

theorem State.takeOrHold_of_no_group (h : u.groupCtx f.group = none) : u.takeOrHold q f = (u.freeFrame f).count 0x6007 0 1 := by
  refine State.takeOrHold_of_none ?_
  rw [State.takeFragment, h]

theorem State.takeOrHold_of_fenced (h : u.groupCtx f.group = some n) (hy : (u.ctx n).state = ctxFenced) :
    u.takeOrHold q f = ((u.readFragment q f).1.lateFragment n none).freeFrame f := by
  refine State.takeOrHold_of_none ?_
  rw [State.takeFragment, h]
  dsimp only
  rw [if_pos (by simp [hy])]

/-- An ahead fragment is held in as many lead leaves as its payload takes. -/
theorem State.takeOrHold_of_ahead (h : Ahead n y q f k u) (hy : u.ctx n = y) (hwf : fwf Ctx.reset u.ctxs = true) : ∃ hs, hs.length = k ∧
    CtxBecomes n { y with lead := y.lead ++ [leadOf q f hs u] } u (u.takeOrHold q f) := by
  obtain ⟨hgroup, hidle, hmember, hrun, hahead, hk, hroom, hspare⟩ := h
  have hread := u.readFragment_leavesOnly q f
  obtain ⟨t, hs, hmany, hlen, hmove⟩ := State.allocMany_of_spare (hread.spare hspare) []
  have hfilled : LeavesMove u (t.fillLeaves hs (u.readFragment q f).2.2.1) :=
    (hread.move.trans hmove).trans (t.fillLeaves_leavesOnly _ _).move
  refine ⟨hs, by simpa using hlen, ?_⟩
  have heq : u.takeOrHold q f = (State.setCtx (t.fillLeaves hs (u.readFragment q f).2.2.1) n
      { y with lead := y.lead ++ [leadOf q f hs u] }).freeFrame f := by
    refine State.takeOrHold_of_none ?_
    rw [State.takeFragment, hgroup]
    dsimp only
    rw [hy, if_neg (by rw [hidle, hmember, hrun]; decide), if_neg (by simp [hidle, ctxOpen, ctxIdle]), if_pos hahead, ← hk,
      if_neg (Nat.not_lt.2 hroom), hmany]
    dsimp only
    rw [hfilled.ctx, hy]
    rfl
  rw [heq]
  exact ((CtxBecomes.setCtx (by rw [hfilled.ctxs]; exact hwf) _).after hfilled).move (State.freeFrame_leavesMove _ _)

/-- A fragment on time is absorbed, and its frame is freed, where its contribution can be. -/
theorem State.takeOrHold_of_onTime (h : OnTime n y q f b u) (hy : u.ctx n = y) {t : State} {e : Nat}
    (habs : (u.readFragment q f).1.absorb n b = some (t, e)) : u.takeOrHold q f = t.freeFrame f := by
  obtain ⟨hgroup, hopen, -, hmember, hrun, -, hseq, hb, -, -⟩ := h
  refine State.takeOrHold_of_none ?_
  rw [State.takeFragment, hgroup]
  dsimp only
  rw [hy, hopen, hmember, hrun, hseq, if_neg (by decide), if_pos (by decide), ← hb, habs]

end Fragment

end Sys2Proof.Machine
end

section
/-!
SUPPORT. FRAGMENT_ARRIVE, LEAD_RETRY and SPILL_RETRY: the fragment that a slice takes, and what is left to settle behind it (R240, R250,
R251).
-/
namespace Sys2Proof.Machine

open Sys2Proof

/-- Once context n has become z, nothing is to be settled where z waits and no other context has a step. -/
theorem CtxBecomes.settle {n : Nat} {z : Ctx} {s t : State} (h : CtxBecomes n z s t) (hz : z.Waits)
    (hothers : ∀ k, k ≠ n → (s.ctx k).stepCmd = none) : t.settle none = t := by
  refine State.settle_of_waits (fun k => ?_) none
  by_cases hk : k = n
  · subst hk
    rw [h.self]
    exact hz
  · rw [h.others k hk]
    exact .inl (hothers k hk)

/-! ### The fragment taken -/

theorem execFragmentArrive_of_none {q : QuireId} {s : State} (h : s.switch.fragments.find? (fun e => e.1 == q.val) = none) :
    exec (.fragmentArrive q) s = .next s :=
  State.ends_self (by rw [h])

theorem execFragmentArrive_of_some {q : QuireId} {f : Frame} {s u : State}
    (h : s.switch.fragments.find? (fun e => e.1 == q.val) = some (q.val, f))
    (hu : u = { s with switch := { s.switch with fragments := s.switch.fragments.erase (q.val, f) } }) :
    exec (.fragmentArrive q) s = s.ends ((u.takeOrHold q f).settle none) := by
  subst hu
  show execFragmentArrive q s = _
  unfold execFragmentArrive
  rw [h]

/-! ### The fragments retried -/

theorem State.absorbLead_of_unled {s : State} {n : Nat} (h : (s.ctx n).lead = []) : s.absorbLead n = s := by
  rw [State.absorbLead, h]
  rfl

theorem State.foldl_absorbLead_of_unled {s : State} (h : ∀ e ∈ s.ctxs, e.2.lead = []) (b : Nat × Ctx → Bool) :
    s.ctxs.foldl (fun t e => if b e then State.absorbLead t e.1 else t) s = s :=
  List.foldlRecOn (motive := (· = s)) s.ctxs _ rfl fun t ht e _ => by
    subst ht
    split
    · exact State.absorbLead_of_unled (State.ctx_induction (P := fun y => y.lead = []) e.1 rfl fun he => h _ he)
    · rfl

section Retry

variable {q : Nat} {lead : Bool} {s : State} (hlead : lead = false → ∀ e ∈ s.ctxs, e.2.lead = [])
include hlead

/-- A retry takes the slice's fragments that stalled so, where no held fragment waits with them. -/
theorem State.retryStalled_of_unled : s.retryStalled q lead =
    ((s.switch.stalled.filter (fun e => e.1 == q && e.2.1 == lead)).foldl (fun t e => State.takeOrHold t q e.2.2)
      { s with switch := { s.switch with stalled := s.switch.stalled.filter (fun e => !(e.1 == q && e.2.1 == lead)) } }).settle none := by
  unfold State.retryStalled
  extract_lets mine sw s1 s2
  have hheld : s2 = s1 := by
    show (if lead then s1 else _) = s1
    split
    · rfl
    · next h => exact State.foldl_absorbLead_of_unled (s := s1) (hlead (Bool.eq_false_of_not_eq_true h)) _
  rw [hheld]

theorem State.retryStalled_of_single {f : Frame} {u : State} (h : s.switch.stalled = [(q, lead, f)])
    (hu : u = { s with switch := { s.switch with stalled := [] } }) : s.retryStalled q lead = (u.takeOrHold q f).settle none := by
  subst hu
  rw [State.retryStalled_of_unled hlead, h]
  simp

theorem State.retryStalled_of_none (hstill : Still s) (h : ∀ e ∈ s.switch.stalled, ¬ (e.1 = q ∧ e.2.1 = lead)) :
    s.retryStalled q lead = s := by
  have hmine : s.switch.stalled.filter (fun e => e.1 == q && e.2.1 == lead) = [] :=
    List.filter_eq_nil_iff.2 fun e he => by simpa using h e he
  have hrest : s.switch.stalled.filter (fun e => !(e.1 == q && e.2.1 == lead)) = s.switch.stalled :=
    List.filter_eq_self.2 fun e he => by simpa [-not_and, not_and_or] using h e he
  rw [State.retryStalled_of_unled hlead, hmine, hrest]
  exact State.settle_of_still (State.stepCmd_of_still hstill) none

end Retry

/-! ### What a slice makes of a fragment -/

section Fragment

variable {s u : State} {x : CtxId} {q : Nat} {f : Frame} {y : Ctx} {b : Contribution} {k : Nat}

/-- A fragment of no context goes, counted. -/
theorem State.settle_takeOrHold_of_no_group (hwf : StoresWf u) (hstill : Still u) (h : u.groupCtx f.group = none) : ∃ t,
    (u.takeOrHold q f).settle none = t ∧ t.switch.fragments = u.switch.fragments ∧
      bits (t.idx 0x6007 0) 63 0 = min (bits (u.idx 0x6007 0) 63 0 + 1) (2 ^ 64 - 1) ∧ t.ctxs = u.ctxs ∧ t.cores = u.cores := by
  have hfreed := u.freeFrame_leavesMove f
  obtain ⟨-, -, hindex⟩ := closed_storesWf.freeFrame (a1 := f) hwf
  have hctx : ∀ n, (State.count (u.freeFrame f) 0x6007 0 1).ctx n = u.ctx n := hfreed.ctx
  rw [State.takeOrHold_of_no_group h, State.settle_of_still (fun n => by rw [hctx]; exact State.stepCmd_of_still hstill n)]
  refine ⟨_, rfl, hfreed.fragments, ?_, hfreed.ctxs, hfreed.stands.cores⟩
  rw [State.count, State.bits_idx_idxBump hindex, hfreed.idx 0x6007 0 (by decide)]

/-- A fragment of a fenced context is dropped as late. -/
theorem State.settle_takeOrHold_of_fenced (hwf : StoresWf u) (hstill : Still u) (h : u.groupCtx f.group = some x.val)
    (hy : (u.ctx x).state = ctxFenced) : ∃ t, (u.takeOrHold q f).settle none = t ∧ t.switch.fragments = u.switch.fragments ∧
      bits (t.idx (0x6120 + x.val / 256) (x.val % 256)) 63 32 =
        min (bits (u.idx (0x6120 + x.val / 256) (x.val % 256)) 63 32 + 1) (2 ^ 32 - 1) ∧ t.ctxs = u.ctxs ∧ t.cores = u.cores := by
  have hkey : ikey (0x6120 + x.val / 256) (x.val % 256) < ikey 0x7000 0 ∨
      ikey 0x8000 0 ≤ ikey (0x6120 + x.val / 256) (x.val % 256) := by
    have := x.isLt
    unfold ikey
    omega
  have hread := (u.readFragment_leavesOnly q f).move
  obtain ⟨-, -, hindex⟩ := closed_storesWf.readFragment (a1 := q) (a2 := f) hwf
  have hfreed := State.freeFrame_leavesMove ((u.readFragment q f).1.lateFragment x none) f
  have hctxs : (((u.readFragment q f).1.lateFragment x none).freeFrame f).ctxs = u.ctxs := hfreed.ctxs.trans hread.ctxs
  have hctx : ∀ n, (((u.readFragment q f).1.lateFragment x none).freeFrame f).ctx n = u.ctx n := fun n => by
    rw [State.ctx, hctxs, State.ctx]
  rw [State.takeOrHold_of_fenced h hy, State.settle_of_still (fun n => by rw [hctx]; exact State.stepCmd_of_still hstill n)]
  refine ⟨_, rfl, hfreed.fragments.trans hread.fragments, ?_, hctxs, hfreed.stands.cores.trans hread.stands.cores⟩
  rw [hfreed.idx _ _ hkey, State.lateFragment, State.bits_idx_idxBump hindex, hread.idx _ _ hkey]

/-- An ahead fragment is held in lead leaves. -/
theorem State.settle_takeOrHold_of_ahead (hwf : fwf Ctx.reset u.ctxs = true) (hstill : Still u) (h : Ahead x y q f k u) (hy : u.ctx x = y) :
    ∃ t hs, (u.takeOrHold q f).settle none = t ∧ hs.length = k ∧ CtxBecomes x { y with lead := y.lead ++ [leadOf q f hs u] } u t := by
  obtain ⟨hs, hlen, hbecomes⟩ := State.takeOrHold_of_ahead h hy hwf
  have hstep := State.stepCmd_of_still hstill
  exact ⟨_, hs, hbecomes.settle (.inl ((congrArg Ctx.stepCmd hy).symm.trans (hstep x))) fun j _ => hstep j, hlen, hbecomes⟩

section OnTime

variable {it : Item} (hstill : StillBut x u) (h : OnTime x y q f b u) (hy : u.ctx x = y)
include hstill h hy

/-- A fragment on time that can be absorbed is, and leaves its item unfinished. -/
theorem State.settle_takeOrHold_of_onTime {t : State} (hadds : Adds y it b u.now) (habs : (u.readFragment q f).1.absorb x b = some (t, 0))
    (hbecomes : CtxBecomes x (y.taken (y.absorbInto it b u.now) b) u t) : ∃ w, (u.takeOrHold q f).settle none = w ∧
      CtxBecomes x (y.taken (y.absorbInto it b u.now) b) u w := by
  have htaken := State.takeOrHold_of_onTime h hy habs
  obtain ⟨-, -, -, -, -, -, -, -, hitems, hready⟩ := h
  obtain ⟨hpos, hfin, hemit, -, -⟩ := hadds
  have hfreed := hbecomes.move (t.freeFrame_leavesMove f)
  rw [htaken, hfreed.settle (Ctx.taken_waits hitems hpos hfin hemit hready) fun j hj => State.stepCmd_of_stillBut hstill hj]
  exact ⟨_, rfl, hfreed⟩

/-- A fragment on time for an opened item is absorbed into the states that the item's leaves hold. -/
theorem State.settle_takeOrHold_of_opened {v : State} (hwf : fwf Ctx.reset u.ctxs = true) (hv : v = (u.readFragment q f).1)
    (hit : it = (if y.keepsStates then v.loadStates (0x80 + y.slice) (y.item b.position) b.offset b.count
      else (v, y.item b.position, false)).2.1)
    (hsound : y.keepsStates = true → (v.loadStates (0x80 + y.slice) (y.item b.position) b.offset b.count).2.2 = false)
    (hopened : (y.item b.position).opened = true) (hadds : Adds y it b u.now) : ∃ w, (u.takeOrHold q f).settle none = w ∧
      CtxBecomes x (y.taken (y.absorbInto it b u.now) b) u w := by
  have hctx : v.ctx x = y := by rw [hv, (u.readFragment_leavesOnly q f).move.ctx, hy]
  obtain ⟨p, hp⟩ : ∃ p, p = if y.keepsStates then v.loadStates (0x80 + y.slice) (y.item b.position) b.offset b.count
    else (v, y.item b.position, false) := ⟨_, rfl⟩
  have hloaded : LeavesOnly v p.1 ∧ (∃ e, p.2.1 = { y.item b.position with elems := e }) ∧ p.2.2 = false := by
    rw [hp]
    split
    · next hkeeps =>
      obtain ⟨hread, e, he⟩ := v.loadStates_spec (0x80 + y.slice) (y.item b.position) b.offset b.count
      exact ⟨hread, ⟨e, he⟩, hsound hkeeps⟩
    · exact ⟨.refl v, ⟨_, rfl⟩, rfl⟩
  rw [← hp] at hit
  obtain ⟨hread, ⟨e, he⟩, hok⟩ := hloaded
  have hmove : LeavesMove u p.1 := by
    have := u.readFragment_leavesOnly q f
    rw [← hv] at this
    exact (this.trans hread).move
  have hset : CtxBecomes x (y.setItem b.position it) u (p.1.setCtx x (y.setItem b.position it)) :=
    (CtxBecomes.setCtx (by rw [hmove.ctxs]; exact hwf) _).after hmove
  obtain ⟨-, -, -, -, -, hseal, -, -, hitems, -⟩ := id h
  obtain ⟨hpos, hfin, -, hfault, hdone⟩ := id hadds
  have hfin' : (y.item b.position).finished = false := by rw [← hfin, hit, he]
  have hopen : (p.1.setCtx x (y.setItem b.position p.2.1)).openItem x b.position = some (p.1.setCtx x (y.setItem b.position it)) := by
    rw [← hit]
    refine State.openItem_of_opened ?_
    rw [hset.self, Ctx.item_setItem_self hitems, hit, he]
    exact hopened
  refine State.settle_takeOrHold_of_onTime hstill h hy hadds ?_ (hset.take hitems hdone)
  rw [← hv]
  exact State.absorb_of_sound hctx hpos hseal hfin' hp (by rw [← hit, hok]; exact hfault) hopen

/-- A fragment on time for an item that is opened in external leaves is absorbed into it. -/
theorem State.settle_takeOrHold_of_spare (hwf : fwf Ctx.reset u.ctxs = true) (hclosed : (y.item b.position).opened = false)
    (hleaves : (y.item b.position).leaves = []) (hwin : y.win ≤ y.openItems) (hspare : u.Spare y.itemLeaves)
    (hadds : Adds y { y.item b.position with opened := true, spilled := true } b u.now) : ∃ w hs, (u.takeOrHold q f).settle none = w ∧
      hs.length = y.itemLeaves ∧ CtxBecomes x (y.taken (y.absorbInto ((y.item b.position).spill hs) b u.now) b) u w := by
  obtain ⟨v, hv⟩ : ∃ v, v = (u.readFragment q f).1 := ⟨_, rfl⟩
  have hread : LeavesOnly u v := by
    rw [hv]
    exact u.readFragment_leavesOnly q f
  have hctx : v.ctx x = y := by rw [hread.move.ctx, hy]
  obtain ⟨-, -, -, -, -, hseal, -, -, hitems, -⟩ := id h
  obtain ⟨hpos, hfin, hemit, hfault, hdone⟩ := id hadds
  have hset : CtxBecomes x y u (v.setCtx x y) := (CtxBecomes.setCtx (by rw [hread.move.ctxs]; exact hwf) _).after hread.move
  obtain ⟨w, hs, hopen, hlen, hbecomes⟩ := State.openItem_of_spare (p := b.position) hset.wf (by rw [hset.self]; exact hclosed)
    (by rw [hset.self]; exact hwin) (by rw [hset.self]; exact hread.spare hspare)
  rw [hset.self] at hlen hbecomes
  have hload : (v, y.item b.position, false) = if y.keepsStates then
      v.loadStates (0x80 + y.slice) (y.item b.position) b.offset b.count else (v, y.item b.position, false) := by
    rw [State.loadStates_of_no_leaves v _ hleaves, ite_self]
  have habs := State.absorb_of_sound (w := w) hctx hpos hseal hfin hload hfault (by rw [Ctx.setItem_item hitems]; exact hopen)
  have hdone' : y.itemDone (y.absorbInto ((y.item b.position).spill hs) b u.now) = false := by
    rw [Item.spill, Ctx.absorbInto_leaves y { y.item b.position with opened := true, spilled := true } hs, Ctx.itemDone_leaves]
    exact hdone
  rw [hv] at habs
  obtain ⟨t, ht, htaken⟩ := State.settle_takeOrHold_of_onTime (it := (y.item b.position).spill hs) hstill h hy
    ⟨hpos, hfin, hemit, hfault, hdone'⟩ habs ((hset.trans hbecomes).take hitems hdone')
  exact ⟨t, hs, ht, hlen, htaken⟩

end OnTime

end Fragment

end Sys2Proof.Machine
end

section
/-!
SUPPORT. Contexts let go of held fragments and never take more: what emits items, closes steps and records them keeps the lead of a
context or drops it (R217, R235, R249, R252).
-/
namespace Sys2Proof.Machine

open Sys2Proof

/-- From s to t every context has kept the fragments that it holds, or has dropped them all. -/
def LeadsShrink (s t : State) : Prop :=
  fwf Ctx.reset s.ctxs = true → fwf Ctx.reset t.ctxs = true ∧ ∀ n, (t.ctx n).lead = (s.ctx n).lead ∨ (t.ctx n).lead = []

namespace LeadsShrink

variable {s t u : State}

theorem of_ctxs (h : t.ctxs = s.ctxs) : LeadsShrink s t := fun hwf =>
  ⟨by rwa [h], fun n => .inl (by rw [State.ctx, h, State.ctx])⟩

theorem refl (s : State) : LeadsShrink s s := of_ctxs rfl

theorem trans (h : LeadsShrink s t) (k : LeadsShrink t u) : LeadsShrink s u := fun hwf => by
  obtain ⟨hwft, ht⟩ := h hwf
  obtain ⟨hwfu, hu⟩ := k hwft
  exact ⟨hwfu, fun n => (hu n).elim (fun e => (ht n).imp e.trans e.trans) .inr⟩

theorem setCtx (h : LeadsShrink s t) {n : Nat} {z : Ctx} (hz : z.lead = (s.ctx n).lead ∨ z.lead = []) : LeadsShrink s (t.setCtx n z) :=
  fun hwf => by
    obtain ⟨hwft, ht⟩ := h hwf
    refine ⟨fwf_fset hwft _ _, fun k => ?_⟩
    by_cases hk : k = n
    · rw [hk, State.ctx_setCtx_self hwft]
      exact hz
    · rw [State.ctx_setCtx_ne t z hk]
      exact ht k

/-- A context changes in all but the fragments that it holds. -/
theorem update (s : State) (n : Nat) {z : Ctx} (hz : z.lead = (s.ctx n).lead) : LeadsShrink s (s.setCtx n z) := (refl s).setCtx (.inl hz)

theorem touches (h : Touches s t) : LeadsShrink s t := of_ctxs h.ctxs

theorem leaves (h : LeavesMove s t) : LeadsShrink s t := of_ctxs h.ctxs

theorem ite {b : Prop} [Decidable b] (ht : LeadsShrink s t) (hu : LeadsShrink s u) : LeadsShrink s (if b then t else u) := P_ite ht hu

theorem ite_fst {β : Type} {b : Prop} [Decidable b] {p q : State × β} (hp : LeadsShrink s p.1) (hq : LeadsShrink s q.1) :
    LeadsShrink s (if b then p else q).1 := P_ite1 hp hq

theorem foldl {β : Type} {f : State → β → State} (hf : ∀ v a, LeadsShrink v (f v a)) (l : List β) (s : State) :
    LeadsShrink s (l.foldl f s) := P_foldl (P := LeadsShrink s) (.refl s) fun v a hv => hv.trans (hf v a)

theorem foldl_fst {β γ : Type} {f : State × γ → β → State × γ} (hf : ∀ p a, LeadsShrink p.1 (f p a).1) (l : List β)
    (p : State × γ) : LeadsShrink p.1 (l.foldl f p).1 := P_foldl1 (P := LeadsShrink p.1) (.refl _) fun v a hv => hv.trans (hf v a)

end LeadsShrink

/-! ### Frames that leave (R208, R267) -/

theorem State.retagQueue_ctxs (s : State) (p v : Nat) : (s.retagQueue p v).ctxs = s.ctxs := by
  unfold State.retagQueue
  dsimp only
  split
  · rfl
  · exact P_ite (P := fun t => t.ctxs = s.ctxs) rfl
      (P_ite (P := fun t => t.ctxs = s.ctxs) rfl (P_ite (P := fun t => t.ctxs = s.ctxs) rfl rfl))

theorem State.enqueue_ctxs (s : State) (p : Nat) (f : Frame) : (s.enqueue p f).1.ctxs = s.ctxs :=
  P_ite1 (P := fun t => t.ctxs = s.ctxs) (s.freeFrame_leavesMove f).ctxs
    (P_foldl (P := fun t => t.ctxs = s.ctxs) rfl fun t v ht => (t.retagQueue_ctxs p v).trans ht)

theorem State.deliverCompute_ctxs (s : State) (f : Frame) : (s.deliverCompute f).ctxs = s.ctxs := by
  unfold State.deliverCompute
  split
  · rfl
  · exact (s.freeFrame_leavesMove f).ctxs

theorem State.sendFrame_ctxs (s : State) (f : Frame) : (s.sendFrame f).1.ctxs = s.ctxs := by
  have hhere := s.deliverCompute_ctxs f
  unfold State.sendFrame
  refine P_ite1 (P := fun t => t.ctxs = s.ctxs) (P_ite (P := fun t => t.ctxs = s.ctxs) ((State.enqueue_ctxs _ _ _).trans hhere) hhere) ?_
  split
  · exact (s.freeFrame_leavesMove f).ctxs
  · exact s.enqueue_ctxs _ f

/-! ### Emissions (R233 to R236) -/

theorem State.checkStored_ctxs (s : State) (spans : List (Nat × Nat)) (stored carried : Bytes) :
    (s.checkStored spans stored carried).1.ctxs = s.ctxs :=
  P_ite1 (P := fun t => t.ctxs = s.ctxs) rfl (P_foldl (P := fun t => t.ctxs = s.ctxs) rfl fun _ _ ht =>
    P_foldl (P := fun t => t.ctxs = s.ctxs) ht fun _ _ hu => hu)

theorem State.writeHead_leadsShrink (s : State) (x : Ctx) (d p : Nat) (head : Bytes) : LeadsShrink s (s.writeHead x d p head) :=
  .touches (s.writeMem_touches _ _ _)

theorem State.emitDone_leadsShrink (s : State) (n p k cause : Nat) : LeadsShrink s (s.emitDone n p k cause) := .update s n rfl

theorem State.emitMore_leadsShrink (s : State) (n p : Nat) : LeadsShrink s (s.emitMore n p) := .update s n rfl

theorem State.emitFrame_leadsShrink (s : State) (n p k : Nat) (h : FolioHeader) (payload : Bytes) :
    LeadsShrink s (s.emitFrame n p k h payload) := by
  unfold State.emitFrame
  extract_lets f r
  have hsent : LeadsShrink s r.1 := (s.emitMore_leadsShrink n p).trans (.of_ctxs (State.sendFrame_ctxs _ _))
  have hdone : ∀ cause, LeadsShrink s (r.1.emitDone n p k cause) := fun cause => hsent.trans (State.emitDone_leadsShrink _ _ _ _ _)
  exact .ite (.refl s) (.ite (.ite (hdone 0) hsent) (hdone 8))

theorem State.emitOne_leadsShrink (s : State) (n p k cause : Nat) (e : EmitOut) : LeadsShrink s (s.emitOne n p k cause e) := by
  unfold State.emitOne
  extract_lets x it d failed base w t blank h xb per parts g y s1
  split
  · have hstored : LeadsShrink s t.1 :=
      (LeadsShrink.touches (s.writeMem_touches _ _ _)).trans (.of_ctxs (State.checkStored_ctxs _ _ _ _))
    refine .ite (s.writeHead_leadsShrink _ _ _ _) (.ite (hstored.trans (State.writeHead_leadsShrink _ _ _ _ _)) ?_)
    exact ((hstored.trans (State.emitMore_leadsShrink _ _ _)).trans (State.writeHead_leadsShrink _ _ _ _ _)).trans
      (State.emitDone_leadsShrink _ _ _ _ _)
  · exact .ite (s.emitFrame_leadsShrink _ _ _ _ _) (.foldl (fun v _ => v.emitFrame_leadsShrink _ _ _ _ _) _ s)
  · exact (s.emitMore_leadsShrink n p).setCtx (.inl rfl)

theorem State.emitAll_leadsShrink (s : State) (n p cause : Nat) (es : List EmitOut) : LeadsShrink s (s.emitAll n p cause es) :=
  .foldl (fun v _ => v.emitOne_leadsShrink _ _ _ _ _) _ s

/-! ### Items that finish (R214, R235) -/

theorem State.markItem_leadsShrink (s : State) (n p cause : Nat) (k : Counts) (breaks omitted check : Nat) :
    LeadsShrink s (s.markItem n p cause k breaks omitted check) := .update s n rfl

theorem State.failItem_leadsShrink (s : State) (n p cause : Nat) : LeadsShrink s (s.failItem n p cause) :=
  .ite (.refl s) ((s.markItem_leadsShrink _ _ _ _ _ _ _).trans (State.emitAll_leadsShrink _ _ _ _ _))

theorem State.loadItem_leavesOnly (s : State) (x : Ctx) (it : Item) : LeavesOnly s (s.loadItem x it).1 := by
  have hread : LeavesOnly s (s.readItemLeaves (0x80 + x.slice) it).1 :=
    P_foldl1 (P := LeavesOnly s) (t := (s, [], false)) (.refl s) fun v h hv => hv.trans (v.1.readLeaf_leavesOnly _ _ _ _)
  exact .ite_fst (hread.trans (State.loadStates_spec _ _ _ _ _).1) hread

theorem State.finishItem_leadsShrink (s : State) (n p : Nat) : LeadsShrink s (s.finishItem n p) := by
  unfold State.finishItem
  extract_lets x it rd c after r cause z s1 s2 s3
  have hload : LeadsShrink s rd.1 := .leaves (s.loadItem_leavesOnly x it).move
  refine .ite (hload.trans (State.failItem_leadsShrink _ _ _ _)) ?_
  have hset : LeadsShrink s s1 := hload.setCtx (.inl rfl)
  have hcount : LeadsShrink s1 s2 := .of_ctxs rfl
  have hmark : LeadsShrink s2 s3 := s2.markItem_leadsShrink _ _ _ _ _ _ _
  exact ((hset.trans hcount).trans hmark).trans (State.emitAll_leadsShrink _ _ _ _ _)

theorem State.endItem_leadsShrink (s : State) (n p cause : Nat) : LeadsShrink s (s.endItem n p cause) := by
  unfold State.endItem
  dsimp only
  refine .ite (.refl s) (.ite (s.finishItem_leadsShrink n p) ?_)
  split
  · exact s.failItem_leadsShrink _ _ _
  · exact s.failItem_leadsShrink _ _ _

theorem State.failRest_leadsShrink (s : State) (n cause : Nat) : LeadsShrink s (s.failRest n cause) :=
  .foldl (fun v _ => v.endItem_leadsShrink _ _ _) _ s

theorem State.dropLead_leadsShrink (s : State) (n : Nat) : LeadsShrink s (s.dropLead n) := fun hwf => by
  have hset : LeadsShrink s (s.setCtx n { s.ctx n with lead := [] }) := (LeadsShrink.refl s).setCtx (.inr rfl)
  exact hset.trans (.of_ctxs (s.dropLead_ctxs n)) hwf

theorem State.fence_leadsShrink (s : State) (n : Nat) : LeadsShrink s (s.fence n) := by
  have hfenced : LeadsShrink s ((s.dropLead n).setCtx n { (s.dropLead n).ctx n with state := ctxFenced }) :=
    (s.dropLead_leadsShrink n).trans (.update _ n rfl)
  exact .ite (hfenced.trans (State.failRest_leadsShrink _ _ _)) hfenced

/-! ### Steps that close (R249, R256, R259, R260) -/

theorem State.markLaggard_leadsShrink (s : State) (n a : Nat) : LeadsShrink s (s.markLaggard n a) := by
  unfold State.markLaggard
  dsimp only
  split
  · exact .refl s
  · refine .ite (.refl s) ?_
    have hmarked : ∀ v : List Member, LeadsShrink s (s.setCtx n { s.ctx n with members := v }) := fun _ => .update s n rfl
    exact .ite ((hmarked _).trans (.of_ctxs rfl)) ((hmarked _).trans (.of_ctxs rfl))

theorem State.windows_leadsShrink (s : State) (n : Nat) (one : Option Nat) (f : Member → Member) : LeadsShrink s (s.windows n one f) := by
  unfold State.windows
  extract_lets x s1
  have hset : LeadsShrink s s1 := .update s n rfl
  exact hset.trans (.foldl (fun v _ => v.markLaggard_leadsShrink _ _) _ _)

theorem State.barrier_leadsShrink (s : State) (n : Nat) : LeadsShrink s (s.barrier n) := by
  refine .ite (.refl s) ?_
  split
  · exact .refl s
  · exact (LeadsShrink.touches (.refl s)).trans (State.windows_leadsShrink (State.idxSet s _ _ _) _ _ _)

theorem Ctx.seal_lead (x : Ctx) (clean : Bool) : (x.seal clean).lead = x.lead := by
  unfold Ctx.seal
  split
  · rfl
  · split <;> rfl

theorem State.recordStep_leadsShrink (s : State) (n : Nat) (named clean late : Bool) : LeadsShrink s (s.recordStep n named clean late) := by
  unfold State.recordStep
  extract_lets x s1 s2 y s3
  have hseal : LeadsShrink s s1 := .update s n (Ctx.seal_lead _ _)
  have hbarrier : LeadsShrink s1 s2 := .ite (.refl s1) (s1.barrier_leadsShrink n)
  have hrecord : LeadsShrink s s3 := (hseal.trans hbarrier).trans (.update s2 n rfl)
  exact .ite (hrecord.trans (s3.dropLead_leadsShrink n)) hrecord

/-! ### Commands that complete, and their digests (R182, R184, R380 to R384) -/

theorem State.finishCmd_leadsShrink (s : State) (k : Cmd) (status cause : Nat) : LeadsShrink s (s.finishCmd k status cause) := by
  obtain ⟨_, _, h⟩ := s.finishCmd_recordsOnly k status cause
  exact .of_ctxs h.frame.2.1

theorem State.squash_leadsShrink (s : State) (c : Cmd) : LeadsShrink s (s.squash c) := by
  unfold State.squash
  extract_lets x z s1 p s2
  have hplace : LeadsShrink s s1 := .ite (.update s x rfl) (.refl s)
  have hheld : LeadsShrink s1 s2 := .of_ctxs rfl
  exact (hplace.trans hheld).trans (s2.finishCmd_leadsShrink _ _ _)

theorem State.squashAll_leadsShrink (s : State) (core : Nat) : LeadsShrink s (s.squashAll core) :=
  .foldl (fun v k => v.squash_leadsShrink k) _ s

theorem State.stopCore_leadsShrink (s : State) (c : Nat) : LeadsShrink s (s.stopCore c) := by
  have hset : ∀ x, LeadsShrink s (s.setCore c x) := fun _ => .of_ctxs rfl
  exact .ite ((hset _).trans (State.squashAll_leadsShrink _ c)) (.refl s)

theorem State.stopCores_leadsShrink (s : State) : LeadsShrink s s.stopCores := .foldl (fun v c => v.stopCore_leadsShrink c) _ s

theorem State.blameStep_ctxs (s : State) (key : Option (Nat × Nat)) : (s.blameStep key).ctxs = s.ctxs := by
  unfold State.blameStep
  dsimp only
  split <;> rfl

theorem State.diverge_leadsShrink (s : State) (kind : Nat) (own other : Option Digest) : LeadsShrink s (s.diverge kind own other) := by
  unfold State.diverge
  extract_lets w s1 s2 p s3
  have hblame : LeadsShrink s s1 := .of_ctxs (State.blameStep_ctxs _ _)
  have hcount : LeadsShrink s1 s2 := .of_ctxs rfl
  have hrecord : LeadsShrink s2 s3 := .ite (.of_ctxs rfl) (.of_ctxs rfl)
  have hdone := (hblame.trans hcount).trans hrecord
  exact .ite (hdone.trans s3.stopCores_leadsShrink) hdone

theorem State.comparePair_leadsShrink (s : State) (own other : Digest) : LeadsShrink s (s.comparePair own other) :=
  .ite (.of_ctxs rfl) (.ite (s.diverge_leadsShrink _ _ _) (s.diverge_leadsShrink _ _ _))

theorem State.takeDigest_leadsShrink (s : State) (mine : Bool) (d : Digest) : LeadsShrink s (s.takeDigest mine d) := by
  unfold State.takeDigest
  extract_lets side other dup p s1
  have hproof : ∀ p : Proof, LeadsShrink s { s with proof := p } := fun _ => .of_ctxs rfl
  have hcount : ∀ hi lo n, LeadsShrink s (s.idxBump 0x8023 0 hi lo n) := fun _ _ _ => .of_ctxs rfl
  refine .ite (.ite (s.diverge_leadsShrink _ _ _) (s.diverge_leadsShrink _ _ _)) (.ite (hcount _ _ _) ?_)
  split
  · exact .ite ((hproof _).trans (State.comparePair_leadsShrink _ _ _)) ((hproof _).trans (State.comparePair_leadsShrink _ _ _))
  · exact .ite (hcount _ _ _) (.ite (hproof _) (hproof _))

theorem State.digest_leadsShrink (s : State) (c : Cmd) (item : Nat) (failed : Bool) (cause check : Nat) :
    LeadsShrink s (s.digest c item failed cause check) := by
  have hproof : ∀ p : Proof, LeadsShrink s { s with proof := p } := fun _ => .of_ctxs rfl
  refine .ite (.refl s) ?_
  split
  · exact .refl s
  · exact .ite ((hproof _).trans (State.takeDigest_leadsShrink _ _ _)) (hproof _)

theorem State.finishStep_leadsShrink (s : State) (core serial : Nat) (outs : List (Nat × Nat × Counts × Nat)) :
    LeadsShrink s (s.finishStep core serial outs) := by
  unfold State.finishStep
  split
  · exact .refl s
  · exact LeadsShrink.trans (LeadsShrink.foldl_fst (fun p o => .ite_fst (p.1.digest_leadsShrink _ _ _ _ _)
      (p.1.digest_leadsShrink _ _ _ _ _)) outs (s, _)) (State.finishCmd_leadsShrink _ _ _ _)

theorem State.closeStep_leadsShrink (s : State) (n : Nat) (named : Bool) : LeadsShrink s (s.closeStep n named) := by
  unfold State.closeStep
  dsimp only
  split
  · exact .refl s
  · have hend : LeadsShrink s (s.endStep n) := .update s n rfl
    exact (LeadsShrink.ite hend (s.recordStep_leadsShrink _ _ _ _)).trans (State.finishStep_leadsShrink _ _ _ _)

theorem State.closeItem_leadsShrink (s : State) (n p : Nat) : LeadsShrink s (s.closeItem n p) :=
  .ite ((LeadsShrink.touches (s.freeLeaves_touches _)).setCtx (.inl rfl)) (.update s n rfl)

theorem State.settleCtx_leadsShrink (s : State) (n : Nat) (named : Bool) : LeadsShrink s (s.settleCtx n named) := by
  refine .ite (.refl s) ?_
  have hitems := LeadsShrink.foldl (f := fun (s : State) p =>
      let it := (State.ctx s n).item p
      if it.finished && it.outstanding = 0 && !it.emitted then
        (let s := State.closeItem s n p
         let y := State.ctx s n
         State.setCtx s n (y.setItem p { y.item p with emitted := true }))
      else s)
    (fun v p => .ite ((v.closeItem_leadsShrink n p).trans (.update _ n rfl)) (.refl v)) (List.range (s.ctx n).count) s
  exact .ite (hitems.trans (State.closeStep_leadsShrink _ _ _)) hitems

theorem State.settle_leadsShrink (s : State) (named : Option Nat) : LeadsShrink s (s.settle named) :=
  .foldl (fun v _ => v.settleCtx_leadsShrink _ _) s.ctxs s

/-! ### Contributions (R213 to R215) -/

theorem State.take_leadsShrink (s : State) (n : Nat) (c : Contribution) : LeadsShrink s (s.take n c) := by
  unfold State.take
  extract_lets x it' k fin done it'' z s1 s2 s3
  have hset : LeadsShrink s s1 := .update s n rfl
  have hstored : LeadsShrink s1 s2 := .leaves (LeavesOnly.ite (s1.storeStates_leavesOnly _ _ _) (s1.storeData_leavesOnly _ _ _)).move
  have hcount : LeadsShrink s s3 := (hset.trans hstored).trans (.of_ctxs rfl)
  exact .ite (hcount.trans (s3.finishItem_leadsShrink _ _)) hcount

end Sys2Proof.Machine
end

section
/-!
SUPPORT. CSTEP_START: a step opens and takes the fragment held for it, or its context is fenced (R217, R249, R251, R252).
-/
namespace Sys2Proof.Machine

open Sys2Proof

/-! ### The step that opens -/

/-- What CSTEP c makes of an idle context at stitch now (R217). -/
def Ctx.opening (y : Ctx) (c : Cmd) (now : Nat) : Ctx :=
  { y with
    state := ctxOpen, sequence := c.values.headD 0, count := cfItems c.word, items := [], started := now, finishes := [],
    consts := (y.program.takeWhile (fun i => !isCollecting (pOp i))).foldl (fun m i => constWrite i m) [],
    stepCmd := some (c.core, c.serial) }

/-- The state in which CSTEP c has opened its step in context n and the head of every item is written. -/
def State.openStep (s : State) (n : Nat) (c : Cmd) : State :=
  let x := (s.ctx n).opening c s.clock.stitch
  x.memoryDests.foldl (fun s d => (List.range (cfItems c.word)).foldl (fun s p =>
    State.writeHead s x d p (State.itemHead s x p Item.fresh 0xFF 0 0 0 0)) s) ((s.setCmd { c with phase := .running }).setCtx n x)

/-- The state in which CSTEP c, the next of context n, has left its queue for it (R253). -/
def State.beginning (s : State) (n : Nat) (c : Cmd) : State :=
  { s with cores := { s.cores with served := fset 31 s.cores.served c.unit c.core } }.setCtx n { s.ctx n with pendingCmd := none }

section Start

variable {s : State} {n : Nat} {x : CtxId} {c : Cmd} {y : Ctx}

theorem execCstepStart_of_open (h : (s.ctx x).state = ctxOpen) : exec (.cstepStart x) s = .next s :=
  State.ends_self (if_pos (by simp [h]))

theorem execCstepStart_of_next (hd : (s.ctx x).declared = true) (hidle : (s.ctx x).state = ctxIdle) (hstep : (s.ctx x).stepCmd = none)
    (hnext : s.nextStep x = some c) : exec (.cstepStart x) s = s.ends ((s.beginning x c).startStep x c) := by
  show execCstepStart x s = _
  unfold execCstepStart
  dsimp only
  rw [if_neg (by rw [hidle, hstep, hd]; decide), hnext]
  rfl

theorem State.startStep_of_expected (hidle : (s.ctx n).state = ctxIdle) (hitems : cfItems c.word ≠ 0)
    (hseq : c.values.headD 0 = (s.ctx n).expected) (hmember : (s.ctx n).memberFailed = false) :
    s.startStep n c = ((s.openStep n c).absorbLead n).settle none := by
  unfold State.startStep
  extract_lets y items seq allFail c1 s1 z s2 s3
  rw [if_neg (by rw [hidle]; decide), if_neg hitems, if_neg (fun h => h hseq),
    if_neg (by rw [show z.memberFailed = false from hmember]; decide)]
  rfl

/-- The step is open in its context, with no item begun. -/
theorem State.openStep_becomes (hwf : fwf Ctx.reset s.ctxs = true) (n : Nat) (c : Cmd) :
    CtxBecomes n ((s.ctx n).opening c s.clock.stitch) (s.setCmd { c with phase := .running }) (s.openStep n c) := by
  have hset : CtxBecomes n ((s.ctx n).opening c s.clock.stitch) (s.setCmd { c with phase := .running })
    ((s.setCmd { c with phase := .running }).setCtx n ((s.ctx n).opening c s.clock.stitch)) :=
    .setCtx (s := s.setCmd { c with phase := .running }) hwf _
  exact hset.move (.foldl (fun v _ => .foldl (fun u _ => (u.writeMem_leavesOnly _ _ _).move) _ v) _ _)

theorem Ctx.opening_waits (y : Ctx) (hitems : cfItems c.word ≠ 0) (now : Nat) : (y.opening c now).Waits :=
  .inr ⟨fun _ _ h => absurd h Bool.false_ne_true, 0, Nat.pos_of_ne_zero hitems, rfl⟩

/-- Without a fragment held for its sequence a step takes none as it opens. -/
theorem State.absorbLead_of_other_sequences (h : ∀ l ∈ (s.ctx n).lead, l.sequence ≠ (s.ctx n).sequence) : s.absorbLead n = s := by
  have hnone : (s.ctx n).lead.filter (fun l => l.sequence == (s.ctx n).sequence) = [] :=
    List.filter_eq_nil_iff.2 fun l hl => by simpa using h l hl
  rw [State.absorbLead, hnone]
  rfl

theorem State.beginning_becomes (hwf : fwf Ctx.reset s.ctxs = true) (n : Nat) (c : Cmd) :
    CtxBecomes n { s.ctx n with pendingCmd := none } { s with cores := { s.cores with served := fset 31 s.cores.served c.unit c.core } }
      (s.beginning n c) :=
  .setCtx (s := { s with cores := { s.cores with served := fset 31 s.cores.served c.unit c.core } }) hwf _

end Start

/-- CSTEP c opens its step, with nothing held for it (R217). -/
theorem cstepStart_opens {s : State} {x : CtxId} {c : Cmd} {y : Ctx} (hwf : fwf Ctx.reset s.ctxs = true) (hy : y = s.ctx x)
    (hstill : Still s) (hd : y.declared = true) (hidle : y.state = ctxIdle) (hmember : y.memberFailed = false)
    (hnext : s.nextStep x = some c) (hseq : c.values.headD 0 = y.expected) (hitems : cfItems c.word ≠ 0)
    (hlead : ∀ l ∈ y.lead, l.sequence ≠ y.expected) : ∃ t,
    exec (.cstepStart x) s = .next t ∧ t.ctx x = Ctx.opening { y with pendingCmd := none } c s.clock.stitch ∧
      (∀ z, z ≠ x.val → t.ctx z = s.ctx z) ∧
      (∀ k ∈ t.cores.cmds, k.core = c.core → k.serial = c.serial → k.phase = .running) ∧
      t.cores.cores = s.cores.cores ∧ t.clock = s.clock := by
  subst hy
  have hstep := State.stepCmd_of_still hstill
  have hbegun := State.beginning_becomes hwf x c
  have hopened := (s.beginning x c).openStep_becomes hbegun.wf x c
  rw [hbegun.self] at hopened
  have hlead' : ((s.beginning x c).openStep x c).absorbLead x = (s.beginning x c).openStep x c := by
    refine State.absorbLead_of_other_sequences ?_
    rw [hopened.self]
    show ∀ l ∈ (s.ctx x).lead, l.sequence ≠ c.values.headD 0
    rw [hseq]
    exact hlead
  have hsettle := hopened.settle (Ctx.opening_waits _ hitems _) fun k hk => by
    show ((s.beginning x c).ctx k).stepCmd = none
    rw [hbegun.others k hk]
    exact hstep k
  have hstart := State.startStep_of_expected (s := s.beginning x c) (n := x) (c := c) (by rw [hbegun.self]; exact hidle) hitems
    (by rw [hbegun.self]; exact hseq) (by rw [hbegun.self]; exact hmember)
  rw [hlead', hsettle] at hstart
  refine ⟨_, (execCstepStart_of_next hd hidle (hstep x) hnext).trans (congrArg s.ends hstart), hopened.self,
    fun z hz => (hopened.others z hz).trans (hbegun.others z hz), fun k hk hcore hserial => ?_, ?_, hopened.clock⟩
  rotate_left
  · show ((s.beginning x c).openStep x c).cores.cores = s.cores.cores
    rw [hopened.cores]
    rfl
  replace hk : k ∈ ((s.beginning x c).openStep x c).cores.cmds := hk
  rw [hopened.cores] at hk
  rw [State.eq_of_mem_setCmd (c := { c with phase := .running }) hk hcore hserial]

/-! ### The step that does not open -/

/-- In no pair, the end of a step changes no context and not the clock. -/
theorem State.finishStep_frame {s : State} (hpair : s.pairActive = false) (core serial : Nat) (outs : List (Nat × Nat × Counts × Nat)) :
    (s.finishStep core serial outs).ctxs = s.ctxs ∧ (s.finishStep core serial outs).clock = s.clock := by
  unfold State.finishStep
  split
  · exact ⟨rfl, rfl⟩
  · next k _ =>
    extract_lets r
    have hsame : r.1 = s := by
      refine P_foldl1 (P := (· = s)) rfl fun acc o hacc => ?_
      split
      · rw [State.itemFailed, hacc, State.digest_of_unpaired hpair]
      · rw [State.itemOk, hacc, State.digest_of_unpaired hpair]
    obtain ⟨_, _, hrecords⟩ := r.1.finishCmd_recordsOnly r.2 0 0
    obtain ⟨-, hctxs, hclock, -⟩ := hrecords.frame
    rw [hctxs, hclock, hsame]
    exact ⟨rfl, rfl⟩

/-- A context that holds nothing and runs no step is fenced, and no more. -/
theorem State.fence_of_idle {s : State} {n : Nat} (hwf : fwf Ctx.reset s.ctxs = true) (hlead : (s.ctx n).lead = [])
    (hstep : (s.ctx n).stepCmd = none) : CtxBecomes n { s.ctx n with state := ctxFenced } s (s.fence n) ∧
      (s.fence n).pairActive = s.pairActive := by
  have hdrop : s.dropLead n = s.setCtx n (s.ctx n) := by
    have hself : { s.ctx n with lead := [] } = s.ctx n := by rw [← hlead]
    rw [State.dropLead, hlead]
    exact congrArg (s.setCtx n) hself
  have hset := CtxBecomes.setCtx (n := n) hwf (s.ctx n)
  have hfence : s.fence n = (s.setCtx n (s.ctx n)).setCtx n { s.ctx n with state := ctxFenced } := by
    unfold State.fence
    dsimp only
    rw [hdrop, hset.self, hstep]
    rfl
  rw [hfence]
  exact ⟨hset.trans (.setCtx hset.wf _), rfl⟩

/-- A CSTEP out of its sequence fences its context (R218, R252). -/
theorem cstepStart_fences {s : State} {x : CtxId} {c : Cmd} {y : Ctx} (hwf : fwf Ctx.reset s.ctxs = true) (hy : y = s.ctx x)
    (hd : y.declared = true) (hidle : y.state = ctxIdle) (hstep : y.stepCmd = none) (hnext : s.nextStep x = some c)
    (hseq : c.values.headD 0 ≠ y.expected) (hitems : cfItems c.word ≠ 0) (hlead : y.lead = []) (hpair : s.pairActive = false) : ∃ t,
    exec (.cstepStart x) s = .next t ∧ t.ctx x = { y with pendingCmd := none, state := ctxFenced } ∧
      (∀ z, z ≠ x.val → t.ctx z = s.ctx z) ∧ t.clock = s.clock := by
  subst hy
  have hbegun := State.beginning_becomes hwf x c
  obtain ⟨hfenced, hpaired⟩ := State.fence_of_idle hbegun.wf (by rw [hbegun.self]; exact hlead) (by rw [hbegun.self]; exact hstep)
  obtain ⟨hctxs, hclock⟩ := State.finishStep_frame (hpaired.trans hpair) c.core c.serial
    ((List.range (cfItems c.word)).map (fun p => (p, 7, Counts.zero, 0)))
  have hstart : (s.beginning x c).startStep x c = ((s.beginning x c).fence x).finishStep c.core c.serial
      ((List.range (cfItems c.word)).map (fun p => (p, 7, Counts.zero, 0))) := by
    unfold State.startStep
    extract_lets y items seq allFail
    have hself : y = _ := hbegun.self
    rw [if_neg (by rw [hself]; exact fun h => absurd (hidle.symm.trans h) (by decide)), if_neg hitems, if_pos (by rw [hself]; exact hseq)]
  rw [hbegun.self] at hfenced
  have hctx : ∀ z, (((s.beginning x c).startStep x c).ctx z) = ((s.beginning x c).fence x).ctx z := fun z => by
    rw [hstart, State.ctx, hctxs, State.ctx]
  refine ⟨_, execCstepStart_of_next hd hidle hstep hnext, (hctx x).trans hfenced.self,
    fun z hz => (hctx z).trans ((hfenced.others z hz).trans (hbegun.others z hz)), ?_⟩
  show ((s.beginning x c).startStep x c).clock = s.clock
  rw [hstart, hclock, hfenced.clock]
  rfl

/-! ### The held fragment taken (R251) -/

section Held

variable {s : State} {n p : Nat} {y : Ctx}

/-- Where the window has room an item is opened in it, and leaves alone change besides. -/
theorem State.openItem_of_window (hclosed : ((s.ctx n).item p).opened = false) (hwin : (s.ctx n).openItems < (s.ctx n).win) : ∃ t,
    s.openItem n p = some t ∧ LeadsShrink s t := by
  unfold State.openItem
  dsimp only
  rw [hclosed, if_neg Bool.false_ne_true, if_pos hwin]
  refine ⟨_, rfl, LeadsShrink.trans ?_ (.leaves (State.clearItemLeaves_leavesOnly _ _ _).move)⟩
  exact .update s n rfl

/-- An item set into a context with no items counts as open only once it is opened. -/
theorem Ctx.openItems_setItem_fresh (hitems : y.items = []) {it : Item} (hclosed : it.opened = false) : (y.setItem p it).openItems = 0 := by
  unfold Ctx.openItems Ctx.setItem
  rw [hitems]
  simp only [fset]
  split
  · rfl
  · simp [hclosed]

/-- A contribution to a step with no item begun and room in its window is never left waiting. -/
theorem State.absorb_of_unbegun (hwf : fwf Ctx.reset s.ctxs = true) (hitems : (s.ctx n).items = []) (hwin : (s.ctx n).win ≠ 0)
    (b : Contribution) : ∃ t cause, s.absorb n b = some (t, cause) ∧ LeadsShrink s t := by
  have hfresh : (s.ctx n).item b.position = Item.fresh := by
    rw [Ctx.item, hitems]
    rfl
  unfold State.absorb
  extract_lets y outside it q
  split
  · exact ⟨_, _, rfl, s.fence_leadsShrink n⟩
  · rw [if_neg (by rw [show it = _ from hfresh]; decide)]
    obtain ⟨hread, e, he⟩ : LeavesOnly s q.1 ∧ ∃ e, q.2.1 = { it with elems := e } := by
      show LeavesOnly s (ite _ _ _ : State × Item × Bool).1 ∧ ∃ e, (ite _ _ _ : State × Item × Bool).2.1 = { it with elems := e }
      split
      · exact s.loadStates_spec _ _ _ _
      · exact ⟨.refl s, _, rfl⟩
    have hshrink : LeadsShrink s q.1 := .leaves hread.move
    split
    · exact ⟨_, _, rfl, hshrink.trans (.update _ n rfl)⟩
    · have hset : CtxBecomes n (y.setItem b.position q.2.1) q.1 (q.1.setCtx n (y.setItem b.position q.2.1)) :=
        .setCtx (by rw [hread.move.ctxs]; exact hwf) _
      have hclosed : q.2.1.opened = false := by
        rw [he, show it = _ from hfresh]
        rfl
      have hitem : (y.setItem b.position q.2.1).item b.position = q.2.1 :=
        Ctx.item_setItem_self (by rw [show y.items = [] from hitems]; rfl) _ _
      obtain ⟨t, ht, hopened⟩ := State.openItem_of_window (s := q.1.setCtx n (y.setItem b.position q.2.1)) (n := n) (p := b.position)
        (by rw [hset.self, hitem]; exact hclosed)
        (by rw [hset.self, Ctx.openItems_setItem_fresh hitems hclosed]; exact Nat.pos_of_ne_zero hwin)
      rw [ht]
      exact ⟨_, _, rfl, ((hshrink.setCtx (z := y.setItem b.position q.2.1) (.inl rfl)).trans hopened).trans (t.take_leadsShrink n b)⟩

/-- The one held fragment of a step with no item begun is let go. -/
theorem State.absorbLead_of_single {l : Lead} (hwf : fwf Ctx.reset s.ctxs = true) (hopen : (s.ctx n).state = ctxOpen)
    (hitems : (s.ctx n).items = []) (hwin : (s.ctx n).win ≠ 0) (hlead : (s.ctx n).lead = [l]) (hseq : l.sequence = (s.ctx n).sequence) :
    fwf Ctx.reset (s.absorbLead n).ctxs = true ∧ ((s.absorbLead n).ctx n).lead = [] := by
  have hone : s.absorbLead n = s.absorbOne n l := by
    simp [State.absorbLead, hlead, hseq]
  obtain ⟨v, hv⟩ : ∃ v, v = s.leadContribution (s.ctx n).slice l := ⟨_, rfl⟩
  have hread : LeavesOnly s v.1 := by
    rw [hv]
    exact s.readFrom_leavesOnly _ _ _ _ _ _
  have hctx := hread.move.ctx n
  obtain ⟨t, cause, habs, hshrink⟩ := State.absorb_of_unbegun (s := v.1) (n := n) (by rw [hread.move.ctxs]; exact hwf)
    (by rw [hctx]; exact hitems) (by rw [hctx]; exact hwin) v.2
  have hdone : s.absorbOne n l = (t.setCtx n { t.ctx n with lead := (t.ctx n).lead.erase l }).freeLeaves l.leaves := by
    unfold State.absorbOne
    dsimp only
    rw [if_neg (fun h => h hopen), ← hv, habs]
  obtain ⟨hwft, hheld⟩ := (LeadsShrink.leaves hread.move).trans hshrink hwf
  have hset := CtxBecomes.setCtx hwft (n := n) { t.ctx n with lead := (t.ctx n).lead.erase l }
  have hfreed := hset.move (State.freeLeaves_leavesMove _ l.leaves)
  rw [hone, hdone]
  refine ⟨hfreed.wf, ?_⟩
  rw [hfreed.self]
  show (t.ctx n).lead.erase l = []
  obtain h | h := hheld n
  · rw [h, hlead]
    simp
  · rw [h]
    rfl

end Held

/-- A CSTEP that finds one fragment held for its step lets it go (R251). -/
theorem cstepStart_takes {s : State} {x : CtxId} {c : Cmd} {y : Ctx} {l : Lead} (hwf : fwf Ctx.reset s.ctxs = true) (hy : y = s.ctx x)
    (hstill : Still s) (hd : y.declared = true) (hidle : y.state = ctxIdle) (hmember : y.memberFailed = false)
    (hnext : s.nextStep x = some c) (hseq : c.values.headD 0 = y.expected) (hitems : cfItems c.word ≠ 0) (hlead : y.lead = [l])
    (hheld : l.sequence = y.expected) (hwin : y.win ≠ 0) : ∃ t, exec (.cstepStart x) s = .next t ∧ (t.ctx x).lead = [] := by
  subst hy
  have hbegun := State.beginning_becomes hwf x c
  have hopened := (s.beginning x c).openStep_becomes hbegun.wf x c
  rw [hbegun.self] at hopened
  obtain ⟨hwfl, htaken⟩ := State.absorbLead_of_single (s := (s.beginning x c).openStep x c) (n := x) (l := l) hopened.wf
    (by rw [hopened.self]; rfl) (by rw [hopened.self]; rfl) (by rw [hopened.self]; exact hwin) (by rw [hopened.self]; exact hlead)
    (by rw [hopened.self]; exact hheld.trans hseq.symm)
  obtain ⟨-, hsettled⟩ := State.settle_leadsShrink (((s.beginning x c).openStep x c).absorbLead x) none hwfl
  refine ⟨_, execCstepStart_of_next hd hidle (State.stepCmd_of_still hstill x) hnext, ?_⟩
  show (((s.beginning x c).startStep x c).ctx x).lead = []
  rw [State.startStep_of_expected (by rw [hbegun.self]; exact hidle) hitems (by rw [hbegun.self]; exact hseq)
    (by rw [hbegun.self]; exact hmember)]
  exact (hsettled x).elim (·.trans htaken) id

end Sys2Proof.Machine
end

section
/-!
SUPPORT. STEP_DEADLINE: a step that is still open closes, with its member failed and named (R255 to R257, R259, R260).
-/
namespace Sys2Proof.Machine

open Sys2Proof

/-! ### A finished command and the Collator's entries of the Index -/

/-- From s to t the entries of the Collator, 0x6000 to 0x6FFF, stand. -/
def EntriesStand (s t : State) : Prop :=
  ∀ i sub, ikey 0x6000 0 ≤ ikey i sub → ikey i sub < ikey 0x7000 0 → t.idx i sub = s.idx i sub

namespace EntriesStand

variable {s t u : State}

theorem of_index (h : t.index = s.index) : EntriesStand s t := fun i sub _ _ => by rw [State.idx, h, State.idx]

theorem refl (s : State) : EntriesStand s s := of_index rfl

theorem trans (h : EntriesStand s t) (k : EntriesStand t u) : EntriesStand s u := fun i sub hlo hhi =>
  (k i sub hlo hhi).trans (h i sub hlo hhi)

theorem of_touches (h : Touches s t) : EntriesStand s t := fun i sub _ hhi => h.idx i sub (.inl hhi)

theorem idxBump (s : State) {j k : Nat} (hk : ikey j k < ikey 0x6000 0) (hi lo n : Nat) : EntriesStand s (s.idxBump j k hi lo n) :=
  fun _ _ hlo _ => State.idx_idxSet_ne _ _ (by omega)

theorem colophonFlag (s : State) (n : Nat) : EntriesStand s (s.colophonFlag n) := by
  obtain ⟨f, hf, -⟩ := s.colophonFlag_spec n
  rw [hf]
  exact .refl _

theorem add (h : EntriesStand s t) (off n : Nat) : EntriesStand s (t.colophonAdd off n) := h

theorem recordDone (s : State) (core serial unit : Nat) (summary : Bool) : EntriesStand s (s.recordDone core serial unit summary) :=
  P_ite (P := EntriesStand s) (.of_index rfl) (.refl s)

theorem pushRecord (s : State) (core serial unit : Nat) (summary : Bool) (bs : Bytes) :
    EntriesStand s (s.pushRecord core serial unit summary bs) := P_ite (P := EntriesStand s) (recordDone s _ _ _ _) (.of_index rfl)

theorem writeRecord (s : State) (core : Nat) : EntriesStand s (s.writeRecord core) := by
  have hcross : ∀ x, EntriesStand s (s.crosses.2.setCore core x) := fun _ => (of_touches s.crosses_touches).trans (.of_index rfl)
  unfold State.writeRecord
  dsimp only
  split
  · exact .refl s
  · refine P_ite (P := EntriesStand s) (.refl s) (P_ite (P := EntriesStand s) ((hcross _).trans (recordDone _ _ _ _ _)) ?_)
    exact (((hcross _).trans (.of_touches (State.writeMem_touches _ _ _ _))).trans (.of_touches (State.writeMem_touches _ _ _ _))).trans
      (recordDone _ _ _ _ _)

theorem writeRecords (s : State) (core n : Nat) : EntriesStand s (s.writeRecords core n) := by
  induction n generalizing s with
  | zero => exact .refl s
  | succ n ih => exact (writeRecord s core).trans (ih _)

theorem finishCmd (s : State) (c : Cmd) {status : Nat} (hstatus : status ≠ 2) (cause : Nat) :
    EntriesStand s (s.finishCmd c status cause) := by
  unfold State.finishCmd
  extract_lets failed st ca squashed n skipped audited missed done s0 s1 s2 s3 t1 t2 t3 t4 t5 t6 t7 t8 t9 t10
  have hitems : EntriesStand s s1 := P_foldl (P := EntriesStand s) (.of_index rfl) fun t f ht => ht.trans (pushRecord t _ _ _ _ _)
  have hwritten : EntriesStand s s3 := (hitems.trans (pushRecord s1 _ _ _ _ _)).trans (writeRecords s2 _ _)
  clear_value s3
  have htotals : EntriesStand s t8 := (((((((hwritten.add _ _).add _ _).add _ _).add _ _).add _ _).add _ _).add _ _).add _ _
  clear_value t8
  have hcounts : EntriesStand t8 t9 :=
    ((idxBump t8 (by decide) _ _ _).trans (idxBump _ (by decide) _ _ _)).trans (idxBump _ (by decide) _ _ _)
  have hflag : EntriesStand t9 t10 := P_ite (P := EntriesStand t9) (colophonFlag t9 23) (.refl t9)
  have hdone : squashed = false := by
    show (ite _ _ _ == 2) = false
    split
    · exact beq_false_of_ne hstatus
    · rfl
  rw [if_neg (by rw [hdone]; exact Bool.false_ne_true)]
  exact (htotals.trans hcounts).trans hflag

end EntriesStand

/-! ### The member that is named (R256) -/

/-- In v context n stands as x and is the only one, its entry of the named member is e, and the cores, the binding, the pair and the clock
are those of s. -/
structure Named (n e : Nat) (x : Ctx) (s v : State) : Prop extends OnlyCtx n x s v where
  clock : v.clock = s.clock
  entry : v.idx (0x6150 + n / 256) (n % 256) = e

/-- The member that a deadline names (R256). -/
def Ctx.overdueMember (y : Ctx) : Nat :=
  if y.sealed then (match y.members.find? (fun m => (y.finishOf m.address).isNone) with
    | some m => m.address
    | none => (y.latest.map (·.1)).getD 0) else 0

/-- The entry that names a failed member (R256). -/
def overdueEntry (a : Nat) : Nat := a * 2 ^ 48 + 2 ^ 47 + (2 ^ 32 - 1)

/-- A program without an EMIT emits nothing (R233). -/
theorem Ctx.emptyEmits_of_none {x : Ctx} (h : ∀ i ∈ x.program, pOp i ≠ 0x0D) : x.emptyEmits = [] := by
  have hfilter : x.program.filter (fun i => pOp i == 0x0D) = [] := List.filter_eq_nil_iff.2 fun i hi => by simpa using h i hi
  simp [Ctx.emptyEmits, hfilter]

namespace Named

variable {n e : Nat} {x z : Ctx} {s v w : State}

theorem setCtx (h : Named n e x s v) (hz : z.declared = true) : Named n e z s (v.setCtx n z) :=
  ⟨h.toOnlyCtx.setCtx hz, h.clock, h.entry⟩

theorem touches (hn : n < 4096) (h : Named n e x s v) (ht : Touches v w) : Named n e x s w :=
  ⟨h.toOnlyCtx.touches ht, ht.clock.trans h.clock, (ht.idx _ _ (.inl (by unfold ikey; omega))).trans h.entry⟩

variable (hd : x.declared = true)
include hd

theorem markLaggard (hn : n < 4096) (h : Named n e x s v) (a : Nat) : ∃ ms, Named n e { x with members := ms } s (v.markLaggard n a) := by
  have hset : ∀ ms, Named n e { x with members := ms } s (v.setCtx n { x with members := ms }) := fun ms => h.setCtx hd
  unfold State.markLaggard
  rw [h.ctx]
  dsimp only
  split
  · exact ⟨_, h⟩
  · split
    · exact ⟨_, h⟩
    · split
      · obtain ⟨⟨hctxs, hcores, hbinding, hrole⟩, hclock, hentry⟩ := hset _
        exact ⟨_, ⟨hctxs, hcores, hbinding, hrole⟩, hclock, hentry⟩
      · obtain ⟨⟨hctxs, hcores, hbinding, hrole⟩, hclock, hentry⟩ := hset _
        exact ⟨_, ⟨hctxs, hcores, hbinding, (State.idx_idxSet_ne _ _ (by decide)).trans hrole⟩, hclock,
          (State.idx_idxSet_ne _ _ (by unfold ikey; omega)).trans hentry⟩

theorem windows (hn : n < 4096) (h : Named n e x s v) (one : Option Nat) (f : Member → Member) :
    ∃ ms, Named n e { x with members := ms } s (v.windows n one f) := by
  unfold State.windows
  rw [h.ctx]
  refine P_foldl (P := fun t => ∃ ms, Named n e { x with members := ms } s t) ⟨_, h.setCtx hd⟩ fun t m ⟨ms, ht⟩ => ?_
  exact ht.markLaggard (x := { x with members := ms }) hd hn m.address

omit hd in
/-- A deadline names a member, in a sealed roster with a mark in its window. -/
theorem of_nameFailed (hd : x.declared = true) (hn : n < 4096) (hindex : indexWf s.index = true) (hctxs : s.ctxs = [(n, x)]) :
    ∃ ms, Named n (overdueEntry x.overdueMember) { x with members := ms } s (s.nameFailed n) := by
  have honly : OnlyCtx n x s s := ⟨hctxs, rfl, rfl, rfl⟩
  have hset : Named n (overdueEntry x.overdueMember) x s
      (s.idxSet (0x6150 + n / 256) (n % 256) (overdueEntry x.overdueMember)) :=
    ⟨⟨hctxs, rfl, rfl, State.idx_idxSet_ne _ _ (by unfold ikey; omega)⟩, rfl, State.idx_idxSet_self hindex _ _ _⟩
  unfold State.nameFailed
  rw [honly.ctx]
  extract_lets y a s1
  have ha : a = x.overdueMember := by
    show ite _ _ _ = ite _ _ _
    by_cases hsealed : x.sealed = true
    · rw [if_neg (by rw [show y.sealed = true from hsealed]; decide), if_pos hsealed]
      split
      · next m hm => rw [show x.members.find? (fun m => (x.finishOf m.address).isNone) = some m from hm]
      · next hm =>
        rw [show x.members.find? (fun m => (x.finishOf m.address).isNone) = none from hm, show y.latest = x.latest from rfl]
        cases x.latest <;> rfl
    · rw [if_pos (by rw [show y.sealed = false from Bool.eq_false_of_not_eq_true hsealed]; rfl), if_neg hsealed]
  have hnamed : Named n (overdueEntry x.overdueMember) x s s1 := by
    rw [← ha] at hset ⊢
    exact hset
  split
  · exact hnamed.windows hd hn _ _
  · exact ⟨_, hnamed⟩

/-! ### The item that fails and is emitted (R217, R235) -/

/-- Without an EMIT the one unfinished item of a step fails as it stands. -/
theorem failRest (h : Named n e x s v) (hcount : x.count = 1) (hopen : (x.item 0).finished = false) (hripe : (x.item 0).ripe = false)
    (hstruck : (x.item 0).struck = none) (hemits : ∀ i ∈ x.program, pOp i ≠ 0x0D) (cause : Nat) :
    Named n e (x.setItem 0 ((x.item 0).broken cause)) s (v.failRest n cause) := by
  have hnone := Ctx.emptyEmits_of_none hemits
  have hend : v.endItem n 0 cause = v.failItem n 0 cause := by simp [State.endItem, h.ctx, hopen, hripe, hstruck]
  have hfail : v.failRest n cause = v.setCtx n (x.setItem 0 ((x.item 0).broken cause)) := by
    have hone : v.failRest n cause = v.endItem n 0 cause := by
      rw [State.failRest, h.ctx, hcount]
      rfl
    simp only [hone, hend, State.failItem, State.markItem, State.emitAll, h.ctx, hopen, hnone, List.foldl_nil, List.length_nil,
      List.range_zero, Bool.false_eq_true, if_false]
    rfl
  rw [hfail]
  exact h.setCtx hd

theorem closeItem (hn : n < 4096) (h : Named n e x s v) (p : Nat) : ∃ r,
    Named n e { x.setItem p { x.item p with leaves := [] } with reserve := r } s (v.closeItem n p) := by
  unfold State.closeItem
  rw [h.ctx]
  dsimp only
  split
  · exact ⟨_, (h.touches hn (v.freeLeaves_touches _)).setCtx (z := x.setItem p { x.item p with leaves := [] }) hd⟩
  · exact ⟨_, h.setCtx hd⟩

end Named

/-! ### The step that closes (R249, R256, R257) -/

/-- What the close of its step at the deadline makes of a context. -/
def Ctx.overdue (x : Ctx) : Ctx :=
  { x with
    state := ctxIdle, expected := (x.sequence + 1) % 2 ^ 32, unclean := true, memberFailed := true, cursor := 0, items := [], count := 0,
    finishes := [], stepCmd := none, lead := [] }

/-- From s the step of context n, which command k opened, has closed at its deadline, and its context stands as z. -/
structure Overdue (n e : Nat) (z : Ctx) (k : Cmd) (s t : State) : Prop where
  ctxs : t.ctxs = [(n, z)]
  clock : t.clock = s.clock
  entry : t.idx (0x6150 + n / 256) (n % 256) = e
  gone : t.cmd k.core k.serial = none

section Close

variable {n e : Nat} {x : Ctx} {k : Cmd} {s v : State}

theorem Named.recordStep (h : Named n e x s v) (hd : x.declared = true) (hopen : x.state = ctxOpen) (hlead : x.lead = []) :
    Named n e x.overdue s (v.recordStep n true false true) := by
  unfold State.recordStep
  extract_lets y s1 s2 z s3
  have hy : y = x := h.ctx
  have hseal : Named n e x s s1 := by
    have hself : y.seal (false && !y.earlyK) = x := by
      rw [hy]
      rfl
    show Named n e x s (v.setCtx n (y.seal (false && !y.earlyK)))
    rw [hself]
    exact h.setCtx hd
  have hz : z = x := hseal.ctx
  have hrecord : Named n e x.overdue s s3 := by
    have hclosed : { z with
        state := if z.state = ctxFenced then ctxFenced else ctxIdle, expected := (y.sequence + 1) % 2 ^ 32,
        unclean := !false || y.earlyK || z.state == ctxFenced, memberFailed := z.memberFailed || true, cursor := 0, items := [], count := 0,
        finishes := [], stepCmd := none } = x.overdue := by
      rw [hz, hy, if_neg (by rw [hopen]; decide), Bool.or_true, Ctx.overdue, hlead]
      rfl
    show Named n e x.overdue s (s1.setCtx n _)
    rw [hclosed]
    exact hseal.setCtx hd
  have hdrop : s3.dropLead n = s3.setCtx n x.overdue := by
    rw [State.dropLead, hrecord.ctx]
    show s3.setCtx n { s3.ctx n with lead := [] } = _
    rw [hrecord.ctx]
    rfl
  rw [if_pos rfl, hdrop]
  exact hrecord.setCtx hd

variable (hreleasing : s.binding.releasing = false) (hcmd : s.cmd k.core k.serial = some k) (hring : (s.core k.core).Ringless)
  (hpair : s.idx 0x8010 0 = 0)
include hreleasing hcmd hring hpair

/-- A step that closes with its one item failed by the deadline completes its command (R184, R249). -/
theorem Named.closeStep (hn : n < 4096) (h : Named n e x s v) (hd : x.declared = true) (hopen : x.state = ctxOpen)
    (hstep : x.stepCmd = some (k.core, k.serial)) (hcount : x.count = 1) (hlead : x.lead = []) (hfailed : (x.item 0).outcome = 9) :
    Overdue n e x.overdue k s (v.closeStep n true) := by
  have hrecord := h.recordStep hd hopen hlead
  have hunpaired : (v.recordStep n true false true).pairActive = false := by simp [State.pairActive, hrecord.role, hpair]
  have hfind : (v.recordStep n true false true).cmd k.core k.serial = some k := by
    rw [State.cmd, hrecord.cores]
    exact hcmd
  have hringless : ((v.recordStep n true false true).core k.core).Ringless := by
    rw [State.core, hrecord.cores]
    exact hring
  have hclose : v.closeStep n true = (v.recordStep n true false true).finishStep k.core k.serial
      [(0, 9, (x.item 0).counts, (x.item 0).check)] := by
    have hone : List.range 1 = [0] := rfl
    simp only [State.closeStep, h.ctx, hstep, hcount, hone, h.binding, hreleasing, hfailed, Bool.false_and, Bool.false_eq_true, if_false,
      List.map_cons, List.map_nil]
    rfl
  rw [hclose, State.finishStep_of_one_failed hunpaired hfind (by decide)]
  obtain ⟨hrecords, -⟩ := State.finishCmd_leaves (c := k.failing 0 9 (x.item 0).counts) hringless 0 0
  obtain ⟨-, hctxs, hclock, -⟩ := hrecords.frame
  have hentries := EntriesStand.finishCmd (v.recordStep n true false true) (k.failing 0 9 (x.item 0).counts) (status := 0) (by decide) 0
  exact ⟨hctxs.trans hrecord.ctxs, hclock.trans hrecord.clock,
    (hentries _ _ (by unfold ikey; omega) (by unfold ikey; omega)).trans hrecord.entry, State.cmd_of_freed hrecords⟩

/-- The one item of an open step, once failed by the deadline, is emitted at once, and its step closes (R217). -/
theorem Named.settleCtx (hn : n < 4096) (h : Named n e x s v) (hd : x.declared = true) (hopen : x.state = ctxOpen)
    (hstep : x.stepCmd = some (k.core, k.serial)) (hcount : x.count = 1) (hlead : x.lead = []) (hfinished : (x.item 0).finished = true)
    (hfailed : (x.item 0).outcome = 9) (hemitted : (x.item 0).emitted = false) (hsent : (x.item 0).outstanding = 0) :
    ∃ r, Overdue n e { x.overdue with reserve := r } k s (v.settleCtx n true) := by
  obtain ⟨r, hclosed⟩ := h.closeItem hd hn 0
  generalize hz : { x.setItem 0 { x.item 0 with leaves := [] } with reserve := r } = z at hclosed
  have hitem : z.item 0 = { x.item 0 with leaves := [] } := by
    rw [← hz]
    exact x.item_setItem 0 (it := { x.item 0 with leaves := [] }) hfinished
  have hlast : (z.setItem 0 { z.item 0 with emitted := true }).item 0 = { z.item 0 with emitted := true } :=
    z.item_setItem 0 (it := { z.item 0 with emitted := true }) (by rw [hitem]; exact hfinished)
  have hdone : Named n e (z.setItem 0 { z.item 0 with emitted := true }) s
      ((v.closeItem n 0).setCtx n (z.setItem 0 { z.item 0 with emitted := true })) := hclosed.setCtx (by rw [← hz]; exact hd)
  have hsettle : v.settleCtx n true =
      ((v.closeItem n 0).setCtx n (z.setItem 0 { z.item 0 with emitted := true })).closeStep n true := by
    have hone : List.range 1 = [0] := rfl
    simp only [State.settleCtx, h.ctx, hstep, hcount, hone, hfinished, hemitted, hsent, hclosed.ctx, hdone.ctx, hlast, Option.isNone_some,
      List.foldl_cons, List.foldl_nil, List.all_cons, List.all_nil, Bool.false_eq_true, if_false, if_true, decide_true,
      Bool.not_false, Bool.and_true]
  rw [hsettle]
  refine ⟨r, ?_⟩
  have hover : (z.setItem 0 { z.item 0 with emitted := true }).overdue = { x.overdue with reserve := r } := by
    rw [← hz]
    rfl
  rw [← hover]
  refine hdone.closeStep hreleasing hcmd hring hpair hn ?_ ?_ ?_ ?_ ?_ (by rw [hlast, hitem]; exact hfailed)
  all_goals
    rw [← hz]
    assumption

end Close

/-! ### The command -/

/-- A deadline that is not due, or finds no open step, changes nothing. -/
theorem execStepDeadline_of_not_due {s : State} {x : CtxId}
    (h : s.idx (0x6140 + x.val / 256) (x.val % 256) = 0 ∨ (s.ctx x).state ≠ ctxOpen ∨
      s.clock.stitch < (s.ctx x).started + s.idx (0x6140 + x.val / 256) (x.val % 256)) : exec (.stepDeadline x) s = .next s := by
  refine State.ends_self (if_pos ?_)
  obtain h | h | h := h <;> simp [h]

/-- The deadline of the one open step fails its unfinished item, names the member and closes the step. -/
theorem stepDeadline_closes {s : State} {x : CtxId} {y : Ctx} {c : Cmd} {d : Nat} (hindex : indexWf s.index = true) (hlone : Lone x y c s)
    (hreleasing : s.binding.releasing = false) (hd : d = s.idx (0x6140 + x.val / 256) (x.val % 256)) (hset : d ≠ 0)
    (hdue : y.started + d ≤ s.clock.stitch) : ∃ t ms r, exec (.stepDeadline x) s = .next t ∧
      Overdue x (overdueEntry y.overdueMember) { y.overdue with members := ms, reserve := r } c s t := by
  obtain ⟨hctxs, hdecl, hopen, hstep, hcount, hfin, hemitted, hripe, hstruck, hsent, hemits, hlead, hcmd, -, hsize, hrecords, hpair⟩ :=
    hlone
  have hrole : s.idx 0x8010 0 = 0 := by simpa [State.paired] using hpair
  have hctx : s.ctx x = y := by
    rw [State.ctx, hctxs]
    exact if_pos rfl
  obtain ⟨ms, hnamed⟩ := Named.of_nameFailed hdecl x.isLt hindex hctxs
  have hbroken := hnamed.failRest (x := { y with members := ms }) hdecl hcount hfin hripe hstruck hemits 9
  have hitem : (y.setItem 0 ((y.item 0).broken 9)).item 0 = (y.item 0).broken 9 := y.item_setItem 0 rfl
  obtain ⟨r, hclosed⟩ := hbroken.settleCtx hreleasing hcmd ⟨hsize, hrecords⟩ hrole x.isLt hdecl hopen hstep hcount hlead
    (congrArg Item.finished hitem) (congrArg Item.outcome hitem) ((congrArg Item.emitted hitem).trans hemitted)
    ((congrArg Item.outstanding hitem).trans hsent)
  have hexec : exec (.stepDeadline x) s = s.ends (((s.nameFailed x).failRest x 9).settleCtx x true) := by
    have hsettle : ((s.nameFailed x).failRest x 9).settle (some x.val) = ((s.nameFailed x).failRest x 9).settleCtx x true := by
      simp only [State.settle, hbroken.ctxs, List.foldl_cons, List.foldl_nil, beq_self_eq_true]
    show execStepDeadline x s = _
    unfold execStepDeadline
    dsimp only
    rw [hctx, ← hd, hsettle, if_neg]
    simp [hset, hopen, hstep, hcount, hfin, Nat.not_lt.2 hdue]
  obtain ⟨hctxs', hclock, hentry, hgone⟩ := hclosed
  exact ⟨_, ms, r, hexec, hctxs', hclock, hentry, hgone⟩

end Sys2Proof.Machine
end

section
/-!
SUPPORT. The settlement of O55 from the commands of the Collator (R213 to R217, R240, R250, R251, R255, R256).
-/
namespace Sys2Proof.Machine

open Sys2Proof

/-! ### FRAGMENT_ARRIVE (R250, R251) -/

section Arrive

variable {s u : State} {x : CtxId} {y : Ctx} {q : QuireId} {f : Frame} (hc : Canonical s) (hy : y = s.ctx x)
  (hfind : s.switch.fragments.find? (fun e => e.1 == q.val) = some (q.val, f))
  (hu : u = { s with switch := { s.switch with fragments := s.switch.fragments.erase (q.val, f) } })
include hc hfind hu

theorem fragmentArrive_drops (hstill : Still s) (hgroup : s.groupCtx f.group = none) : ∃ t, exec (.fragmentArrive q) s = .next t ∧
    t.switch.fragments = u.switch.fragments ∧
      bits (t.idx 0x6007 0) 63 0 = min (bits (s.idx 0x6007 0) 63 0 + 1) (2 ^ 64 - 1) ∧ t.ctxs = s.ctxs ∧ t.cores = s.cores := by
  have hexec := execFragmentArrive_of_some hfind hu
  obtain ⟨t, ht, hfrags, hcount, hctxs, hcores⟩ := State.settle_takeOrHold_of_no_group (u := u) (q := q)
    (by rw [hu]; exact storesWf_of_canonical hc) (by rw [hu]; exact hstill) (by rw [hu]; exact hgroup)
  rw [ht] at hexec
  subst hu
  exact ⟨_, hexec, hfrags, hcount, hctxs, hcores⟩

include hy

theorem fragmentArrive_drops_late (hstill : Still s) (hgroup : s.groupCtx f.group = some x.val) (hfenced : y.state = ctxFenced) : ∃ t,
    exec (.fragmentArrive q) s = .next t ∧ t.switch.fragments = u.switch.fragments ∧
      bits (t.idx (0x6120 + x.val / 256) (x.val % 256)) 63 32 =
        min (bits (s.idx (0x6120 + x.val / 256) (x.val % 256)) 63 32 + 1) (2 ^ 32 - 1) ∧ t.ctxs = s.ctxs ∧ t.cores = s.cores := by
  have hexec := execFragmentArrive_of_some hfind hu
  obtain ⟨t, ht, hfrags, hcount, hctxs, hcores⟩ := State.settle_takeOrHold_of_fenced (u := u) (x := x) (q := q)
    (by rw [hu]; exact storesWf_of_canonical hc) (by rw [hu]; exact hstill) (by rw [hu]; exact hgroup)
    (by rw [hu]; exact (congrArg Ctx.state hy).symm.trans hfenced)
  rw [ht] at hexec
  subst hu
  exact ⟨_, hexec, hfrags, hcount, hctxs, hcores⟩

theorem fragmentArrive_holds {k : Nat} (hstill : Still s) (hahead : Ahead x y q f k u) : ∃ t hs, exec (.fragmentArrive q) s = .next t ∧
    t.switch.fragments = u.switch.fragments ∧ hs.length = k ∧ t.ctx x = { y with lead := y.lead ++ [leadOf q f hs u] } ∧
      (∀ z, z ≠ x.val → t.ctx z = s.ctx z) ∧ t.switch.stalled = s.switch.stalled ∧ t.cores = s.cores := by
  obtain ⟨-, -, hwf, -⟩ := hc
  have hexec := execFragmentArrive_of_some hfind hu
  obtain ⟨t, hs, ht, hlen, hbecomes⟩ :=
    State.settle_takeOrHold_of_ahead (u := u) (by rw [hu]; exact hwf) (by rw [hu]; exact hstill) hahead (by rw [hu, hy]; rfl)
  rw [ht] at hexec
  subst hu
  exact ⟨_, hs, hexec, hbecomes.fragments, hlen, hbecomes.self, hbecomes.others, hbecomes.stalled, hbecomes.cores⟩

theorem fragmentArrive_absorbs {v : State} {b : Contribution} {it : Item} (hstill : StillBut x s) (hontime : OnTime x y q f b u)
    (hv : v = (u.readFragment q f).1)
    (hit : it = (if y.keepsStates then v.loadStates (0x80 + y.slice) (y.item b.position) b.offset b.count
      else (v, y.item b.position, false)).2.1)
    (hsound : y.keepsStates = true → (v.loadStates (0x80 + y.slice) (y.item b.position) b.offset b.count).2.2 = false)
    (hopened : (y.item b.position).opened = true) (hadds : Adds y it b s.now) : ∃ t, exec (.fragmentArrive q) s = .next t ∧
      t.switch.fragments = u.switch.fragments ∧ t.ctx x = y.taken (y.absorbInto it b s.now) b ∧
      (∀ z, z ≠ x.val → t.ctx z = s.ctx z) ∧ t.switch.stalled = s.switch.stalled ∧ t.cores = s.cores := by
  obtain ⟨-, -, hwf, -⟩ := hc
  have hexec := execFragmentArrive_of_some hfind hu
  have hnow : u.now = s.now := by
    rw [hu]
    rfl
  rw [← hnow] at hadds ⊢
  obtain ⟨t, ht, hbecomes⟩ := State.settle_takeOrHold_of_opened (u := u) (by rw [hu]; exact hstill) hontime (by rw [hu, hy]; rfl)
    (by rw [hu]; exact hwf) hv hit hsound hopened hadds
  rw [ht] at hexec
  subst hu
  exact ⟨_, hexec, hbecomes.fragments, hbecomes.self, hbecomes.others, hbecomes.stalled, hbecomes.cores⟩

end Arrive

/-! ### LEAD_RETRY and SPILL_RETRY (R240, R251) -/

section Retry

variable {s u : State} {x : CtxId} {y : Ctx} {q : QuireId} {f : Frame} (hc : Canonical s) (hy : y = s.ctx x)
  (hu : u = { s with switch := { s.switch with stalled := [] } })
include hc hy hu

theorem leadRetry_holds {k : Nat} (hstalled : s.switch.stalled = [(q.val, true, f)]) (hstill : Still s) (hahead : Ahead x y q f k u) :
    ∃ t hs, exec (.leadRetry q) s = .next t ∧ t.switch.stalled = [] ∧ hs.length = k ∧
      t.ctx x = { y with lead := y.lead ++ [leadOf q f hs u] } ∧ (∀ z, z ≠ x.val → t.ctx z = s.ctx z) ∧ t.cores = s.cores := by
  obtain ⟨-, -, hwf, -⟩ := hc
  have hretry := State.retryStalled_of_single (fun h => absurd h (by decide)) hstalled hu
  obtain ⟨t, hs, ht, hlen, hbecomes⟩ :=
    State.settle_takeOrHold_of_ahead (u := u) (by rw [hu]; exact hwf) (by rw [hu]; exact hstill) hahead (by rw [hu, hy]; rfl)
  subst hu
  exact ⟨_, hs, congrArg s.ends (hretry.trans ht), hbecomes.stalled, hlen, hbecomes.self, hbecomes.others, hbecomes.cores⟩

theorem spillRetry_absorbs {b : Contribution} (hstalled : s.switch.stalled = [(q.val, false, f)]) (hstill : StillBut x s)
    (hleads : ∀ e ∈ s.ctxs, e.2.lead = []) (hontime : OnTime x y q f b u) (hclosed : (y.item b.position).opened = false)
    (hleaves : (y.item b.position).leaves = []) (hwin : y.win ≤ y.openItems) (hspare : s.Spare y.itemLeaves)
    (hadds : Adds y { y.item b.position with opened := true, spilled := true } b s.now) : ∃ t hs, exec (.spillRetry q) s = .next t ∧
      t.switch.stalled = [] ∧ hs.length = y.itemLeaves ∧
      t.ctx x = y.taken (y.absorbInto ((y.item b.position).spill hs) b s.now) b ∧ (∀ z, z ≠ x.val → t.ctx z = s.ctx z) ∧
      t.cores = s.cores := by
  obtain ⟨-, -, hwf, -⟩ := hc
  have hretry := State.retryStalled_of_single (fun _ => hleads) hstalled hu
  have hnow : u.now = s.now := by
    rw [hu]
    rfl
  rw [← hnow] at hadds ⊢
  obtain ⟨t, hs, ht, hlen, hbecomes⟩ := State.settle_takeOrHold_of_spare (u := u) (by rw [hu]; exact hstill) hontime
    (by rw [hu, hy]; rfl) (by rw [hu]; exact hwf) hclosed hleaves hwin (by rw [hu]; exact hspare) hadds
  subst hu
  exact ⟨_, hs, congrArg s.ends (hretry.trans ht), hbecomes.stalled, hlen, hbecomes.self, hbecomes.others, hbecomes.cores⟩

end Retry

/-! ### STEP_DEADLINE (R255, R256) -/

/-- What the close of a lone context's step at its deadline leaves, read off the state. -/
theorem Overdue.reads {s t : State} {x : CtxId} {e : Nat} {y z : Ctx} {c : Cmd} (hctxs : s.ctxs = [(x.val, y)]) (h : Overdue x e z c s t) :
    t.ctx x = z ∧ ∀ k, k ≠ x.val → t.ctx k = s.ctx k := by
  refine ⟨?_, fun k hk => ?_⟩
  · rw [State.ctx, h.ctxs]
    exact if_pos rfl
  · rw [State.ctx, h.ctxs, State.ctx, hctxs]
    exact (if_neg hk.symm).trans (if_neg hk.symm).symm

/-- Settles O55, command by command: what a slice makes of a fragment changes one context (`CtxBecomes`), which then waits; a step that
opens with a fragment held for it only lets fragments go (`LeadsShrink`); a deadline leaves its one context closed (`Overdue`). -/
theorem contextsRunTheirSteps : Obligations.ContextsRunTheirSteps := by
  unfold Obligations.ContextsRunTheirSteps
  intro s u v x y q f b it k a hc hy
  obtain ⟨-, -, hwf, -, hindex⟩ := id hc
  refine ⟨fun c hstill hd hidle hmember hnext hseq hitems => ⟨fun hlead => ?_, fun l hlead hheld hwin =>
      cstepStart_takes hwf hy hstill hd hidle hmember hnext hseq hitems hlead hheld hwin⟩,
    fun c hd hidle hstep hnext hseq hitems hlead hpair => cstepStart_fences hwf hy hd hidle hstep hnext hseq hitems hlead hpair,
    fun hopen => execCstepStart_of_open (by rw [← hy]; exact hopen), execFragmentArrive_of_none,
    fun hfind hu => ⟨fragmentArrive_drops hc hfind hu, fragmentArrive_drops_late hc hy hfind hu, fragmentArrive_holds hc hy hfind hu,
      fragmentArrive_absorbs hc hy hfind hu⟩,
    fun c d hd => ⟨fun h => execStepDeadline_of_not_due ?_, fun hlone hreleasing hset hdue ha => ?_⟩,
    fun hstalled hu => leadRetry_holds hc hy hu hstalled,
    fun hstill hnone => State.ends_self (State.retryStalled_of_none (fun h => absurd h (by decide)) hstill hnone),
    fun hstalled hu hstill hleads hontime hclosed hleaves hwin hfree hfresh =>
      spillRetry_absorbs hc hy hu hstalled hstill hleads hontime hclosed hleaves hwin ⟨hfree, hfresh⟩,
    fun hstill hnone hleads => State.ends_self (State.retryStalled_of_none (fun _ => hleads) hstill hnone)⟩
  · obtain ⟨t, hexec, hctx, hothers, hcmds, hcores, hclock⟩ := cstepStart_opens hwf hy hstill hd hidle hmember hnext hseq hitems hlead
    refine ⟨t, hexec, ?_, hothers, hcmds, hcores, hclock⟩
    rw [hctx, Ctx.opening, hseq]
  · rw [← hy, ← hd]
    exact h
  · obtain ⟨t, ms, r, hexec, hover⟩ := stepDeadline_closes hindex hlone hreleasing hd hset hdue
    obtain ⟨hself, hothers⟩ := hover.reads hlone.1
    subst ha
    refine ⟨t, hexec, ?_, ?_, ?_, ?_, ?_, ?_, hover.entry, hover.gone, hover.clock, hothers⟩
    all_goals
      rw [hself]
      rfl

end Sys2Proof.Machine
end

section
/-!
SUPPORT. The switch's tables by command: route slots, MAC entries, VLANs and the aging of entries (R267, R269, R270), and the
settlement of O25.
-/
namespace Sys2Proof.Machine

open Sys2Proof

/-! ### Rows of the Index -/

/-- The only row that covers an index and a subindex is theirs (R343). -/
theorem entryOf_of_only {i sub : Nat} {e : EntryDef} (hmem : e ∈ entryTable) (hlo : e.lo ≤ i) (hhi : i ≤ e.hi) (hsub : e.sub ≤ sub)
    (hsubHi : sub ≤ e.subHi) (honly : ∀ x ∈ entryTable, x = e ∨ x.hi < e.lo ∨ e.hi < x.lo) : entryOf i sub = some e := by
  unfold entryOf
  cases h : entryTable.find? _ with
  | none => exact absurd (List.find?_eq_none.1 h e hmem) (by simp [hlo, hhi, hsub, hsubHi])
  | some x =>
    obtain ⟨hx, hxlo, hxhi⟩ := entryOf_spec h
    obtain rfl | hother := honly x hx
    · rfl
    · omega

/-! ### Route slots (R267) -/

/-- The row of the route slots (Table 11.7). -/
abbrev slotRow : EntryDef := ⟨0x4400, 0x443F, 0x00, 0xFF, .u64, .rw⟩

section RouteSlot

variable {s : State} (hs : Serves s) {n : Fin 16384} {v : BitVec 64}

theorem entryOf_routeSlot (n : Fin 16384) : entryOf (0x4400 + n.val / 256) (n.val % 256) = some slotRow :=
  entryOf_of_only (by decide) (Nat.le_add_right _ _) (show _ ≤ 0x443F by omega) (Nat.zero_le _) (show _ ≤ 0xFF by omega) (by decide +kernel)

/-- A slot's entry has no rule but the slot's own. -/
theorem State.numericStatus_routeSlot (s : State) (group : List (Nat × Nat)) (n : Fin 16384) (v : Nat) :
    s.numericStatus s group (0x4400 + n.val / 256) (n.val % 256) v = b2n (!s.slotOk n v) := by
  have hn : 256 * (0x4400 + n.val / 256 - 0x4400) + n.val % 256 = n.val := by omega
  have hi : n.val / 256 < 64 := by omega
  rw [State.numericStatus, if_neg (by omega), if_neg (by omega), if_pos (by omega)]
  generalize n.val / 256 = k at hn hi
  unfold State.refusesSwitch
  split
  case h_11 =>
    rw [if_neg (by simp; omega), if_neg (by simp; omega), if_neg (by omega), if_neg (by omega), if_neg (by simp; omega),
      if_neg (by simp; omega), if_neg (by simp; omega), if_neg (by simp; omega), if_neg (by simp; omega), if_pos (by simp; omega), hn]
  all_goals omega

include hs

theorem execRouteSlotWrite_sets (h : s.slotOk n v.toNat = true) : execRouteSlotWrite n v s =
    .next ((s.idxSet (0x4400 + n.val / 256) (n.val % 256) v.toNat).noteAccess 0 []) := by
  have hv : beNat (beBytes 8 v.toNat) = v.toNat := beNat_beBytes_of_lt v.isLt
  have hplain : Plain (0x4400 + n.val / 256) (n.val % 256) := by
    refine ⟨?_, by omega, by omega, by omega, by omega, by omega⟩
    simp only [List.mem_cons, List.not_mem_nil, or_false]
    omega
  have hw := State.write_of_numeric hs (entryOf_routeSlot n) (by omega) (by decide) (beBytes_length 8 v.toNat) (by omega)
    (by rw [hv, State.numericStatus_routeSlot, h]; rfl)
  rw [hv, State.applyNumber_of_plain hplain] at hw
  exact (congrArg s.ends hw).trans (State.ends_of_fixed rfl rfl)

theorem execRouteSlotWrite_refuses (h : s.slotOk n v.toNat = false) : execRouteSlotWrite n v s = .next (s.noteAccess 1 []) := by
  have hw := State.write_of_refused_number hs (entryOf_routeSlot n) (by omega) (by decide) (beBytes_length 8 v.toNat) (by omega)
    (st := 1) (by rw [beNat_beBytes_of_lt v.isLt, State.numericStatus_routeSlot, h]; rfl) (by decide)
  exact (congrArg s.ends hw).trans (State.ends_of_fixed rfl rfl)

end RouteSlot

/-- Nothing but an attachment keeps a slot from being emptied. -/
theorem State.slotOk_zero {s : State} {n : Nat} (h : s.slotTaken n = false) : s.slotOk n 0 = true := by
  simp [State.slotOk, h, slotPaths, bits]

/-! ### Fields of a string of bytes -/

theorem beAt_of_length {d : Bytes} {n : Nat} (h : d.length = n) : beAt d 0 n = beNat d := by
  simp [beAt, slice, ← h]

/-- The first of several fields. -/
theorem beAt_append_head {d b : Bytes} {n : Nat} (h : d.length = n) : beAt (d ++ b) 0 n = beNat d := by
  simp [beAt, slice, ← h]

/-- A field behind the first ones. -/
theorem beAt_append_of_le {a b : Bytes} {off : Nat} (h : a.length ≤ off) (n : Nat) :
    beAt (a ++ b) off n = beAt b (off - a.length) n := by
  simp only [beAt, slice, List.drop_append, List.drop_eq_nil_of_le h, List.nil_append]

@[simp] theorem zeros_length (n : Nat) : (zeros n).length = n := List.length_replicate

theorem beNat_zeros (n : Nat) : beNat (zeros n) = 0 := by
  rw [beNat, zeros, List.reverse_replicate]
  induction n with
  | zero => rfl
  | succ n ih => rw [List.replicate_succ, leNat, ih]; rfl

/-! ### The MAC table by command (R270, Table 11.7) -/

@[simp] theorem macBytes_length (op vid mac port : Nat) : (macBytes op vid mac port).length = 16 := by simp [macBytes]

/-- A command's fields are read back, and what Table 11.7 reserves is zero. -/
theorem macOp_macBytes {op vid mac port : Nat} (hop : op < 256) (hvid : vid < 2 ^ 16) (hmac : mac < 2 ^ 48) (hport : port < 256) :
    macOp (macBytes op vid mac port) = (op, vid, mac, port) ∧ beAt (macBytes op vid mac port) 1 1 = 0 ∧
      beAt (macBytes op vid mac port) 11 5 = 0 := by
  have hbytes : macBytes op vid mac port =
      beBytes 1 op ++ (zeros 1 ++ (beBytes 2 vid ++ (beBytes 6 mac ++ (beBytes 1 port ++ zeros 5)))) := by
    simp only [macBytes, List.append_assoc]
  rw [hbytes]
  have h1 : beNat (beBytes 1 op) = op := beNat_beBytes_of_lt hop
  have h2 : beNat (beBytes 2 vid) = vid := beNat_beBytes_of_lt hvid
  have h3 : beNat (beBytes 6 mac) = mac := beNat_beBytes_of_lt hmac
  have h4 : beNat (beBytes 1 port) = port := beNat_beBytes_of_lt hport
  simp [macOp, beAt_append_head, beAt_append_of_le, beAt_of_length, beNat_zeros, h1, h2, h3, h4]

section Table

variable {s : State} (hs : Serves s)
include hs

/-- A DOMAIN entry that is written at will takes what its own rule allows. -/
theorem State.write_of_domain {i : Nat} {d : Bytes} (he : entryOf i 0 = some ⟨i, i, 0, 0, .domain, .wo⟩) (hi : i < 0x7000)
    (h : s.domainStatus i d = 0) : s.write [(i, 0, d)] = (s.applyBytes i 0 d).noteAccess 0 [] := by
  have hfree : s.writeForbidden ⟨i, i, 0, 0, .domain, .wo⟩ i = false := by
    rw [State.writeForbidden, State.rightOf_of_low s _ (by omega)]
  rw [State.write_of_accepted hs (by omega) ((State.writeStatus_of_bytes hs he hfree rfl s _).trans h), State.applyWrite, he]
  rfl

theorem State.write_macOperation {op vid mac port : Nat} (h : s.macOpOk (macBytes op vid mac port) = true) :
    s.write [(0x4010, 0, macBytes op vid mac port)] = (s.macOperation (macBytes op vid mac port)).noteAccess 0 [] :=
  State.write_of_domain hs rfl (by decide) (by simp [State.domainStatus, domainSize, h, b2n])

end Table

/-- What stands under no other VID and address. -/
def State.macsBut (s : State) (vid mac : Nat) : List MacEntry := s.switch.macs.filter (fun e => !(e.vid == vid && e.mac == mac))

theorem State.mem_macsBut {s : State} {vid mac : Nat} {e : MacEntry} :
    e ∈ s.macsBut vid mac ↔ e ∈ s.switch.macs ∧ ¬ (e.vid = vid ∧ e.mac = mac) := by
  simp [State.macsBut, imp_iff_not_or]

theorem State.find_macsBut (s : State) (vid mac : Nat) : (s.macsBut vid mac).find? (fun e => e.vid == vid && e.mac == mac) = none := by
  rw [List.find?_eq_none]
  intro e he
  obtain ⟨-, hother⟩ := State.mem_macsBut.1 he
  simpa using hother

section MacCommand

variable {s : State} (hs : Serves s) {vid : BitVec 16} {mac : BitVec 48} {port : BitVec 8}
include hs

theorem execMacAddStatic_adds (hvid : vidOk vid.toNat = true) (hport : port.toNat ≤ 0x80)
    (hplace : (s.macEntry vid.toNat mac.toNat).isSome = true ∨ s.macSetFull vid.toNat mac.toNat = false) :
    execMacAddStatic vid mac port s = .next ((s.setMacs (s.macsBut vid.toNat mac.toNat ++
      [⟨vid.toNat, mac.toNat, port.toNat, true, s.clock.stitch⟩])).noteAccess 0 []) := by
  obtain ⟨hfields, hzero, hzeros⟩ := macOp_macBytes (op := 1) (by decide) vid.isLt mac.isLt port.isLt
  have hok : s.macOpOk (macBytes 1 vid.toNat mac.toNat port.toNat) = true := by
    simpa [State.macOpOk, hfields, hzero, hzeros, hvid, hport] using hplace
  have happly : s.macOperation (macBytes 1 vid.toNat mac.toNat port.toNat) = s.setMacs (s.macsBut vid.toNat mac.toNat ++
      [⟨vid.toNat, mac.toNat, port.toNat, true, s.clock.stitch⟩]) := by
    rw [State.macOperation, hfields]
    rfl
  rw [execMacAddStatic, State.write_macOperation hs hok, happly]
  exact State.ends_of_fixed rfl rfl

theorem execMacDelete_deletes (hvid : vidOk vid.toNat = true) :
    execMacDelete vid mac s = .next ((s.setMacs (s.macsBut vid.toNat mac.toNat)).noteAccess 0 []) := by
  obtain ⟨hfields, hzero, hzeros⟩ := macOp_macBytes (op := 2) (port := 0) (by decide) vid.isLt mac.isLt (by decide)
  have hok : s.macOpOk (macBytes 2 vid.toNat mac.toNat 0) = true := by simp [State.macOpOk, hfields, hzero, hzeros, hvid]
  have happly : s.macOperation (macBytes 2 vid.toNat mac.toNat 0) = s.setMacs (s.macsBut vid.toNat mac.toNat) := by
    rw [State.macOperation, hfields]
    rfl
  rw [execMacDelete, State.write_macOperation hs hok, happly]
  exact State.ends_of_fixed rfl rfl

theorem execMacFlushDynamic_flushes (hport : port.toNat ≤ 0x80) : execMacFlushDynamic port s =
    .next ((s.setMacs (s.switch.macs.filter (fun e => e.static || e.port != port.toNat))).noteAccess 0 []) := by
  obtain ⟨hfields, hzero, hzeros⟩ := macOp_macBytes (op := 3) (vid := 0) (mac := 0) (by decide) (by decide) (by decide) port.isLt
  have hok : s.macOpOk (macBytes 3 0 0 port.toNat) = true := by simp [State.macOpOk, hfields, hzero, hzeros, hport]
  have happly : s.macOperation (macBytes 3 0 0 port.toNat) =
      s.setMacs (s.switch.macs.filter (fun e => e.static || e.port != port.toNat)) := by
    rw [State.macOperation, hfields]
    rfl
  rw [execMacFlushDynamic, State.write_macOperation hs hok, happly]
  exact State.ends_of_fixed rfl rfl

end MacCommand

/-! ### VLANs by command (R269) -/

theorem execVlanOperation_sets {s : State} (hs : Serves s) {vid : BitVec 16} {mem unt : BitVec 160} (hvid : vidOk vid.toNat = true)
    (hmem : mem.toNat ≤ allPorts) (hunt : unt.toNat ≤ allPorts) : execVlanOperation vid mem unt s = .next { s with
      switch := { s.switch with vlans := fset (0, 0) s.switch.vlans vid.toNat (mem.toNat, unt.toNat) }
      lastStatus := 0, lastData := [] } := by
  have hv : beNat (beBytes 2 vid.toNat) = vid.toNat := beNat_beBytes_of_lt vid.isLt
  have hm : beNat (beBytes 20 mem.toNat) = mem.toNat := beNat_beBytes_of_lt mem.isLt
  have hu : beNat (beBytes 20 unt.toNat) = unt.toNat := beNat_beBytes_of_lt unt.isLt
  rw [execVlanOperation, List.append_assoc, List.append_assoc]
  generalize hd : beBytes 2 vid.toNat ++ (zeros 2 ++ (beBytes 20 mem.toNat ++ beBytes 20 unt.toNat)) = d
  have hlen : d.length = 44 := by simp [← hd]
  have hvid' : beAt d 0 2 = vid.toNat := by simp [← hd, beAt_append_head, hv]
  have hzero : beAt d 2 2 = 0 := by simp [← hd, beAt_append_head, beAt_append_of_le, beNat_zeros]
  have hmem' : beAt d 4 20 = mem.toNat := by simp [← hd, beAt_append_head, beAt_append_of_le, hm]
  have hunt' : beAt d 24 20 = unt.toNat := by simp [← hd, beAt_append_of_le, beAt_of_length, hu]
  have hok : vlanOpOk d = true := by simp [vlanOpOk, hvid', hzero, hmem', hunt', hvid, hmem, hunt]
  have happly : s.applyBytes 0x4014 0 d = s.vlanOperation d := rfl
  rw [State.write_of_domain hs rfl (by decide) (by simp [State.domainStatus, domainSize, hlen, hok, b2n]), happly, State.vlanOperation,
    hvid', hmem', hunt']
  exact State.ends_of_fixed rfl rfl

/-! ### Aging (R270) -/

section Aging

variable {s : State} {vid : BitVec 12} {mac : BitVec 48} {e : MacEntry} (h : s.macEntry vid.toNat mac.toNat = some e)
include h

theorem execMacAging_removes (hdynamic : e.static = false) (hage : s.idx 0x4012 0 ≠ 0)
    (hold : e.refreshed + s.idx 0x4012 0 * stitchesPerSecond ≤ s.clock.stitch) :
    execMacAging vid mac s = .next (s.setMacs (s.switch.macs.filter (fun x => x ≠ e))) := by
  have hgoes : (e.static || s.idx 0x4012 0 = 0 || s.clock.stitch < e.refreshed + s.idx 0x4012 0 * stitchesPerSecond) = false := by
    simp [hdynamic, hage, hold]
  rw [execMacAging, h]
  dsimp only
  rw [if_neg (by rw [hgoes]; decide)]
  exact State.ends_of_fixed rfl rfl

theorem execMacAging_keeps (hstays : e.static = true ∨ s.idx 0x4012 0 = 0 ∨
    s.clock.stitch < e.refreshed + s.idx 0x4012 0 * stitchesPerSecond) : execMacAging vid mac s = .next s := by
  rw [execMacAging, h]
  exact State.ends_self (if_pos (by simpa [or_assoc] using hstays))

end Aging

/-- Settles O25: each command is one accepted write, of one entry or of one table of the bridge; aging filters the MAC table. -/
theorem routesAndBridgeTables : Obligations.RoutesAndBridgeTables := by
  unfold Obligations.RoutesAndBridgeTables
  refine ⟨fun s n v hs => ⟨execRouteSlotWrite_sets hs, execRouteSlotWrite_refuses hs, State.slotOk_zero⟩,
    fun s vid mac port mem unt hs => ⟨fun h1 h2 hport hplace => ?_, fun h1 h2 => ?_, fun hport => ?_, fun h1 h2 =>
      execVlanOperation_sets hs (by simp [vidOk, h1, h2])⟩,
    fun s vid mac e h => ⟨fun hdynamic hage hold => ?_, execMacAging_keeps h⟩⟩
  · refine ⟨_, execMacAddStatic_adds hs (by simp [vidOk, h1, h2]) hport hplace, ?_, fun e he => ?_, rfl⟩
    · show (s.macsBut vid.toNat mac.toNat ++ [_]).find? _ = _
      rw [List.find?_append, State.find_macsBut]
      simp
    · show e ∈ s.macsBut vid.toNat mac.toNat ++ [_] ↔ _
      rw [List.mem_append, State.mem_macsBut, List.mem_singleton]
      constructor
      · rintro (⟨hin, -⟩ | rfl)
        · exact hin
        · exact absurd ⟨rfl, rfl⟩ he
      · exact fun hin => .inl ⟨hin, he⟩
  · exact ⟨_, execMacDelete_deletes hs (by simp [vidOk, h1, h2]), s.find_macsBut _ _,
      fun e he => State.mem_macsBut.trans (and_iff_left he), rfl⟩
  · exact ⟨_, execMacFlushDynamic_flushes hs hport, fun e => by simp [State.noteAccess, State.setMacs], rfl⟩
  · exact ⟨_, execMacAging_removes h hdynamic hage hold, by simp [State.setMacs], fun x hx => by simp [State.setMacs, hx], rfl⟩

end Sys2Proof.Machine
end

section
/-!
SUPPORT. What reads and writes of leaves leave of the pool's lists and counts, leaves taken and given back one at a time where no
stored pool state is in error (R272), the pool operations by command (R282), and the settlement of O28.
-/
namespace Sys2Proof.Machine

open Sys2Proof

/-! ### What reads and writes of leaves leave of the pool -/

/-- From s to t leaves may have been read and written: both lists, every reference count and what waits in the switch stand, and so
does the mark of a reinitialization. -/
structure PoolNotes (s t : State) : Prop where
  touches : Touches s t
  switch : ∃ shares ls, t.switch = { s.switch with shareUsed := shares, leaves := ls, poolStatus := t.switch.poolStatus }
  mark : bit t.switch.poolStatus 29 = bit s.switch.poolStatus 29

namespace PoolNotes

variable {s t u : State}

theorem of_switch_eq (h : Touches s t) (hw : t.switch = s.switch) : PoolNotes s t := ⟨h, ⟨_, _, by rw [hw]⟩, by rw [hw]⟩

theorem refl (s : State) : PoolNotes s s := of_switch_eq (.refl s) rfl

theorem trans (h : PoolNotes s t) (k : PoolNotes t u) : PoolNotes s u := by
  obtain ⟨htouch, ⟨a, b, hw⟩, hmark⟩ := h
  obtain ⟨ktouch, ⟨a', b', kw⟩, kmark⟩ := k
  refine ⟨htouch.trans ktouch, ⟨a', b', ?_⟩, kmark.trans hmark⟩
  rw [hw] at kw
  exact kw

theorem ite {b : Prop} [Decidable b] (ht : PoolNotes s t) (hu : PoolNotes s u) : PoolNotes s (if b then t else u) := P_ite ht hu

theorem ite_fst {β : Type} {b : Prop} [Decidable b] {p q : State × β} (hp : PoolNotes s p.1) (hq : PoolNotes s q.1) :
    PoolNotes s (if b then p else q).1 := P_ite1 hp hq

theorem foldl {β : Type} {f : State → β → State} (hf : ∀ v a, PoolNotes v (f v a)) (l : List β) (s : State) :
    PoolNotes s (l.foldl f s) := P_foldl (P := PoolNotes s) (.refl s) fun v a hv => hv.trans (hf v a)

variable (h : PoolNotes s t)
include h

theorem leafList (ext : Bool) : t.leafList ext = s.leafList ext := by
  obtain ⟨-, ⟨a, b, hw⟩, -⟩ := h
  rw [State.leafList, hw, State.leafList]

theorem counts : t.switch.counts = s.switch.counts := by
  obtain ⟨-, ⟨a, b, hw⟩, -⟩ := h
  rw [hw]

theorem leafCount (n : Nat) : t.leafCount n = s.leafCount n := by
  obtain ⟨-, ⟨a, b, hw⟩, -⟩ := h
  rw [State.leafCount, State.handle, hw, State.leafCount, State.handle]

end PoolNotes

theorem State.readLeafWord_poolNotes (s : State) (h w : Nat) (src : ReadSource) (unit : Nat) :
    PoolNotes s (s.readLeafWord h w src unit).1 := by
  refine .of_switch_eq (s.readLeafWord_touches h w src unit) ?_
  have ha := (s.accountRead_readsOnly (s.leafWordRead h w) src 4 h unit).switch
  unfold State.readLeafWord
  dsimp only
  split <;> exact ha

theorem State.noteShare_poolNotes (s : State) (n : Nat) : PoolNotes s (s.noteShare n) := ⟨.withSwitch s _, ⟨_, _, rfl⟩, rfl⟩

theorem State.writeMem_poolNotes (s : State) (a : Nat) (data : Bytes) (unit : Nat) : PoolNotes s (s.writeMem a data unit) :=
  .of_switch_eq (s.writeMem_touches a data unit) (s.writeMem_storesOnly a data unit).switch

theorem State.readLeaf_poolNotes (s : State) (h n : Nat) (src : ReadSource) (unit : Nat) :
    PoolNotes s (s.readLeaf h n src unit).1 := by
  unfold State.readLeaf
  refine .ite_fst ((s.noteShare_poolNotes n).trans (.of_switch_eq (State.readMem_touches _ _ _ _ _)
    (State.readMem_passOnly _ _ _ _ _).1.switch)) ?_
  exact P_foldl1 (P := PoolNotes s) (.refl s) fun v w hv => hv.trans (v.1.readLeafWord_poolNotes h w src unit)

theorem State.setLeafPattern_poolNotes (s : State) (h w p : Nat) : PoolNotes s (s.setLeafPattern h w p) :=
  .of_switch_eq (s.setLeafPattern_touches h w p) rfl

theorem State.writeLeaf_poolNotes (s : State) (h off : Nat) (data : Bytes) : PoolNotes s (s.writeLeaf h off data) := by
  refine .ite ((s.noteShare_poolNotes _).trans (State.writeMem_poolNotes _ _ _ _)) (PoolNotes.trans (.foldl (fun v w => ?_) _ s)
    ⟨.withSwitch _ _, ⟨_, _, rfl⟩, rfl⟩)
  exact .ite (.refl v) (.ite (v.setLeafPattern_poolNotes _ _ _)
    ((v.readLeafWord_poolNotes _ _ _ _).trans (State.setLeafPattern_poolNotes _ _ _ _)))

theorem State.fillLeaves_poolNotes (s : State) (hs : List Nat) (bs : Bytes) : PoolNotes s (s.fillLeaves hs bs) := by
  induction hs generalizing s bs with
  | nil => exact .refl s
  | cons h hs ih => exact (s.writeLeaf_poolNotes _ _ _).trans (ih _ _)

/-! ### Flags of the pool's status (0x4040.00) -/

/-- Raising a flag changes the status word alone. -/
theorem State.poolFlag_frame (s : State) (b : Nat) :
    ∃ ps, s.poolFlag b = { s with switch := { s.switch with poolStatus := ps } } := by
  unfold State.poolFlag
  split
  · exact ⟨_, rfl⟩
  · exact ⟨_, rfl⟩

theorem State.bit_poolFlag (s : State) (b : Nat) : bit (s.poolFlag b).switch.poolStatus b = true := by
  unfold State.poolFlag
  split
  · assumption
  · next h =>
    dsimp only
    unfold bit at h ⊢
    rw [Nat.add_div_right _ (Nat.two_pow_pos b)]
    simp at h ⊢
    omega

section PoolFlag

variable (s : State) (b : Nat)

@[simp] theorem State.poolFlag_index : (s.poolFlag b).index = s.index := by
  obtain ⟨ps, h⟩ := s.poolFlag_frame b
  rw [h]

@[simp] theorem State.poolFlag_mem : (s.poolFlag b).mem = s.mem := by
  obtain ⟨ps, h⟩ := s.poolFlag_frame b
  rw [h]

@[simp] theorem State.poolFlag_counts : (s.poolFlag b).switch.counts = s.switch.counts := by
  obtain ⟨ps, h⟩ := s.poolFlag_frame b
  rw [h]

@[simp] theorem State.poolFlag_leafList (ext : Bool) : (s.poolFlag b).leafList ext = s.leafList ext := by
  obtain ⟨ps, h⟩ := s.poolFlag_frame b
  rw [h]
  rfl

@[simp] theorem State.poolFlag_listSize (ext : Bool) : (s.poolFlag b).listSize ext = s.listSize ext := by
  obtain ⟨ps, h⟩ := s.poolFlag_frame b
  rw [h]
  rfl

@[simp] theorem State.poolFlag_leafCount (n : Nat) : (s.poolFlag b).leafCount n = s.leafCount n := by
  obtain ⟨ps, h⟩ := s.poolFlag_frame b
  rw [h]
  rfl

end PoolFlag

theorem State.poolFlag_poolNotes (s : State) : PoolNotes s (s.poolFlag 30) := by
  refine .ite (.refl s) ⟨.withSwitch s _, ⟨_, _, rfl⟩, ?_⟩
  show bit (s.switch.poolStatus + 2 ^ 30) 29 = bit s.switch.poolStatus 29
  unfold bit
  congr 1
  omega

theorem State.poolRead_poolNotes (s : State) (k address : Nat) : PoolNotes s (s.poolRead k address) := by
  refine .ite (PoolNotes.trans ?_ (State.poolFlag_poolNotes _)) (.refl s)
  exact .of_switch_eq (s.accountRead_touches .bad .pool 0xFF nofun) (s.accountRead_readsOnly .bad .pool 4 address 0xFF).switch

theorem State.poolWritten_poolNotes (s : State) (k : Nat) : PoolNotes s (s.poolWritten k) :=
  .of_switch_eq (s.poolWritten_touches k) rfl

theorem State.readLink_poolNotes (s : State) (h : Nat) : PoolNotes s (s.readLink h).1 :=
  .ite_fst ((s.readLeaf_poolNotes _ _ _ _).trans (State.poolFlag_poolNotes _)) (s.readLeaf_poolNotes _ _ _ _)

/-! ### Lists and counts -/

theorem State.leafList_setLeafList_self (s : State) (ext : Bool) (l : LeafList) : (s.setLeafList ext l).leafList ext = l := by
  cases ext <;> rfl

theorem State.leafList_setLeafList_other (s : State) (ext : Bool) (l : LeafList) :
    (s.setLeafList ext l).leafList (!ext) = s.leafList (!ext) := by
  cases ext <;> rfl

theorem State.leafCount_setLeafList (s : State) (ext : Bool) (l : LeafList) (h : Nat) :
    (s.setLeafList ext l).leafCount h = s.leafCount h := by
  cases ext <;> rfl

theorem State.leafCount_setLeafCount {s : State} (h : fwf 0 s.switch.counts = true) (n c : Nat) : (s.setLeafCount n c).leafCount n = c :=
  fget_fset_self h _ _

section Sound

variable {s : State} (he : s.mem.poolErrors = [])
include he

theorem State.poolRead_of_sound (k address : Nat) : s.poolRead k address = s := if_neg (by rw [he]; exact Bool.false_ne_true)

theorem State.withPoolErrors_of_sound {m : FMap Bool} (h : m = []) : { s.mem with poolErrors := m } = s.mem := by rw [h, ← he]

theorem State.setLeafCount_of_sound (h c : Nat) :
    s.setLeafCount h c = { s with switch := { s.switch with counts := fset 0 s.switch.counts (s.handle h) c } } := by
  rw [State.setLeafCount, State.withPoolErrors_of_sound he (by rw [he]; rfl)]

theorem State.poolWritten_of_sound (k : Nat) : s.poolWritten k = s := by
  rw [State.poolWritten, State.withPoolErrors_of_sound he (by rw [he]; rfl)]

end Sound

/-! ### Leaves taken and given back (R272) -/

/-- The handle of a list's next fresh leaf (R271). -/
def State.freshHandle (s : State) (ext : Bool) : Nat := (s.leafList ext).fresh + if ext then externalBase else 0

/-- A list's next fresh leaf is taken, with one reference. -/
def State.takeFresh (s : State) (ext : Bool) : State :=
  (s.setLeafList ext { s.leafList ext with fresh := (s.leafList ext).fresh + 1 }).setLeafCount (s.freshHandle ext) 1

@[simp] theorem State.freshHandle_poolFlag (s : State) (b : Nat) (ext : Bool) :
    (s.poolFlag b).freshHandle ext = s.freshHandle ext := by
  simp [State.freshHandle]

section TakeFresh

variable (s : State) (ext : Bool)

@[simp] theorem State.takeFresh_index : (s.takeFresh ext).index = s.index := by cases ext <;> rfl

@[simp] theorem State.takeFresh_poolStatus : (s.takeFresh ext).switch.poolStatus = s.switch.poolStatus := by cases ext <;> rfl

theorem State.leafList_takeFresh_self :
    (s.takeFresh ext).leafList ext = { s.leafList ext with fresh := (s.leafList ext).fresh + 1 } := by
  cases ext <;> rfl

theorem State.leafList_takeFresh_other : (s.takeFresh ext).leafList (!ext) = s.leafList (!ext) := by cases ext <;> rfl

variable {s}

theorem State.leafCount_takeFresh (h : fwf 0 s.switch.counts = true) : (s.takeFresh ext).leafCount (s.freshHandle ext) = 1 :=
  State.leafCount_setLeafCount (by cases ext <;> exact h) _ _

theorem State.takeFresh_mem (h : s.mem.poolErrors = []) : (s.takeFresh ext).mem = s.mem := by
  have hset : (s.setLeafList ext { s.leafList ext with fresh := (s.leafList ext).fresh + 1 }).mem = s.mem := by cases ext <;> rfl
  rw [State.takeFresh, State.setLeafCount_of_sound (by rw [hset]; exact h)]
  exact hset

end TakeFresh

section Sound

variable {s : State} (he : s.mem.poolErrors = []) {ext : Bool}
include he

/-- Without a chain the next fresh leaf is taken. -/
theorem State.alloc_of_fresh (hc : (s.leafList ext).chain = 0) (hf : (s.leafList ext).fresh < s.listSize ext) :
    s.alloc ext = (s.takeFresh ext, some (s.freshHandle ext)) := by
  have hset : (s.setLeafList ext { s.leafList ext with fresh := (s.leafList ext).fresh + 1 }).mem.poolErrors = [] := by
    cases ext <;> exact he
  unfold State.alloc
  extract_lets l s1 r s2 s3 h
  have hs3 : s3 = s := (congrArg (State.poolRead · _ _) (State.poolRead_of_sound he _ _)).trans (State.poolRead_of_sound he _ _)
  clear_value s3
  subst hs3
  rw [if_neg (by rw [hc]; exact Nat.lt_irrefl 0), if_pos hf, State.poolWritten_of_sound hset]
  rfl

/-- Without a chain or a fresh leaf there is none to take. -/
theorem State.alloc_of_empty (hc : (s.leafList ext).chain = 0) (hf : s.listSize ext ≤ (s.leafList ext).fresh) :
    s.alloc ext = (s, none) := by
  simp [State.alloc, State.poolRead_of_sound he, hc, hf]

end Sound

/-- A list with a chain gives its head, with one reference, and one leaf fewer is on the chain. -/
theorem State.alloc_of_chain {s : State} (hcounts : fwf 0 s.switch.counts = true) {ext : Bool} (hc : 0 < (s.leafList ext).chain) :
    ∃ t, s.alloc ext = (t, some (s.leafList ext).head) ∧ (t.leafList ext).chain = (s.leafList ext).chain - 1 ∧
      t.leafCount (s.leafList ext).head = 1 := by
  unfold State.alloc
  extract_lets l s1 r s2 s3 h
  have hr : PoolNotes s r.1 := ((s.poolRead_poolNotes _ _).trans (State.poolRead_poolNotes _ _ _)).trans (State.readLink_poolNotes _ _)
  have hw : PoolNotes s2 ((s2.poolWritten (headKey ext)).poolWritten (chainKey ext)) :=
    (s2.poolWritten_poolNotes _).trans (State.poolWritten_poolNotes _ _)
  have hwf : fwf 0 ((s2.poolWritten (headKey ext)).poolWritten (chainKey ext)).switch.counts = true := by
    rw [hw.counts, show s2.switch.counts = r.1.switch.counts by cases ext <;> rfl, hr.counts]
    exact hcounts
  rw [if_pos hc]
  refine ⟨_, rfl, ?_, State.leafCount_setLeafCount hwf _ _⟩
  have hlist : ∀ v c, (State.setLeafCount v l.head c).leafList ext = v.leafList ext := fun _ _ => rfl
  rw [hlist, hw.leafList, State.leafList_setLeafList_self]

/-- A leaf whose last reference goes becomes the head of its list. -/
theorem State.freeLeaf_of_last {s : State} (hcounts : fwf 0 s.switch.counts = true) (he : s.mem.poolErrors = []) {h : Nat}
    (hc : s.leafCount h ≤ 1) :
    (s.freeLeaf h).1.leafList (isExternal h) =
      ⟨h, (s.leafList (isExternal h)).chain + 1, (s.leafList (isExternal h)).fresh⟩ ∧
    (s.freeLeaf h).1.leafList (!isExternal h) = s.leafList (!isExternal h) ∧
    (s.freeLeaf h).1.leafCount h = (s.leafCount h + 255) % 256 := by
  unfold State.freeLeaf
  extract_lets c s1 ext l s2
  have hs1 : s1 = s.setLeafCount h ((c + 255) % 256) := congrArg (State.setLeafCount · h _) (State.poolRead_of_sound he _ _)
  have hl : ∀ b, s1.leafList b = s.leafList b := fun b => by
    rw [hs1]
    rfl
  have hcount : s1.leafCount h = (c + 255) % 256 := by
    rw [hs1]
    exact State.leafCount_setLeafCount hcounts _ _
  have h2 : PoolNotes s1 s2 :=
    ((s1.poolRead_poolNotes _ _).trans (State.poolRead_poolNotes _ _ _)).trans (State.writeLeaf_poolNotes _ _ _ _)
  have hw : ∀ v : State, PoolNotes v ((v.poolWritten (headKey ext)).poolWritten (chainKey ext)) := fun v =>
    (v.poolWritten_poolNotes _).trans (State.poolWritten_poolNotes _ _)
  rw [if_pos hc]
  dsimp only
  refine ⟨?_, ?_, ?_⟩
  · rw [(hw _).leafList, State.leafList_setLeafList_self, ← hl]
  · rw [(hw _).leafList, State.leafList_setLeafList_other, h2.leafList, hl]
  · rw [(hw _).leafCount, State.leafCount_setLeafList, h2.leafCount, hcount]

/-- A leaf with further references stays where it is. -/
theorem State.freeLeaf_of_shared {s : State} (he : s.mem.poolErrors = []) {h : Nat} (hc : 1 < s.leafCount h) :
    (s.freeLeaf h).1 = s.setLeafCount h ((s.leafCount h + 255) % 256) := by
  unfold State.freeLeaf
  extract_lets c s1 ext l s2
  rw [if_neg (Nat.not_le.2 hc)]
  exact congrArg (State.setLeafCount · h _) (State.poolRead_of_sound he _ _)

/-! ### Pool operations by command (R282, Table 11.7) -/

section Word

variable {op n h : Nat} (hop : 1 ≤ op ∧ op ≤ 4) (hn : n < 256) (hh : h < 2 ^ 32)
include hop hn hh

theorem bits_poolWord : bits (poolWord op n h) 63 56 = op ∧ bits (poolWord op n h) 47 40 = n ∧ bits (poolWord op n h) 31 0 = h ∧
    bits (poolWord op n h) 55 48 = 0 ∧ bits (poolWord op n h) 39 32 = 0 := by
  unfold poolWord bits
  omega

theorem poolOpBad_poolWord : poolOpBad (poolWord op n h) = false := by
  obtain ⟨hop', -, -, h55, h39⟩ := bits_poolWord hop hn hh
  obtain ⟨h1, h4⟩ := hop
  simp [poolOpBad, hop', h55, h39, h1, h4]

theorem poolWord_lt : poolWord op n h < 2 ^ 64 := by
  unfold poolWord
  omega

end Word

theorem State.applyNumber_poolOperation (s : State) (v : Nat) : s.applyNumber 0xF040 0 v = s.poolOperation v := rfl

/-- An operation that the entry knows is done while no binding is loaded. -/
theorem State.writeNumber_poolOperation {s : State} (hs : Serves s) (hb : s.binding.loaded = false) {v : Nat} (hv : v < 2 ^ 64)
    (hok : poolOpBad v = false) : s.writeNumber 0xF040 0 8 v = (s.poolOperation v).noteAccess 0 [] := by
  have hback : beNat (beBytes 8 v) = v := beNat_beBytes_of_lt hv
  have he : entryOf 0xF040 0 = some ⟨0xF040, 0xF040, 0x00, 0x00, .u64, .wo⟩ :=
    entryOf_of_only (by decide +kernel) le_rfl le_rfl le_rfl le_rfl (by decide +kernel)
  have hfree : s.writeForbidden ⟨0xF040, 0xF040, 0x00, 0x00, .u64, .wo⟩ 0xF040 = false := by
    simp [State.writeForbidden, State.rightOf]
  have hst : s.numericStatus s [(0xF040, 0)] 0xF040 0 v = 0 := by
    simp [State.numericStatus, State.refusesHigh, hb, hok, b2n]
  rw [State.writeNumber, State.write_of_accepted hs (by decide) ((State.writeStatus_of_number hs he hfree rfl nofun
    (beBytes_length 8 _) s true _).trans (by rw [hback, hst])), State.applyWrite_of_numeric s he rfl, hback,
    State.applyNumber_poolOperation]

section Operations

variable {s : State} (hs : Serves s) (hb : s.binding.loaded = false)

/-- A diagnostic taking: what a list gives stands in 0xF041.00, or nil. -/
def State.diagAlloc (s : State) (ext : Bool) : State :=
  ((s.poolFlag 31).alloc ext).1.idxSet 0xF041 0 (((s.poolFlag 31).alloc ext).2.getD nilHandle)

include hs hb

theorem State.writeNumber_poolWord {op n h : Nat} (hop : 1 ≤ op ∧ op ≤ 4) (hn : n < 256) (hh : h < 2 ^ 32) :
    s.writeNumber 0xF040 0 8 (poolWord op n h) = (s.poolOperation (poolWord op n h)).noteAccess 0 [] :=
  State.writeNumber_poolOperation hs hb (poolWord_lt hop hn hh) (poolOpBad_poolWord hop hn hh)

theorem execDiagAllocOnDie_eq : execDiagAllocOnDie s = s.ends ((s.diagAlloc false).noteAccess 0 []) :=
  congrArg s.ends (State.writeNumber_poolWord hs hb (op := 1) (n := 0) (h := 0) (by decide) (by decide) (by decide))

theorem execDiagAllocExternal_eq : execDiagAllocExternal s = s.ends ((s.diagAlloc true).noteAccess 0 []) :=
  congrArg s.ends (State.writeNumber_poolWord hs hb (op := 2) (n := 0) (h := 0) (by decide) (by decide) (by decide))

theorem execDiagFree_eq (h : BitVec 32) : execDiagFree h s = s.ends (((s.poolFlag 31).freeLeaf h.toNat).1.noteAccess 0 []) := by
  obtain ⟨hop, -, hh, -⟩ := bits_poolWord (op := 3) (n := 0) (by decide) (by decide) h.isLt
  have hw := State.writeNumber_poolWord hs hb (op := 3) (n := 0) (by decide) (by decide) h.isLt
  rw [State.poolOperation, hop, hh] at hw
  exact congrArg s.ends hw

theorem execDiagRef_eq (h : BitVec 32) (n : BitVec 8) :
    execDiagRef h n s = s.ends (((s.poolFlag 31).refLeaf h.toNat n.toNat).noteAccess 0 []) := by
  obtain ⟨hop, hn, hh, -⟩ := bits_poolWord (op := 4) (by decide) n.isLt h.isLt
  have hw := State.writeNumber_poolWord hs hb (op := 4) (by decide) n.isLt h.isLt
  rw [State.poolOperation, hop, hn, hh] at hw
  exact congrArg s.ends hw

end Operations

section DiagAlloc

variable {s : State} (hwf : StoresWf s) {ext : Bool}
include hwf

theorem State.diagAlloc_of_fresh (hcounts : fwf 0 s.switch.counts = true) (he : s.mem.poolErrors = [])
    (hc : (s.leafList ext).chain = 0) (hf : (s.leafList ext).fresh < s.listSize ext) :
    (s.diagAlloc ext).idx 0xF041 0 = s.freshHandle ext ∧
    (s.diagAlloc ext).leafList ext = { s.leafList ext with fresh := (s.leafList ext).fresh + 1 } ∧
    (s.diagAlloc ext).leafList (!ext) = s.leafList (!ext) ∧ (s.diagAlloc ext).leafCount (s.freshHandle ext) = 1 ∧
    bit (s.diagAlloc ext).switch.poolStatus 31 = true ∧ (s.diagAlloc ext).mem = s.mem := by
  obtain ⟨-, -, hindex⟩ := hwf
  have halloc := State.alloc_of_fresh (s := s.poolFlag 31) (ext := ext) (by simpa using he) (by simpa using hc) (by simpa using hf)
  have hlist := (s.poolFlag 31).leafList_takeFresh_self ext
  have hother := (s.poolFlag 31).leafList_takeFresh_other ext
  have hone := State.leafCount_takeFresh (s := s.poolFlag 31) ext (by simpa using hcounts)
  have hmem := State.takeFresh_mem (s := s.poolFlag 31) ext (by simpa using he)
  have hflag : bit ((s.poolFlag 31).takeFresh ext).switch.poolStatus 31 = true := by simpa using s.bit_poolFlag 31
  simp only [State.freshHandle_poolFlag, State.poolFlag_leafList, State.poolFlag_mem] at halloc hlist hother hone hmem
  rw [State.diagAlloc, halloc]
  exact ⟨State.idx_idxSet_self (by simpa using hindex) _ _ _, hlist, hother, hone, hflag, hmem⟩

theorem State.diagAlloc_of_chain (hcounts : fwf 0 s.switch.counts = true) (hc : 0 < (s.leafList ext).chain) :
    (s.diagAlloc ext).idx 0xF041 0 = (s.leafList ext).head ∧
    ((s.diagAlloc ext).leafList ext).chain = (s.leafList ext).chain - 1 ∧ (s.diagAlloc ext).leafCount (s.leafList ext).head = 1 := by
  obtain ⟨t, halloc, hchain, hone⟩ := State.alloc_of_chain (s := s.poolFlag 31) (ext := ext) (by simpa using hcounts) (by simpa using hc)
  have hgiven := closed_storesWf.alloc (a1 := ext) (closed_storesWf.poolFlag (a1 := 31) hwf)
  rw [State.diagAlloc]
  rw [halloc] at hgiven ⊢
  obtain ⟨-, -, hindex⟩ := hgiven
  simp only [State.poolFlag_leafList] at hchain hone ⊢
  exact ⟨State.idx_idxSet_self hindex _ _ _, hchain, hone⟩

theorem State.diagAlloc_of_empty (he : s.mem.poolErrors = []) (hc : (s.leafList ext).chain = 0)
    (hf : s.listSize ext ≤ (s.leafList ext).fresh) :
    (s.diagAlloc ext).idx 0xF041 0 = nilHandle ∧ (s.diagAlloc ext).leafList ext = s.leafList ext := by
  obtain ⟨-, -, hindex⟩ := hwf
  have halloc := State.alloc_of_empty (s := s.poolFlag 31) (ext := ext) (by simpa using he) (by simpa using hc) (by simpa using hf)
  rw [State.diagAlloc, halloc]
  exact ⟨State.idx_idxSet_self (by simpa using hindex) _ _ _, s.poolFlag_leafList 31 ext⟩

end DiagAlloc

section DiagFree

variable {s : State} (he : s.mem.poolErrors = []) {h : Nat}
include he

theorem State.diagFree_of_last (hcounts : fwf 0 s.switch.counts = true) {ext : Bool} (hx : isExternal h = ext) (hc : s.leafCount h ≤ 1) :
    ((s.poolFlag 31).freeLeaf h).1.leafList ext = ⟨h, (s.leafList ext).chain + 1, (s.leafList ext).fresh⟩ ∧
    ((s.poolFlag 31).freeLeaf h).1.leafCount h = (s.leafCount h + 255) % 256 ∧
    ((s.poolFlag 31).freeLeaf h).1.leafList (!ext) = s.leafList (!ext) := by
  obtain ⟨hlist, hother, hcount⟩ := State.freeLeaf_of_last (s := s.poolFlag 31) (by simpa using hcounts) (by simpa using he) (h := h)
    (by simpa using hc)
  simp only [State.poolFlag_leafList, State.poolFlag_leafCount, hx] at hlist hother hcount
  exact ⟨hlist, hcount, hother⟩

/-- A count that changes leaves both lists and memory alone. -/
theorem State.diagSetCount (hcounts : fwf 0 s.switch.counts = true) (c : Nat) :
    ((s.poolFlag 31).setLeafCount h c).leafCount h = c ∧
    (∀ ext, ((s.poolFlag 31).setLeafCount h c).leafList ext = s.leafList ext) ∧ ((s.poolFlag 31).setLeafCount h c).mem = s.mem := by
  refine ⟨State.leafCount_setLeafCount (by simpa using hcounts) _ _, fun ext => s.poolFlag_leafList 31 ext, ?_⟩
  rw [State.setLeafCount_of_sound (by simpa using he)]
  exact s.poolFlag_mem 31

end DiagFree

/-- Settles O28: a taking follows the list's chain, else its fresh leaves; a return or a reference is one count, and a last return puts
the leaf at the head of its list. -/
theorem leavesAreTakenAndGivenBack : Obligations.LeavesAreTakenAndGivenBack := by
  unfold Obligations.LeavesAreTakenAndGivenBack
  intro s h n hs hcanon hb hcounts he
  have hwf := storesWf_of_canonical hcanon
  have hflag : (s.poolFlag 31).mem.poolErrors = [] := by simpa using he
  refine ⟨fun hc hf => ?_, fun hc => ?_, fun hc hf => ?_, fun hc hf _ => ?_, fun hx hc => ?_, fun hx hc => ?_, fun hc => ?_, ?_⟩
  · exact ⟨_, execDiagAllocOnDie_eq hs hb, State.diagAlloc_of_fresh (ext := false) hwf hcounts he hc hf⟩
  · exact ⟨_, execDiagAllocOnDie_eq hs hb, State.diagAlloc_of_chain (ext := false) hwf hcounts hc⟩
  · exact ⟨_, execDiagAllocOnDie_eq hs hb, State.diagAlloc_of_empty (ext := false) hwf he hc hf⟩
  · obtain ⟨hidx, hlist, hother, hone, -, hmem⟩ := State.diagAlloc_of_fresh (ext := true) hwf hcounts he hc hf
    have hhandle : s.freshHandle true = 0x80000000 + s.switch.external.fresh := Nat.add_comm _ _
    rw [hhandle] at hidx hone
    exact ⟨_, execDiagAllocExternal_eq hs hb, hidx, hlist, hother, hone, hmem⟩
  · exact ⟨_, execDiagFree_eq hs hb h, State.diagFree_of_last he hcounts hx hc⟩
  · exact ⟨_, execDiagFree_eq hs hb h, State.diagFree_of_last he hcounts hx hc⟩
  · obtain ⟨hcount, hlists, hmem⟩ := State.diagSetCount he (h := h.toNat) hcounts ((s.leafCount h.toNat + 255) % 256)
    have hfree := State.freeLeaf_of_shared hflag (h := h.toNat) (by simpa using hc)
    have hexec := execDiagFree_eq hs hb h
    rw [hfree, State.poolFlag_leafCount] at hexec
    exact ⟨_, hexec, hcount, hlists false, hlists true, hmem⟩
  · obtain ⟨hcount, hlists, hmem⟩ := State.diagSetCount he (h := h.toNat) hcounts ((s.leafCount h.toNat + n.toNat) % 256)
    have href : (s.poolFlag 31).refLeaf h.toNat n.toNat = (s.poolFlag 31).setLeafCount h.toNat ((s.leafCount h.toNat + n.toNat) % 256) := by
      rw [State.refLeaf, State.poolRead_of_sound hflag, State.poolFlag_leafCount]
    have hexec := execDiagRef_eq hs hb h n
    rw [href] at hexec
    exact ⟨_, hexec, hcount, hlists false, hlists true, hmem⟩

end Sys2Proof.Machine
end

section
/-!
SUPPORT. What captures, freed leaves, returned credits and counts leave of the folio and of each port (R272, R275, R287).
-/
namespace Sys2Proof.Machine

open Sys2Proof

/-! ### Frames that are captured, freed and counted -/

/-- Port y is port x, but for the leaves charged to it and the credits that it has given back (R275). -/
def Port.Credited (x y : Port) : Prop :=
  ∃ freed charged, y = { x with freed := freed, charged := charged } ∧ (fwf 0 x.charged = true → fwf 0 charged = true)

theorem Port.Credited.refl (x : Port) : x.Credited x := ⟨_, _, rfl, id⟩

theorem Port.Credited.trans {x y z : Port} (h : x.Credited y) (k : y.Credited z) : x.Credited z := by
  obtain ⟨freed, charged, rfl, hwf⟩ := h
  obtain ⟨freed', charged', rfl, kwf⟩ := k
  exact ⟨_, _, rfl, kwf ∘ hwf⟩

/-- From s to t, frames may have been captured, their leaves freed and drops counted: what waits in the switch stands, as do the
entries outside the chapters 0x4000 to 0x7FFF, and each port but for its leaves and credits. -/
structure FramesGo (s t : State) : Prop where
  frame : ∃ n i m sw po r, t =
    { s with freshCount := n, index := i, mem := m, switch := sw, ports := po, proof := { s.proof with mirror := r } }
  switch : ∃ od ex cn sh su ls mc mt, t.switch = { s.switch with
    onDie := od, external := ex, counts := cn, shares := sh, shareUsed := su, leaves := ls, poolStatus := t.switch.poolStatus,
    mirrorCount := mc, mirrorsThisCycle := mt }
  mark : bit t.switch.poolStatus 29 = bit s.switch.poolStatus 29
  idx : ∀ i sub, sub < 256 → i < 0x4000 ∨ 0x8000 ≤ i → t.idx i sub = s.idx i sub
  ports : fwf Port.reset s.ports = true → fwf Port.reset t.ports = true ∧ ∀ q, (s.port q).Credited (t.port q)

namespace FramesGo

variable {s t u : State}

/-- A change that leaves the ports and the Index alone. -/
theorem of_switch {sw : Switch} {m : Memory} (h : t = { s with switch := sw, mem := m })
    (hw : ∃ od ex cn sh su ls mc mt, sw = { s.switch with
      onDie := od, external := ex, counts := cn, shares := sh, shareUsed := su, leaves := ls, mirrorCount := mc,
      mirrorsThisCycle := mt }) : FramesGo s t := by
  obtain ⟨od, ex, cn, sh, su, ls, mc, mt, rfl⟩ := hw
  subst h
  exact ⟨⟨_, _, _, _, _, _, rfl⟩, ⟨_, _, _, _, _, _, _, _, rfl⟩, rfl, fun _ _ _ _ => rfl, fun hp => ⟨hp, fun _ => .refl _⟩⟩

theorem refl (s : State) : FramesGo s s := of_switch rfl ⟨_, _, _, _, _, _, _, _, rfl⟩

theorem trans (h : FramesGo s t) (k : FramesGo t u) : FramesGo s u := by
  obtain ⟨⟨n, i, m, sw, po, r, rfl⟩, ⟨od, ex, cn, sh, su, ls, mc, mt, hw⟩, hmark, hidx, hports⟩ := h
  obtain ⟨⟨n', i', m', sw', po', r', rfl⟩, ⟨od', ex', cn', sh', su', ls', mc', mt', kw⟩, kmark, kidx, kports⟩ := k
  refine ⟨⟨_, _, _, _, _, _, rfl⟩, ⟨od', ex', cn', sh', su', ls', mc', mt', ?_⟩, kmark.trans hmark,
    fun i sub hs hi => (kidx i sub hs hi).trans (hidx i sub hs hi), fun hp => ?_⟩
  · rw [hw] at kw
    exact kw
  · obtain ⟨hwf, hport⟩ := hports hp
    obtain ⟨kwf, kport⟩ := kports hwf
    exact ⟨kwf, fun q => (hport q).trans (kport q)⟩

theorem ite {b : Prop} [Decidable b] (ht : FramesGo s t) (hu : FramesGo s u) : FramesGo s (if b then t else u) := P_ite ht hu

theorem ite_fst {β : Type} {b : Prop} [Decidable b] {p q : State × β} (hp : FramesGo s p.1) (hq : FramesGo s q.1) :
    FramesGo s (if b then p else q).1 := P_ite1 hp hq

theorem foldl {β : Type} {f : State → β → State} (hf : ∀ v a, FramesGo v (f v a)) (l : List β) (s : State) :
    FramesGo s (l.foldl f s) := P_foldl (P := FramesGo s) (.refl s) fun v a hv => hv.trans (hf v a)

/-- What reads and writes leaves alone captures, frees and counts nothing. -/
theorem of_notes (h : PoolNotes s t) : FramesGo s t := by
  obtain ⟨⟨⟨n, i, m, sw, r, rfl⟩, hidx⟩, ⟨su, ls, hw⟩, hmark⟩ := h
  refine ⟨⟨_, _, _, _, _, _, rfl⟩, ⟨_, _, _, _, su, ls, _, _, hw⟩, hmark, fun i sub hs hi => hidx i sub ?_,
    fun hp => ⟨hp, fun _ => .refl _⟩⟩
  unfold ikey
  omega

theorem setPort (s : State) {p : Nat} {x : Port} (h : (s.port p).Credited x) : FramesGo s (s.setPort p x) := by
  refine ⟨⟨_, _, _, _, _, _, rfl⟩, ⟨_, _, _, _, _, _, _, _, rfl⟩, rfl, fun _ _ _ _ => rfl,
    fun hp => ⟨fwf_fset hp _ _, fun q => ?_⟩⟩
  by_cases hq : q = p
  · rw [hq, State.port_setPort_self hp]
    exact h
  · rw [State.port_setPort_ne _ _ hq]
    exact .refl _

theorem count (s : State) {i sub : Nat} (hi : 0x4000 ≤ i ∧ i < 0x8000) (hs : sub < 256) (n : Nat) : FramesGo s (s.count i sub n) := by
  refine ⟨⟨_, _, _, _, _, _, rfl⟩, ⟨_, _, _, _, _, _, _, _, rfl⟩, rfl, fun j k hk hj => State.idx_idxSet_ne s _ fun e => ?_,
    fun hp => ⟨hp, fun _ => .refl _⟩⟩
  obtain ⟨rfl, -⟩ := ikey_inj hk hs e
  omega

end FramesGo

theorem State.setLeafList_framesGo (s : State) (ext : Bool) (l : LeafList) : FramesGo s (s.setLeafList ext l) :=
  .ite (.of_switch rfl ⟨_, _, _, _, _, _, _, _, rfl⟩) (.of_switch rfl ⟨_, _, _, _, _, _, _, _, rfl⟩)

theorem State.setLeafCount_framesGo (s : State) (h c : Nat) : FramesGo s (s.setLeafCount h c) :=
  .of_switch rfl ⟨_, _, _, _, _, _, _, _, rfl⟩

theorem State.freeLeaf_framesGo (s : State) (h : Nat) : FramesGo s (s.freeLeaf h).1 := by
  unfold State.freeLeaf
  extract_lets c s1 ext l s2
  have h1 : FramesGo s s1 := (FramesGo.of_notes (s.poolRead_poolNotes _ _)).trans (State.setLeafCount_framesGo _ _ _)
  have h2 : FramesGo s s2 := h1.trans (.of_notes
    (((State.poolRead_poolNotes _ _ _).trans (State.poolRead_poolNotes _ _ _)).trans (State.writeLeaf_poolNotes _ _ _ _)))
  refine .ite_fst ?_ h1
  exact (h2.trans (State.setLeafList_framesGo _ _ _)).trans
    (.of_notes ((State.poolWritten_poolNotes _ _).trans (State.poolWritten_poolNotes _ _)))

theorem State.freeLeaves_framesGo (s : State) (hs : List Nat) : FramesGo s (s.freeLeaves hs) :=
  .foldl (fun v h => v.freeLeaf_framesGo h) hs s

theorem State.creditFreed_framesGo (s : State) (p v n : Nat) : FramesGo s (s.creditFreed p v n) := .setPort s ⟨_, _, rfl, id⟩

theorem State.creditReturn_framesGo (s : State) (p v n : Nat) : FramesGo s (s.creditReturn p v n) :=
  (FramesGo.setPort s ⟨_, _, rfl, fun h => fwf_fset h _ _⟩).trans (State.creditFreed_framesGo _ _ _ _)

theorem State.creditCopy_framesGo (s : State) (f : Frame) : FramesGo s (s.creditCopy f) := by
  refine .ite (.refl s) (.ite (s.creditFreed_framesGo _ _ _) ?_)
  split
  · exact s.creditReturn_framesGo _ _ _
  · exact .of_switch rfl ⟨_, _, _, _, _, _, _, _, rfl⟩

theorem State.freeFrame_framesGo (s : State) (f : Frame) : FramesGo s (s.freeFrame f) :=
  (s.freeLeaves_framesGo _).trans (State.creditCopy_framesGo _ f)

/-! ### Captures (R287) -/

/-- From s to t, captures may have happened: of the switch only the count of selected frames and the captures of the cycle have
changed. -/
structure Captured (s t : State) : Prop where
  go : FramesGo s t
  switch : ∃ mc mt, t.switch = { s.switch with mirrorCount := mc, mirrorsThisCycle := mt }
  ports : t.ports = s.ports

namespace Captured

variable {s t u : State}

theorem refl (s : State) : Captured s s := ⟨.refl s, ⟨_, _, rfl⟩, rfl⟩

theorem trans (h : Captured s t) (k : Captured t u) : Captured s u := by
  obtain ⟨hgo, ⟨mc, mt, hw⟩, hports⟩ := h
  obtain ⟨kgo, ⟨mc', mt', kw⟩, kports⟩ := k
  refine ⟨hgo.trans kgo, ⟨mc', mt', ?_⟩, kports.trans hports⟩
  rw [hw] at kw
  exact kw

theorem withSwitch (s : State) (mc : FMap Nat) (mt : Nat × Nat) :
    Captured s { s with switch := { s.switch with mirrorCount := mc, mirrorsThisCycle := mt } } :=
  ⟨.of_switch rfl ⟨_, _, _, _, _, _, _, _, rfl⟩, ⟨_, _, rfl⟩, rfl⟩

theorem port (h : Captured s t) (p : Nat) : t.port p = s.port p := by rw [State.port, h.ports, State.port]

end Captured

theorem State.writeMem_captured (s : State) (a : Nat) (data : Bytes) (unit : Nat) : Captured s (s.writeMem a data unit) := by
  have hnotes := s.writeMem_poolNotes a data unit
  refine ⟨.of_notes hnotes, ⟨_, _, (s.writeMem_storesOnly a data unit).switch⟩, ?_⟩
  obtain ⟨⟨⟨n, i, m, sw, r, h⟩, -⟩, -, -⟩ := hnotes
  rw [h]

theorem State.mirrorSession_captured (s : State) {m : Nat} (hm : m < 4) (c : Capture) : Captured s (s.mirrorSession m c) := by
  have hcount := Captured.withSwitch s (fset 0 s.switch.mirrorCount m (fget 0 s.switch.mirrorCount m + 1)) s.switch.mirrorsThisCycle
  unfold State.mirrorSession
  dsimp only
  refine P_ite (.refl s) (P_ite hcount (P_ite (hcount.trans ⟨.count _ (by omega) (by decide) _, ⟨_, _, rfl⟩, rfl⟩) ?_))
  exact ((hcount.trans (State.writeMem_captured _ _ _ _)).trans (State.writeMem_captured _ _ _ _)).trans (.withSwitch _ _ _)

theorem State.mirrorIngress_captured (s : State) (f : Frame) (reason : Nat) : Captured s (s.mirrorIngress f reason) :=
  (((s.mirrorSession_captured (by decide) _).trans (State.mirrorSession_captured _ (by decide) _)).trans
    (State.mirrorSession_captured _ (by decide) _)).trans (State.mirrorSession_captured _ (by decide) _)

/-! ### Drops at ingress (R286, R287) -/

theorem State.dropIngress_framesGo (s : State) (f : Frame) {entry sub : Nat} (he : 0x4000 ≤ entry ∧ entry < 0x8000) (hs : sub < 256)
    (reason : Nat) : FramesGo s (s.dropIngress f entry sub reason) :=
  ((s.mirrorIngress_captured f reason).go.trans (State.freeFrame_framesGo _ f)).trans (.count _ he hs 1)

end Sys2Proof.Machine
end

section
/-!
SUPPORT. The pool starts again (R281): what its drains and discards leave of the folio and of each port, the end of the drain, and the
settlement of O27.
-/
namespace Sys2Proof.Machine

open Sys2Proof

/-! ### Folds that establish a property -/

/-- What one element of a list establishes under an invariant, and every element keeps, holds behind the list. -/
theorem foldl_establishes {α β : Type} {I Q : β → Prop} {g : β → α → β} {l : List α}
    (hI : ∀ t, ∀ a ∈ l, I t → I (g t a)) (hQ : ∀ t, ∀ a ∈ l, I t → Q t → Q (g t a)) {a : α} (ha : a ∈ l)
    (hset : ∀ t, I t → Q (g t a)) {t : β} (ht : I t) : Q (l.foldl g t) := by
  have hkeep : ∀ (m : List α) (u : β), m ⊆ l → I u → Q u → Q (m.foldl g u) := fun m => by
    induction m with
    | nil => exact fun _ _ _ hu => hu
    | cons b m ih =>
      intro u hm hu hq
      obtain ⟨hb, hm⟩ := List.cons_subset.1 hm
      exact ih _ hm (hI u b hb hu) (hQ u b hb hu hq)
  obtain ⟨before, behind, rfl⟩ := List.append_of_mem ha
  have hbefore : I (before.foldl g t) :=
    List.foldlRecOn before g ht fun u hu b hb => hI u b (List.mem_append_left _ hb) hu
  rw [List.foldl_append, List.foldl_cons]
  exact hkeep behind _ (fun b hb => by simp [hb]) (hI _ a ha hbefore) (hset _ hbefore)

/-! ### What drains and discards leave -/

/-- From port x to port y frames may have gone: none has come to wait, and a queue keeps its frames or has lost them all. -/
structure Port.Shrinks (x y : Port) : Prop where
  waiting : ∀ f ∈ y.waiting, f ∈ x.waiting
  queues : fwf Queue.reset x.queues = true →
    fwf Queue.reset y.queues = true ∧ ∀ v, (y.queue v).frames = (x.queue v).frames ∨ (y.queue v).frames = []
  charged : fwf 0 x.charged = true → fwf 0 y.charged = true

namespace Port.Shrinks

variable {x y z : Port}

theorem refl (x : Port) : x.Shrinks x := ⟨fun _ h => h, fun h => ⟨h, fun _ => .inl rfl⟩, id⟩

theorem trans (h : x.Shrinks y) (k : y.Shrinks z) : x.Shrinks z := by
  refine ⟨fun f hf => h.waiting f (k.waiting f hf), fun hx => ?_, k.charged ∘ h.charged⟩
  obtain ⟨hy, hframes⟩ := h.queues hx
  obtain ⟨hz, kframes⟩ := k.queues hy
  exact ⟨hz, fun v => (kframes v).elim (fun e => (hframes v).imp e.trans e.trans) .inr⟩

theorem of_credited (h : x.Credited y) : x.Shrinks y := by
  obtain ⟨freed, charged, rfl, hwf⟩ := h
  exact ⟨fun _ h => h, fun h => ⟨h, fun _ => .inl rfl⟩, hwf⟩

/-- A queue is emptied. -/
theorem setQueue (x : Port) (v : Nat) {q : Queue} (hq : q.frames = []) : x.Shrinks (x.setQueue v q) := by
  refine ⟨fun _ h => h, fun h => ⟨fwf_fset h _ _, fun w => ?_⟩, id⟩
  by_cases hw : w = v
  · rw [hw, Port.queue_setQueue_self h]
    exact .inr hq
  · exact .inl (by rw [Port.queue_setQueue_ne _ _ hw])

end Port.Shrinks

/-- From s to t the pool may have drained: frames have gone, and their leaves, and nothing else that waits in the switch; the entries
outside the chapters 0x4000 to 0x7FFF stand. -/
structure Drains (s t : State) : Prop where
  frame : ∃ n i m sw po r, t =
    { s with freshCount := n, index := i, mem := m, switch := sw, ports := po, proof := { s.proof with mirror := r } }
  requests : t.switch.requests = s.switch.requests
  replies : t.switch.replies = s.switch.replies
  owed : t.switch.reinitReply = s.switch.reinitReply
  since : t.switch.reinitSince = s.switch.reinitSince
  mark : bit t.switch.poolStatus 29 = bit s.switch.poolStatus 29
  idx : ∀ i sub, sub < 256 → i < 0x4000 ∨ 0x8000 ≤ i → t.idx i sub = s.idx i sub
  ports : fwf Port.reset s.ports = true → fwf Port.reset t.ports = true ∧ ∀ q, (s.port q).Shrinks (t.port q)

namespace Drains

variable {s t u : State}

theorem of_framesGo (h : FramesGo s t) : Drains s t := by
  obtain ⟨hframe, ⟨od, ex, cn, sh, su, ls, mc, mt, hw⟩, hmark, hidx, hports⟩ := h
  refine ⟨hframe, by rw [hw], by rw [hw], by rw [hw], by rw [hw], hmark, hidx, fun hp => ?_⟩
  obtain ⟨hwf, hport⟩ := hports hp
  exact ⟨hwf, fun q => .of_credited (hport q)⟩

theorem refl (s : State) : Drains s s := of_framesGo (.refl s)

theorem trans (h : Drains s t) (k : Drains t u) : Drains s u := by
  obtain ⟨⟨n, i, m, sw, po, r, rfl⟩, hrequests, hreplies, howed, hsince, hmark, hidx, hports⟩ := h
  obtain ⟨⟨n', i', m', sw', po', r', rfl⟩, krequests, kreplies, kowed, ksince, kmark, kidx, kports⟩ := k
  refine ⟨⟨_, _, _, _, _, _, rfl⟩, krequests.trans hrequests, kreplies.trans hreplies, kowed.trans howed, ksince.trans hsince,
    kmark.trans hmark, fun i sub hs hi => (kidx i sub hs hi).trans (hidx i sub hs hi), fun hp => ?_⟩
  obtain ⟨hwf, hport⟩ := hports hp
  obtain ⟨kwf, kport⟩ := kports hwf
  exact ⟨kwf, fun q => (hport q).trans (kport q)⟩

theorem ite {b : Prop} [Decidable b] (ht : Drains s t) (hu : Drains s u) : Drains s (if b then t else u) := P_ite ht hu

theorem foldl {β : Type} {f : State → β → State} {l : List β} (hf : ∀ v, ∀ a ∈ l, Drains v (f v a)) (s : State) :
    Drains s (l.foldl f s) := List.foldlRecOn l f (.refl s) fun v hv a ha => hv.trans (hf v a ha)

theorem setPort (s : State) {p : Nat} {x : Port} (h : (s.port p).Shrinks x) : Drains s (s.setPort p x) := by
  refine ⟨⟨_, _, _, _, _, _, rfl⟩, rfl, rfl, rfl, rfl, rfl, fun _ _ _ _ => rfl, fun hp => ⟨fwf_fset hp _ _, fun q => ?_⟩⟩
  by_cases hq : q = p
  · rw [hq, State.port_setPort_self hp]
    exact h
  · rw [State.port_setPort_ne _ _ hq]
    exact .refl _

theorem idxSet (s : State) {i sub : Nat} (hi : 0x4000 ≤ i ∧ i < 0x8000) (hs : sub < 256) (v : Nat) : Drains s (s.idxSet i sub v) := by
  refine ⟨⟨_, _, _, _, _, _, rfl⟩, rfl, rfl, rfl, rfl, rfl, fun j k hk hj => State.idx_idxSet_ne s _ fun e => ?_,
    fun hp => ⟨hp, fun _ => .refl _⟩⟩
  obtain ⟨rfl, -⟩ := ikey_inj hk hs e
  omega

theorem withMem (s : State) (m : Memory) : Drains s { s with mem := m } :=
  ⟨⟨_, _, _, _, _, _, rfl⟩, rfl, rfl, rfl, rfl, rfl, fun _ _ _ _ => rfl, fun hp => ⟨hp, fun _ => .refl _⟩⟩

theorem cores (h : Drains s t) : t.cores = s.cores := by
  obtain ⟨⟨n, i, m, sw, po, r, rfl⟩, -⟩ := h
  rfl

theorem ctxs (h : Drains s t) : t.ctxs = s.ctxs := by
  obtain ⟨⟨n, i, m, sw, po, r, rfl⟩, -⟩ := h
  rfl

end Drains

/-- Only lossless frames wait at port p for lookup. -/
def WaitsLossless (p : Nat) (s : State) : Prop := ∀ f ∈ (s.port p).waiting, 4 ≤ f.vc

/-- Queue v of port p holds no frame. -/
def QueueEmpty (p v : Nat) (s : State) : Prop := ((s.port p).queue v).frames = []

namespace Drains

variable {s t : State} (h : Drains s t) {p : Nat}
include h

theorem portsWf (hp : fwf Port.reset s.ports = true) : fwf Port.reset t.ports = true := (h.ports hp).1

theorem shrinks (hp : fwf Port.reset s.ports = true) (q : Nat) : (s.port q).Shrinks (t.port q) := (h.ports hp).2 q

theorem waitsLossless (hp : fwf Port.reset s.ports = true) (hw : WaitsLossless p s) : WaitsLossless p t := fun f hf =>
  hw f ((h.shrinks hp p).waiting f hf)

theorem portCanonical (hc : PortCanonical p s) : PortCanonical p t := by
  obtain ⟨hp, hq⟩ := hc
  exact ⟨h.portsWf hp, ((h.shrinks hp p).queues hq).1⟩

theorem queueEmpty (hc : PortCanonical p s) {v : Nat} (he : QueueEmpty p v s) : QueueEmpty p v t := by
  obtain ⟨hp, hq⟩ := hc
  obtain ⟨-, hframes⟩ := (h.shrinks hp p).queues hq
  exact (hframes v).elim (fun e => e.trans he) id

end Drains

theorem State.freeAll_drains (s : State) (fs : List Frame) : Drains s (fs.foldl (fun s f => State.freeFrame s f) s) :=
  .foldl (fun v f _ => .of_framesGo (v.freeFrame_framesGo f)) s

/-! ### Lossy frames go (R281, steps 1 and 2) -/

/-- A lossy queue of a port at the start of a reinitialization: its frames are freed and counted as its tail drops. -/
def State.emptyLossy (p : Nat) (s : State) (v : Nat) : State :=
  let x := State.port s p
  let q := x.queue v
  if q.frames.isEmpty then s
  else
    let s := State.setPort s p (x.setQueue v { q with frames := [], tagged := false, emptySince := State.now s })
    (q.frames.foldl (fun s f => State.freeFrame s f) s).count (0x4110 + v) p q.frames.length

/-- A port at the start of a reinitialization: lossy frames that wait for lookup are dropped. -/
def State.dropWaitingLossy (s : State) (p : Nat) : State :=
  let x := State.port s p
  (x.waiting.filter (fun f => decide (f.vc < 4))).foldl (fun s f => State.dropIngress s f 0x4005 0 7)
    (State.setPort s p { x with waiting := x.waiting.filter (fun f => decide (4 ≤ f.vc)) })

theorem State.emptyLossy_drains (s : State) {p v : Nat} (hp : p < 256) (hv : v < 4) : Drains s (s.emptyLossy p v) := by
  refine .ite (.refl s) (((Drains.setPort s (.setQueue _ v ?_)).trans (State.freeAll_drains _ _)).trans
    (.of_framesGo (.count _ (by omega) hp _)))
  rfl

theorem State.dropWaitingLossy_drains (s : State) (p : Nat) : Drains s (s.dropWaitingLossy p) ∧
    (fwf Port.reset s.ports = true → WaitsLossless p (s.dropWaitingLossy p)) := by
  have hset := Drains.setPort s (p := p) (x := { s.port p with waiting := (s.port p).waiting.filter (fun f => decide (4 ≤ f.vc)) })
    ⟨fun f hf => List.mem_of_mem_filter hf, fun h => ⟨h, fun _ => .inl rfl⟩, id⟩
  have hdrop := Drains.foldl (f := fun s f => State.dropIngress s f 0x4005 0 7)
    (l := (s.port p).waiting.filter (fun f => decide (f.vc < 4)))
    (fun v f _ => .of_framesGo (v.dropIngress_framesGo f (by decide) (by decide) 7))
    (s.setPort p { s.port p with waiting := (s.port p).waiting.filter (fun f => decide (4 ≤ f.vc)) })
  refine ⟨hset.trans hdrop, fun hp => hdrop.waitsLossless (fwf_fset hp _ _) fun f hf => ?_⟩
  rw [State.port_setPort_self hp] at hf
  exact of_decide_eq_true (List.mem_filter.1 hf).2

theorem State.emptyLossy_empties {s : State} {p v : Nat} (hc : PortCanonical p s) (hp : p < 256) (hv : v < 4) :
    QueueEmpty p v (s.emptyLossy p v) := by
  unfold State.emptyLossy
  extract_lets x q s1
  split
  · next h => exact List.isEmpty_iff.1 h
  · have hfree : Drains s1 ((q.frames.foldl (fun s f => State.freeFrame s f) s1).count (0x4110 + v) p q.frames.length) :=
      (s1.freeAll_drains q.frames).trans (.of_framesGo (.count _ (by omega) hp _))
    obtain ⟨hcan, hport⟩ := State.setPort_setQueue hc v { q with frames := [], tagged := false, emptySince := s.now }
    obtain ⟨-, hqueues⟩ := hc
    refine hfree.queueEmpty hcan ?_
    rw [QueueEmpty, hport, Port.queue_setQueue_self hqueues]

theorem State.emptyAllLossy_drains (s : State) {p : Nat} (hp : p < 256) : Drains s ([0, 1, 2, 3].foldl (State.emptyLossy p) s) := by
  refine .foldl (fun v c hc => v.emptyLossy_drains hp ?_) s
  simp only [List.mem_cons, List.not_mem_nil, or_false] at hc
  omega

theorem State.emptyAllLossy_empties {s : State} {p v : Nat} (hc : PortCanonical p s) (hp : p < 256) (hv : v < 4) :
    QueueEmpty p v ([0, 1, 2, 3].foldl (State.emptyLossy p) s) := by
  have hstep : ∀ t : State, ∀ c ∈ [0, 1, 2, 3], Drains t (t.emptyLossy p c) := fun t c hmem => t.emptyLossy_drains hp (by
    simp only [List.mem_cons, List.not_mem_nil, or_false] at hmem
    omega)
  refine foldl_establishes (I := PortCanonical p) (Q := QueueEmpty p v) (fun t c hmem ht => (hstep t c hmem).portCanonical ht)
    (fun t c hmem ht hq => (hstep t c hmem).queueEmpty ht hq) ?_ (fun t ht => t.emptyLossy_empties ht hp hv) hc
  simp only [List.mem_cons, List.not_mem_nil, or_false]
  omega

/-- A port at the start of a reinitialization. -/
def State.clearPort (s : State) (p : Nat) : State := [0, 1, 2, 3].foldl (State.emptyLossy p) (s.dropWaitingLossy p)

theorem State.clearPort_drains (s : State) {p : Nat} (hp : p < 256) : Drains s (s.clearPort p) :=
  (s.dropWaitingLossy_drains p).1.trans (State.emptyAllLossy_drains _ hp)

/-- What an accepted reinitialization has noted before it drops a frame. -/
def State.reinitNoted (s : State) : State := State.poolFlag { s with switch := { s.switch with reinitSince := some s.clock.stitch } } 29

theorem State.reinitStart_eq (s : State) : s.reinitStart = (List.range 129).foldl State.clearPort s.reinitNoted := rfl

theorem clearPort_of_range (t : State) (p : Nat) (hp : p ∈ List.range 129) : Drains t (t.clearPort p) :=
  t.clearPort_drains ((List.mem_range.1 hp).trans (by decide))

theorem State.reinitStart_drains (s : State) : Drains s.reinitNoted s.reinitStart := by
  rw [State.reinitStart_eq]
  exact .foldl clearPort_of_range _

theorem State.reinitNoted_port (s : State) (p : Nat) : s.reinitNoted.port p = s.port p := by
  obtain ⟨ps, h⟩ := State.poolFlag_frame { s with switch := { s.switch with reinitSince := some s.clock.stitch } } 29
  rw [State.reinitNoted, h]
  rfl

theorem State.reinitNoted_ports (s : State) : s.reinitNoted.ports = s.ports := by
  obtain ⟨ps, h⟩ := State.poolFlag_frame { s with switch := { s.switch with reinitSince := some s.clock.stitch } } 29
  rw [State.reinitNoted, h]

theorem State.reinitStart_noted (s : State) : s.reinitStart.switch.reinitSince = some s.clock.stitch ∧
    bit s.reinitStart.switch.poolStatus 29 = true ∧ s.reinitStart.cores = s.cores ∧ s.reinitStart.ctxs = s.ctxs := by
  have hdrains := s.reinitStart_drains
  obtain ⟨ps, h⟩ := State.poolFlag_frame { s with switch := { s.switch with reinitSince := some s.clock.stitch } } 29
  rw [hdrains.since, hdrains.mark, hdrains.cores, hdrains.ctxs]
  refine ⟨?_, State.bit_poolFlag _ _, ?_, ?_⟩ <;> rw [State.reinitNoted, h]

section Start

variable {s : State} {p : Nat} (hp : p < 129)
include hp

theorem State.reinitStart_waitsLossless (hports : fwf Port.reset s.ports = true) : WaitsLossless p s.reinitStart := by
  rw [State.reinitStart_eq]
  refine foldl_establishes (I := fun t : State => fwf Port.reset t.ports = true) (Q := WaitsLossless p)
    (fun t a ha ht => (clearPort_of_range t a ha).portsWf ht) (fun t a ha ht hq => (clearPort_of_range t a ha).waitsLossless ht hq)
    (List.mem_range.2 hp) (fun t ht => ?_) (by rwa [State.reinitNoted_ports])
  obtain ⟨hdrops, hwaits⟩ := t.dropWaitingLossy_drains p
  exact (State.emptyAllLossy_drains _ (by omega)).waitsLossless (hdrops.portsWf ht) (hwaits ht)

theorem State.reinitStart_queueEmpty (hc : PortCanonical p s) {v : Nat} (hv : v < 4) : QueueEmpty p v s.reinitStart := by
  rw [State.reinitStart_eq]
  refine foldl_establishes (I := PortCanonical p) (Q := QueueEmpty p v) (fun t a ha ht => (clearPort_of_range t a ha).portCanonical ht)
    (fun t a ha ht hq => (clearPort_of_range t a ha).queueEmpty ht hq) (List.mem_range.2 hp) (fun t ht => ?_)
    (by rwa [PortCanonical, State.reinitNoted_ports, State.reinitNoted_port])
  obtain ⟨hdrops, -⟩ := t.dropWaitingLossy_drains p
  exact State.emptyAllLossy_empties (hdrops.portCanonical ht) (by omega) hv

end Start

/-! ### The command (R281, Table 11.7) -/

theorem entryOf_reinitialize : entryOf 0x4048 0 = some (commandRow 0x4048) :=
  entryOf_of_only (by decide +kernel) le_rfl le_rfl le_rfl le_rfl (by decide +kernel)

section Command

variable {s : State} (hs : Serves s)
include hs

theorem execPoolReinitialize_starts (hb : s.binding.loaded = false) (hr : s.switch.reinitSince = none) :
    execPoolReinitialize s = s.ends (s.reinitStart.noteAccess 0 []) :=
  congrArg s.ends (State.writeNumber_of_allowed hs entryOf_reinitialize (by decide) (by decide)
    (by simp [State.numericStatus, State.refusesSwitch, hb, hr, b2n]))

theorem execPoolReinitialize_refuses (h : s.binding.loaded = true ∨ s.switch.reinitSince ≠ none) :
    execPoolReinitialize s = .next (s.noteAccess 1 []) := by
  have hst : s.numericStatus s [(0x4048, 0)] 0x4048 0 1 = 1 := by
    have hrefuses : s.refusesSwitch 0x4048 0 1 = true := by simpa [State.refusesSwitch, Option.isSome_iff_ne_none] using h
    simp [State.numericStatus, hrefuses, b2n]
  exact (congrArg s.ends (State.writeNumber_of_refused hs entryOf_reinitialize (by decide) (by decide) hst (by decide))).trans
    (State.ends_of_fixed rfl rfl)

end Command

/-! ### The discard of what still waits (R281, step 3) -/

/-- The lossless queues of a port are emptied. -/
theorem Port.shrinks_of_emptied (x : Port) (now : Nat) : x.Shrinks ([4, 5, 6, 7].foldl (fun x v =>
    if (Port.queue x v).frames.isEmpty then x
    else x.setQueue v { Port.queue x v with frames := [], tagged := false, emptySince := now }) x) := by
  refine List.foldlRecOn (motive := fun y => x.Shrinks y) _ _ (.refl x) fun y hy v _ => ?_
  split
  · exact hy
  · exact hy.trans (.setQueue y v rfl)

theorem State.countHeld_drains (s : State) (fs : List Frame) : Drains s (if fs.isEmpty then s else s.count 0x4049 0 fs.length) :=
  .ite (.refl s) (.of_framesGo (.count s (by decide) (by decide) _))

/-- Compute frames that wait in the switch are discarded. -/
def State.discardHeld (s : State) : State :=
  let held := s.switch.computeHeld
  let s := held.foldl (fun s f => State.freeFrame s f)
    { s with switch := { s.switch with fragments := [], stalled := [], proofFrames := [], copyFrames := [] } }
  if held.isEmpty then s else s.count 0x4049 0 held.length

/-- The lossless frames that a port holds are discarded. -/
def State.discardPort (s : State) (p : Nat) : State :=
  let x := s.port p
  let held := x.losslessHeld
  let x := { x with waiting := x.waiting.filter (fun f => decide (f.vc < 4)), sending := x.sending.map s.outOfLeaves }
  let x := [4, 5, 6, 7].foldl (fun x v =>
    if (Port.queue x v).frames.isEmpty then x
    else x.setQueue v { Port.queue x v with frames := [], tagged := false, emptySince := s.now }) x
  let s := held.foldl (fun s f => State.freeFrame s f) (s.setPort p x)
  if held.isEmpty then s else s.count 0x4049 0 held.length

theorem State.reinitDiscard_eq (s : State) : s.reinitDiscard = (List.range 129).foldl State.discardPort s.discardHeld := rfl

theorem State.discardHeld_drains (s : State) : Drains s s.discardHeld := by
  have hfragments : Drains s { s with switch := { s.switch with fragments := [], stalled := [], proofFrames := [], copyFrames := [] } } :=
    ⟨⟨_, _, _, _, _, _, rfl⟩, rfl, rfl, rfl, rfl, rfl, fun _ _ _ _ => rfl, fun hp => ⟨hp, fun _ => .refl _⟩⟩
  exact (hfragments.trans (State.freeAll_drains _ _)).trans (State.countHeld_drains _ _)

theorem State.discardPort_drains (s : State) (p : Nat) : Drains s (s.discardPort p) := by
  unfold State.discardPort
  extract_lets x held x1 x2 s1
  have hlossy : x.Shrinks x1 := ⟨fun f hf => List.mem_of_mem_filter hf, fun h => ⟨h, fun _ => .inl rfl⟩, id⟩
  have hport : x.Shrinks x2 := hlossy.trans (x1.shrinks_of_emptied s.now)
  exact ((Drains.setPort s hport).trans (State.freeAll_drains _ held)).trans (State.countHeld_drains _ held)

theorem State.reinitDiscard_drains (s : State) : Drains s s.reinitDiscard := by
  rw [State.reinitDiscard_eq]
  exact s.discardHeld_drains.trans (.foldl (fun v p _ => v.discardPort_drains p) _)

/-! ### The regions laid out again (R309, R310) -/

theorem State.clearStaged_drains (s : State) : Drains s s.clearStaged :=
  (Drains.withMem s _).trans (.idxSet _ (by decide) (by decide) _)

theorem State.carve_drains (s : State) (overflow staging : Nat) : Drains s (s.carve overflow staging) := by
  refine .ite (.refl s) ((((s.clearStaged_drains.trans (.idxSet _ ?_ ?_ _)).trans (.idxSet _ ?_ ?_ _)).trans (.idxSet _ ?_ ?_ _)).trans
    (.withMem _ _)) <;> decide

/-! ### No leaf is charged any more (R281, steps 4 and 5) -/

/-- From s to t only ports have changed. -/
def PortsOnly (s t : State) : Prop := t = { s with ports := t.ports }

theorem PortsOnly.setPort (s : State) (p : Nat) (x : Port) : PortsOnly s (s.setPort p x) := rfl

theorem PortsOnly.trans {s t u : State} (h : PortsOnly s t) (k : PortsOnly t u) : PortsOnly s u := by
  rw [PortsOnly, h] at k
  exact k

theorem PortsOnly.foldl {α : Type} {g : State → α → State} (hg : ∀ t a, PortsOnly t (g t a)) (l : List α) (s : State) :
    PortsOnly s (l.foldl g s) := P_foldl (P := PortsOnly s) rfl fun t a ht => ht.trans (hg t a)

/-- The leaves charged to a virtual channel of a port go back. -/
def State.chargeBack (p : Nat) (s : State) (v : Nat) : State := s.creditReturn p v ((s.port p).charge v)

/-- The leaves charged to a port go back. -/
def State.chargePortBack (s : State) (p : Nat) : State := [4, 5, 6, 7].foldl (State.chargeBack p) s

theorem State.chargesBack_eq (s : State) : s.chargesBack = (s.ports.map Prod.fst).foldl State.chargePortBack s := by
  rw [List.foldl_map]
  rfl

theorem State.chargesBack_portsOnly (s : State) : PortsOnly s s.chargesBack := by
  rw [State.chargesBack_eq]
  exact .foldl (fun t q => .foldl (fun u v => (PortsOnly.setPort u _ _).trans (.setPort _ _ _)) _ t) _ s

theorem State.reseed_portsOnly (s : State) : PortsOnly s s.reseed := by
  unfold State.reseed
  exact .foldl (fun t p => .setPort t p _) _ s

/-- The stores that hold port p and its charges are canonical. -/
abbrev ChargesWf (p : Nat) (s : State) : Prop := fwf Port.reset s.ports = true ∧ fwf 0 (s.port p).charged = true

/-- Nothing is charged to virtual channel v of port p. -/
def Uncharged (p v : Nat) (s : State) : Prop := (s.port p).charge v = 0

section ChargeBack

variable {s : State} {p : Nat} (h : ChargesWf p s)
include h

theorem State.charged_chargeBack (q w : Nat) : fwf Port.reset (s.chargeBack q w).ports = true ∧
    ((s.chargeBack q w).port p).charged = if p = q then fset 0 (s.port p).charged w 0 else (s.port p).charged := by
  obtain ⟨hports, -⟩ := h
  have hset : ∀ x, fwf Port.reset (s.setPort q x).ports = true := fun x => fwf_fset hports q x
  refine ⟨fwf_fset (hset _) _ _, ?_⟩
  rw [State.chargeBack, State.creditReturn, State.creditFreed]
  split
  · next hq =>
    rw [hq, State.port_setPort_self (hset _), State.port_setPort_self hports, Nat.sub_self]
  · next hq =>
    rw [State.port_setPort_ne _ _ hq, State.port_setPort_ne _ _ hq]

theorem State.chargeBack_wf (q w : Nat) : ChargesWf p (s.chargeBack q w) := by
  obtain ⟨hports, hcharged⟩ := State.charged_chargeBack h q w
  obtain ⟨-, hwf⟩ := h
  refine ⟨hports, ?_⟩
  rw [hcharged]
  split
  · exact fwf_fset hwf _ _
  · exact hwf

theorem State.chargeBack_uncharged (v : Nat) : Uncharged p v (s.chargeBack p v) := by
  obtain ⟨-, hcharged⟩ := State.charged_chargeBack h p v
  obtain ⟨-, hwf⟩ := h
  rw [Uncharged, Port.charge, hcharged, if_pos rfl, fget_fset_self hwf]

theorem State.chargeBack_keeps_uncharged {v : Nat} (hv : Uncharged p v s) (q w : Nat) : Uncharged p v (s.chargeBack q w) := by
  obtain ⟨-, hcharged⟩ := State.charged_chargeBack h q w
  obtain ⟨-, hwf⟩ := h
  rw [Uncharged, Port.charge, hcharged]
  split
  · rw [fget_fset hwf]
    split
    · rfl
    · exact hv
  · exact hv

theorem State.chargePortBack_wf (q : Nat) : ChargesWf p (s.chargePortBack q) :=
  P_foldl (P := ChargesWf p) h fun _ w ht => State.chargeBack_wf ht q w

theorem State.chargePortBack_keeps_uncharged {v : Nat} (hv : Uncharged p v s) (q : Nat) : Uncharged p v (s.chargePortBack q) := by
  have hboth := P_foldl (P := fun t => ChargesWf p t ∧ Uncharged p v t) (l := [4, 5, 6, 7]) (g := State.chargeBack q) ⟨h, hv⟩
    fun t w ⟨ht, hu⟩ => ⟨State.chargeBack_wf ht q w, State.chargeBack_keeps_uncharged ht hu q w⟩
  exact hboth.2

theorem State.chargePortBack_uncharged {v : Nat} (hv : v ∈ [4, 5, 6, 7]) : Uncharged p v (s.chargePortBack p) :=
  foldl_establishes (I := ChargesWf p) (Q := Uncharged p v) (fun _ w _ ht => State.chargeBack_wf ht p w)
    (fun _ w _ ht hu => State.chargeBack_keeps_uncharged ht hu p w) hv (fun _ ht => State.chargeBack_uncharged ht v) h

/-- Every charge of a listed port goes back, and a port that is not listed has none. -/
theorem State.chargesBack_uncharged {v : Nat} (hv : v ∈ [4, 5, 6, 7]) : Uncharged p v s.chargesBack := by
  rw [State.chargesBack_eq]
  by_cases hport : s.port p = Port.reset
  · have hu : Uncharged p v s := by
      rw [Uncharged, hport]
      rfl
    have hboth := P_foldl (P := fun t => ChargesWf p t ∧ Uncharged p v t) (l := s.ports.map Prod.fst) (g := State.chargePortBack)
      ⟨h, hu⟩ fun t q ⟨ht, hu⟩ => ⟨State.chargePortBack_wf ht q, State.chargePortBack_keeps_uncharged ht hu q⟩
    exact hboth.2
  · have hlisted : p ∈ s.ports.map Prod.fst := List.mem_map_of_mem (mem_of_fget_ne hport)
    exact foldl_establishes (I := ChargesWf p) (Q := Uncharged p v) (fun _ q _ ht => State.chargePortBack_wf ht q)
      (fun _ q _ ht hu => State.chargePortBack_keeps_uncharged ht hu q) hlisted (fun _ ht => State.chargePortBack_uncharged ht hv) h

end ChargeBack

/-- A port whose charges stand. -/
theorem Uncharged.setPort {s : State} (hp : fwf Port.reset s.ports = true) {p v : Nat} (h : Uncharged p v s) {q : Nat} {x : Port}
    (hx : x.charged = (s.port q).charged) : Uncharged p v (s.setPort q x) := by
  unfold Uncharged Port.charge at h ⊢
  by_cases hq : p = q
  · subst hq
    rw [State.port_setPort_self hp, hx, h]
  · rw [State.port_setPort_ne _ _ hq, h]

/-- A port's early-drop register stands at its seed. -/
def State.reseedPort (s : State) (p : Nat) : State := s.setPort p { s.port p with lfsr := some (lfsrSeed (s.idx 0x4062 0) p) }

theorem State.reseed_eq (s : State) : s.reseed = (List.range 129).foldl State.reseedPort s := rfl

theorem State.reseed_keeps_uncharged {s : State} (hp : fwf Port.reset s.ports = true) {p v : Nat} (h : Uncharged p v s) :
    Uncharged p v s.reseed := by
  rw [State.reseed_eq]
  have hkept := P_foldl (P := fun t : State => fwf Port.reset t.ports = true ∧ Uncharged p v t) (l := List.range 129)
    (g := State.reseedPort) ⟨hp, h⟩ fun t q ⟨hwf, hu⟩ => ⟨fwf_fset hwf _ _, hu.setPort hwf rfl⟩
  obtain ⟨-, hu⟩ := hkept
  exact hu

/-! ### The end of the drain (R281, steps 3 to 5) -/

/-- Index frames that wait lie in no leaf any more. -/
def State.keepWaiting (s : State) : State :=
  { s with switch := { s.switch with
      requests := s.switch.requests.map s.outOfLeaves, replies := s.switch.replies.map s.outOfLeaves } }

/-- The region of the overflow leaves where its size puts it. -/
def State.carveAgain (s : State) : State := s.carve (s.idx 0x7030 0) (s.idx 0x5083 0)

/-- No leaf is charged, and each port's early-drop register stands at its seed. -/
def State.portsAgain (s : State) : State := s.chargesBack.reseed

/-- No reinitialization is in progress. -/
def State.reinitOver (s : State) : State := { s with switch := { s.switch with reinitSince := none, reinitReply := none } }

/-- The pool of a drained folio as at reset, before the owed reply is sent. -/
def State.poolAgain (s : State) : State := s.keepWaiting.carveAgain.poolReset.portsAgain.reinitOver

theorem State.reinitEnd_eq (s : State) : s.reinitEnd = match s.reinitDiscard.switch.reinitReply with
    | none => s.reinitDiscard.poolAgain
    | some f => s.reinitDiscard.poolAgain.sendReply f.destination f := by
  unfold State.reinitEnd
  generalize s.reinitDiscard = t
  rfl

theorem State.chargesBack_portsWf {s : State} (hp : fwf Port.reset s.ports = true) : fwf Port.reset s.chargesBack.ports = true := by
  rw [State.chargesBack_eq]
  exact P_foldl (P := fun t => fwf Port.reset t.ports = true) hp fun t q ht =>
    P_foldl (P := fun t => fwf Port.reset t.ports = true) ht fun u v hu => fwf_fset (fwf_fset hu _ _) _ _

theorem State.portsAgain_portsOnly (s : State) : PortsOnly s s.portsAgain :=
  s.chargesBack_portsOnly.trans s.chargesBack.reseed_portsOnly

theorem State.portsAgain_uncharged {s : State} {p v : Nat} (h : ChargesWf p s) (hv : v ∈ [4, 5, 6, 7]) :
    Uncharged p v s.portsAgain := State.reseed_keeps_uncharged (State.chargesBack_portsWf h.1) (State.chargesBack_uncharged h hv)

/-- A drained folio whose pool starts again: what stands, and what is as at reset. -/
structure StartsAgain (s t : State) : Prop where
  cores : t.cores = s.cores
  address : t.address = s.address
  finished : t.switch.reinitSince = none ∧ t.switch.reinitReply = none
  lists : t.switch.onDie = LeafList.reset ∧ t.switch.external = LeafList.reset ∧ t.switch.counts = [] ∧ t.switch.poolStatus = 0
  waits : t.switch.requests.length = s.switch.requests.length ∧ t.switch.replies.length = s.switch.replies.length
  charges : ∀ p, ChargesWf p s → ∀ v ∈ [4, 5, 6, 7], Uncharged p v t

theorem State.poolAgain_of_carved {s t : State} (h : Drains s t) : StartsAgain s t.poolReset.portsAgain.reinitOver := by
  have hports := t.poolReset.portsAgain_portsOnly
  have hcharges : ∀ p, ChargesWf p s → ∀ v ∈ [4, 5, 6, 7], Uncharged p v t.poolReset.portsAgain := fun p hp v hv => by
    obtain ⟨hwf, hcharged⟩ := hp
    exact State.portsAgain_uncharged ⟨h.portsWf hwf, (h.shrinks hwf p).charged hcharged⟩ hv
  generalize t.poolReset.portsAgain = u at hports hcharges ⊢
  rw [PortsOnly] at hports
  have hrequests := congrArg List.length h.requests
  have hreplies := congrArg List.length h.replies
  have hcores := h.cores
  have haddress := h.idx 0x1002 0 (by decide) (by decide)
  refine ⟨?_, ?_, ⟨rfl, rfl⟩, ?_, ?_, hcharges⟩ <;> rw [hports]
  · exact hcores
  · exact haddress
  · exact ⟨rfl, rfl, rfl, rfl⟩
  · exact ⟨hrequests, hreplies⟩

theorem State.poolAgain_startsAgain (s : State) : StartsAgain s s.poolAgain := by
  obtain ⟨hcores, haddress, hover, hlists, ⟨hrequests, hreplies⟩, hcharges⟩ := State.poolAgain_of_carved (s.keepWaiting.carve_drains
    (s.keepWaiting.idx 0x7030 0) (s.keepWaiting.idx 0x5083 0))
  exact ⟨hcores, haddress, hover, hlists, ⟨hrequests.trans (List.length_map _), hreplies.trans (List.length_map _)⟩, hcharges⟩

/-- Whether a reinitialization is in progress, the reply it owes, and the cores stand. -/
def SameReinit (s t : State) : Prop :=
  t.switch.reinitSince = s.switch.reinitSince ∧ t.switch.reinitReply = s.switch.reinitReply ∧ t.cores = s.cores

theorem SameReinit.of_drains {s t : State} (h : Drains s t) : SameReinit s t := ⟨h.since, h.owed, h.cores⟩

theorem SameReinit.count {s t : State} (h : SameReinit s t) (i sub n : Nat) : SameReinit s (t.count i sub n) := h

theorem SameReinit.setPort {s t : State} (h : SameReinit s t) (p : Nat) (x : Port) : SameReinit s (t.setPort p x) := h

theorem SameReinit.retag {s t : State} (h : SameReinit s t) (p : Nat) : SameReinit s (t.retag p) :=
  P_foldl (P := SameReinit s) h fun u v hu => by
    obtain e | ⟨q, e, -⟩ := u.retagQueue_cases p v <;> rw [e]
    · exact hu
    · exact hu.setPort p _

/-- A frame that the port cannot send is freed and counted; else only its egress port changes, and the tags of its queues. -/
theorem State.enqueue_cases (s : State) (p : Nat) (f : Frame) : s.enqueue p f = ((s.freeFrame f).count 0x3008 p 1, false) ∨
    ∃ x, s.enqueue p f = ((s.setPort p x).retag p, true) := by
  unfold State.enqueue
  dsimp only
  split
  · exact .inl rfl
  · exact .inr ⟨_, rfl⟩

theorem State.enqueue_sameReinit (s : State) (p : Nat) (f : Frame) : SameReinit s (s.enqueue p f).1 := by
  have hself : SameReinit s s := ⟨rfl, rfl, rfl⟩
  have hgone : SameReinit s (s.freeFrame f) := .of_drains (.of_framesGo (s.freeFrame_framesGo f))
  obtain e | ⟨x, e⟩ := s.enqueue_cases p f <;> rw [e]
  · exact hgone.count _ _ _
  · dsimp only
    exact (hself.setPort p x).retag p

theorem State.sendReply_sameReinit (s : State) (d : Nat) (f : Frame) : SameReinit s (s.sendReply d f) := by
  unfold State.sendReply
  split
  · exact ⟨rfl, rfl, rfl⟩
  · exact s.enqueue_sameReinit portC f

theorem execPoolReinitDrainEnd_ends {s : State} {since : Nat} (hsince : s.switch.reinitSince = some since)
    (h : s.losslessEmpty = true ∨ since + 1024 ≤ s.clock.stitch) : execPoolReinitDrainEnd s = s.ends s.reinitEnd := by
  have hover : (s.losslessEmpty || decide (since + 1024 ≤ s.clock.stitch)) = true := by simpa using h
  rw [execPoolReinitDrainEnd, hsince]
  exact congrArg s.ends (if_pos hover)

theorem execPoolReinitDrainEnd_waits {s : State} {since : Nat} (hsince : s.switch.reinitSince = some since)
    (hheld : s.losslessEmpty = false) (hsoon : s.clock.stitch < since + 1024) : execPoolReinitDrainEnd s = .next s := by
  have hlast : ¬ (s.losslessEmpty || decide (since + 1024 ≤ s.clock.stitch)) = true := by simpa [hheld] using hsoon
  rw [execPoolReinitDrainEnd, hsince]
  exact (congrArg s.ends (if_neg hlast)).trans (State.ends_self rfl)

/-- Behind the discard the pool starts again: t is the drained folio. -/
theorem State.reinitDiscard_startsAgain (s : State) (hp : fwf Port.reset s.ports = true) :
    (∀ p v, v = 4 ∨ v = 5 ∨ v = 6 ∨ v = 7 → fwf 0 (s.port p).charged = true →
      (s.reinitDiscard.poolAgain.port p).charge v = 0) ∧
    ∃ t, Drains s t ∧ StartsAgain t s.reinitDiscard.poolAgain := by
  have hdrain := s.reinitDiscard_drains
  have hagain := s.reinitDiscard.poolAgain_startsAgain
  exact ⟨fun p v hv hc => hagain.charges p ⟨hdrain.portsWf hp, (hdrain.shrinks hp p).charged hc⟩ v (by simpa using hv), _, hdrain,
    hagain⟩

/-- What the end of the drain leaves where no reply is owed. -/
theorem State.reinitEnd_of_none {s : State} (hp : fwf Port.reset s.ports = true) (howed : s.switch.reinitReply = none) :
    s.reinitEnd.switch.reinitSince = none ∧ s.reinitEnd.switch.reinitReply = none ∧ s.reinitEnd.cores = s.cores ∧
    s.reinitEnd.switch.onDie = LeafList.reset ∧ s.reinitEnd.switch.external = LeafList.reset ∧
    s.reinitEnd.switch.counts = [] ∧ s.reinitEnd.switch.poolStatus = 0 ∧
    s.reinitEnd.switch.requests.length = s.switch.requests.length ∧
    (∀ p v, v = 4 ∨ v = 5 ∨ v = 6 ∨ v = 7 → fwf 0 (s.port p).charged = true → (s.reinitEnd.port p).charge v = 0) := by
  obtain ⟨hcharges, t, hdrain, hagain⟩ := s.reinitDiscard_startsAgain hp
  obtain ⟨hsince, hreply⟩ := hagain.finished
  obtain ⟨honDie, hexternal, hcounts, hstatus⟩ := hagain.lists
  obtain ⟨hrequests, -⟩ := hagain.waits
  rw [State.reinitEnd_eq, s.reinitDiscard_drains.owed, howed]
  exact ⟨hsince, hreply, hagain.cores.trans hdrain.cores, honDie, hexternal, hcounts, hstatus,
    hrequests.trans (congrArg List.length hdrain.requests), hcharges⟩

/-- What the end of the drain leaves where a reply is owed. -/
theorem State.reinitEnd_of_some {s : State} (hp : fwf Port.reset s.ports = true) {f : Frame} (howed : s.switch.reinitReply = some f) :
    s.reinitEnd.switch.reinitSince = none ∧ s.reinitEnd.switch.reinitReply = none ∧ s.reinitEnd.cores = s.cores ∧
    (f.destination = s.address → ∃ l, s.reinitEnd.switch.replies = l ++ [f] ∧ l.length = s.switch.replies.length) := by
  obtain ⟨-, t, hdrain, hagain⟩ := s.reinitDiscard_startsAgain hp
  rw [State.reinitEnd_eq, s.reinitDiscard_drains.owed, howed]
  dsimp only
  generalize s.reinitDiscard.poolAgain = u at hagain ⊢
  obtain ⟨hsince, hreply⟩ := hagain.finished
  obtain ⟨-, hreplies⟩ := hagain.waits
  obtain ⟨ksince, kreply, kcores⟩ := u.sendReply_sameReinit f.destination f
  refine ⟨ksince.trans hsince, kreply.trans hreply, kcores.trans (hagain.cores.trans hdrain.cores), fun hself => ?_⟩
  have haddress : t.address = s.address := hdrain.idx 0x1002 0 (by decide) (by decide)
  rw [State.sendReply, if_pos (hself.trans (hagain.address.trans haddress).symm)]
  exact ⟨_, rfl, hreplies.trans (congrArg List.length hdrain.replies)⟩

/-- In t a reinitialization of s has begun: it is noted, and no lossy frame waits. -/
structure ReinitBegun (s t : State) : Prop where
  since : t.switch.reinitSince = some s.clock.stitch
  mark : bit t.switch.poolStatus 29 = true
  waits : ∀ p f, p < 129 → f ∈ (t.port p).waiting → 4 ≤ f.vc
  queues : ∀ p v, p < 129 → v < 4 → fwf Queue.reset (s.port p).queues = true → ((t.port p).queue v).frames = []
  cores : t.cores = s.cores
  ctxs : t.ctxs = s.ctxs

theorem State.reinitStart_begun {s : State} (hports : fwf Port.reset s.ports = true) : ReinitBegun s s.reinitStart := by
  obtain ⟨hsince, hmark, hcores, hctxs⟩ := s.reinitStart_noted
  exact ⟨hsince, hmark, fun p f hp hf => State.reinitStart_waitsLossless hp hports f hf,
    fun p v hp hv hq => State.reinitStart_queueEmpty hp ⟨hports, hq⟩ hv, hcores, hctxs⟩

/-- The command's answer reads as the state behind its drops. -/
theorem ReinitBegun.ends {s t : State} (h : ReinitBegun s t) : ∃ u, s.ends (t.noteAccess 0 []) = .next u ∧
    u.switch.reinitSince = some s.clock.stitch ∧ bit u.switch.poolStatus 29 = true ∧
    (∀ p f, p < 129 → f ∈ (u.port p).waiting → 4 ≤ f.vc) ∧
    (∀ p v, p < 129 → v < 4 → fwf Queue.reset (s.port p).queues = true → ((u.port p).queue v).frames = []) ∧
    u.cores = s.cores ∧ u.ctxs = s.ctxs ∧ u.lastStatus = 0 :=
  ⟨_, rfl, h.since, h.mark, h.waits, h.queues, h.cores, h.ctxs, rfl⟩

/-- Settles O27: an accepted write drops the lossy frames port by port; at the end of the drain, carving and reseeding leave what the
pool's reset and the credits that go back have set. -/
theorem poolStartsAgain : Obligations.PoolStartsAgain := by
  unfold Obligations.PoolStartsAgain
  intro s hcan
  obtain ⟨-, hports, -⟩ := hcan
  refine ⟨fun hserves hb hr => ?_, fun hserves h => execPoolReinitialize_refuses hserves h, fun since hsince h => ?_,
    fun since hsince hheld hsoon => execPoolReinitDrainEnd_waits hsince hheld hsoon⟩
  · obtain ⟨u, hends, hbegun⟩ := (State.reinitStart_begun hports).ends
    exact ⟨u, (execPoolReinitialize_starts hserves hb hr).trans hends, hbegun⟩
  · have hends := execPoolReinitDrainEnd_ends hsince h
    cases howed : s.switch.reinitReply with
    | none =>
      have hreset := State.reinitEnd_of_none hports howed
      generalize s.reinitEnd = t at hends hreset
      obtain ⟨hover, hreply, hcores, hreset⟩ := hreset
      exact ⟨_, hends, hover, hreply, hcores, fun _ => hreset, nofun⟩
    | some f =>
      have hsent := State.reinitEnd_of_some hports howed
      generalize s.reinitEnd = t at hends hsent
      obtain ⟨hover, hreply, hcores, hsent⟩ := hsent
      refine ⟨_, hends, hover, hreply, hcores, nofun, ?_⟩
      rintro _ ⟨⟩ hself
      exact hsent hself

end Sys2Proof.Machine
end

section
/-!
SUPPORT. Frames that land wait for lookup, charged for their leaves, or are dropped and counted (R265, R266, R275).
-/
namespace Sys2Proof.Machine

open Sys2Proof

/-! ### Frames outside the leaves that are dropped (R275, R286) -/

/-- A frame outside the leaves owes its port's credits at most. -/
theorem State.freeFrame_of_no_handles (s : State) {f : Frame} (h : f.handles = []) :
    s.freeFrame f = if f.owesCredits then s.creditFreed f.inPort f.vc f.onDie else s := by
  have hfree : s.freeFrame f = s.creditCopy f := by simp [State.freeFrame, State.handlesOf, State.freeLeaves, h]
  rw [hfree, State.creditCopy, if_pos (c := f.handles.isEmpty = true) (by simp [h])]
  cases f.owesCredits <;> rfl

/-- The state behind the capture of a dropped frame and the return of its credits, before the drop is counted. -/
def State.dropped (s : State) (f : Frame) (reason : Nat) : State := (s.mirrorIngress f reason).freeFrame f

theorem State.dropIngress_eq (s : State) (f : Frame) (entry sub reason : Nat) :
    s.dropIngress f entry sub reason = (s.dropped f reason).count entry sub 1 := rfl

section Dropped

variable (s : State) {f : Frame} (h : f.handles = []) (reason : Nat)
include h

theorem State.dropped_switch : (s.dropped f reason).switch = (s.mirrorIngress f reason).switch := by
  rw [State.dropped, State.freeFrame_of_no_handles _ h]
  split <;> rfl

theorem State.dropped_index : (s.dropped f reason).index = (s.mirrorIngress f reason).index := by
  rw [State.dropped, State.freeFrame_of_no_handles _ h]
  split <;> rfl

/-- A dropped frame is counted in an entry of the switch. -/
theorem State.bits_idx_dropIngress (hindex : indexWf s.index = true) {entry : Nat} (he : entry < 0x4080) :
    bits ((s.dropIngress f entry 0 reason).idx entry 0) 63 0 = min (bits (s.idx entry 0) 63 0 + 1) (2 ^ 64 - 1) := by
  have hcapture := s.mirrorIngress_capturesOnly f reason
  have hdropped := s.dropped_index h reason
  have hwf : indexWf (s.dropped f reason).index = true := by
    rw [hdropped]
    exact hcapture.wf hindex
  rw [State.dropIngress_eq, State.count, State.bits_idx_idxBump hwf, State.idx, hdropped, ← State.idx,
    hcapture.idx_low he (by decide)]

/-- A frame outside the leaves takes nothing with it that the switch holds. -/
theorem State.dropIngress_switch (entry sub : Nat) : (s.dropIngress f entry sub reason).switch.requests = s.switch.requests ∧
    (s.dropIngress f entry sub reason).switch.onDie = s.switch.onDie ∧
    (s.dropIngress f entry sub reason).switch.macs = s.switch.macs := by
  obtain ⟨-, ⟨mc, mt, hswitch⟩, -⟩ := s.mirrorIngress_captured f reason
  have hdropped : (s.dropIngress f entry sub reason).switch = (s.mirrorIngress f reason).switch := s.dropped_switch h reason
  rw [hdropped, hswitch]
  exact ⟨rfl, rfl, rfl⟩

/-- A lossless frame's credits go back to its port (R275). -/
theorem State.freed_dropIngress (hports : fwf Port.reset s.ports = true) (howes : f.owesCredits = true)
    (hfreed : fwf 0 (s.port f.inPort).freed = true) (entry sub : Nat) :
    fget 0 ((s.dropIngress f entry sub reason).port f.inPort).freed f.vc =
      (fget 0 (s.port f.inPort).freed f.vc + f.onDie) % 2 ^ 32 := by
  have hcapture := s.mirrorIngress_captured f reason
  have hport : (s.dropped f reason).port f.inPort = { s.port f.inPort with
      freed := fset 0 (s.port f.inPort).freed f.vc ((fget 0 (s.port f.inPort).freed f.vc + f.onDie) % 2 ^ 32) } := by
    rw [State.dropped, State.freeFrame_of_no_handles _ h, if_pos howes, State.creditFreed,
      State.port_setPort_self (by rw [hcapture.ports]; exact hports), hcapture.port]
  rw [State.dropIngress_eq]
  exact (congrArg (fun x => fget 0 (Port.freed x) f.vc) hport).trans (fget_fset_self hfreed _ _)

end Dropped

/-- What frames that go leave of a port: the frames that wait and its queues. -/
theorem FramesGo.waiting_queue {s t : State} (h : FramesGo s t) (hports : fwf Port.reset s.ports = true) (q : Nat) :
    (t.port q).waiting = (s.port q).waiting ∧ ∀ v, (t.port q).queue v = (s.port q).queue v := by
  obtain ⟨-, hcredited⟩ := h.ports hports
  obtain ⟨freed, charged, hport, -⟩ := hcredited q
  rw [hport]
  exact ⟨rfl, fun _ => rfl⟩

/-! ### Frames that land (R265) -/

/-- A frame that lands is counted at its port. -/
def State.countLanded (s : State) (p : Nat) : State := s.setPort p { s.port p with landedCount := (s.port p).landedCount + 1 }

/-- The frame that lands, and the on-die leaves that it takes. -/
def State.arrival (s : State) (p : Nat) (b : Bytes) : Frame :=
  { s.landedFrame p b with
    onDie := if s.mode p = 4 || (s.landedFrame p b).cls == .ordinary then 0 else ceilDiv b.length 256 }

section Arrival

variable (s : State) (p : Nat) (b : Bytes)

theorem State.landedFrame_cls : (s.landedFrame p b).cls = s.classOf (parseFrame b).etype := by
  unfold State.landedFrame
  dsimp only
  split <;> rfl

theorem State.arrival_cls : (s.arrival p b).cls = s.classOf (parseFrame b).etype := s.landedFrame_cls p b

/-- Whatever its class, a frame lands with its bytes at its port, outside the leaves. -/
theorem State.arrival_outside : (s.arrival p b).bytes = b ∧ (s.arrival p b).rawLength = b.length ∧ (s.arrival p b).inPort = p ∧
    (s.arrival p b).handles = [] := by
  unfold State.arrival State.landedFrame
  dsimp only
  split <;> exact ⟨rfl, rfl, rfl, rfl⟩

variable {s p b}

theorem State.arrival_of_index (h : s.classOf (parseFrame b).etype = .index) :
    (s.arrival p b).vc = 7 ∧ (s.arrival p b).destination = beAt b ((parseFrame b).body + 4) 2 := by
  unfold State.arrival State.landedFrame
  dsimp only
  rw [h]
  exact ⟨rfl, rfl⟩

theorem State.arrival_of_compute (h : s.classOf (parseFrame b).etype = .compute) :
    (s.arrival p b).vc = bits (beAt b (parseFrame b).body 4) 23 21 ∧
    (s.arrival p b).destination = beAt b ((parseFrame b).body + 4) 2 := by
  unfold State.arrival State.landedFrame
  dsimp only
  rw [h]
  exact ⟨rfl, rfl⟩

theorem State.arrival_onDie_of_index (h : s.classOf (parseFrame b).etype = .index) (hmode : s.mode p ≠ 4) :
    (s.arrival p b).onDie = ceilDiv b.length 256 := by
  have hcls := s.landedFrame_cls p b
  rw [h] at hcls
  have hkeeps : ¬ (s.mode p = 4 || (s.landedFrame p b).cls == .ordinary) = true := by simp [hcls, hmode]
  exact if_neg hkeeps

end Arrival

/-- A frame of a sound length whose check sequence holds (R266). -/
def soundFrame (b : Bytes) : Bool := decide (64 ≤ b.length) && decide (b.length ≤ 9216) && fcsOk b

/-- A credit frame of port's partner (R336). -/
def State.bringsCredits (s : State) (p : Nat) (b : Bytes) : Bool :=
  (s.landedFrame p b).cls == .compute && bits (beAt b (parseFrame b).body 1) 7 4 == 2

/-- A sound frame goes where its class sends it (R265). -/
def State.sortLanded (s : State) (p : Nat) (b : Bytes) (f : Frame) : State :=
  let body := (parseFrame b).body
  match f.cls with
  | .ordinary => s.landOrdinary f
  | .index => if s.mode p = 4 then s.dropIngress f 0x3008 p 4 else s.landLossless f
  | .compute =>
    if s.mode p = 4 then s.dropIngress f 0x3008 p 4
    else if !folioHeaderOk b body (b.length - 4 - body) || f.vc < 4 || 6 < f.vc then s.dropIngress f 0x4005 0 4
    else s.landLossless f

theorem State.land_of_unsound {s : State} {p : Nat} {b : Bytes} (h : soundFrame b = false) :
    s.land p b = (s.countLanded p).dropIngress (s.arrival p b) 0x4005 0 4 := by
  unfold soundFrame at h
  unfold State.land
  dsimp only
  rw [h]
  rfl

theorem State.land_of_sound {s : State} {p : Nat} {b : Bytes} (h : soundFrame b = true) (hcredits : s.bringsCredits p b = false) :
    s.land p b = (s.countLanded p).sortLanded p b (s.arrival p b) := by
  unfold soundFrame at h
  unfold State.bringsCredits at hcredits
  unfold State.land
  dsimp only
  rw [h, Bool.true_and, hcredits]
  rfl

section Lossless

variable {s : State} {p : Nat} {b : Bytes} (hsound : soundFrame b = true) (hmode : s.mode p ≠ 4)
include hsound hmode

theorem State.land_of_index (h : s.classOf (parseFrame b).etype = .index) :
    s.land p b = (s.countLanded p).landLossless (s.arrival p b) := by
  have hkept : (s.countLanded p).mode p ≠ 4 := hmode
  have hcredits : s.bringsCredits p b = false := by simp [State.bringsCredits, State.landedFrame_cls, h]
  rw [State.land_of_sound hsound hcredits, State.sortLanded, State.arrival_cls, h]
  exact if_neg hkept

theorem State.land_of_compute (h : s.classOf (parseFrame b).etype = .compute) (hkind : bits (beAt b (parseFrame b).body 1) 7 4 = 1)
    (hheader : folioHeaderOk b (parseFrame b).body (b.length - 4 - (parseFrame b).body) = true)
    (hlow : 4 ≤ (s.arrival p b).vc) (hhigh : (s.arrival p b).vc ≤ 6) :
    s.land p b = (s.countLanded p).landLossless (s.arrival p b) := by
  have hkept : (s.countLanded p).mode p ≠ 4 := hmode
  have hcredits : s.bringsCredits p b = false := by simp [State.bringsCredits, hkind]
  have hvc : ¬ (!folioHeaderOk b (parseFrame b).body (b.length - 4 - (parseFrame b).body) || decide ((s.arrival p b).vc < 4) ||
      decide (6 < (s.arrival p b).vc)) = true := by
    simp [hheader, hlow, hhigh]
  rw [State.land_of_sound hsound hcredits, State.sortLanded, State.arrival_cls, h]
  exact (if_neg hkept).trans (if_neg hvc)

end Lossless

/-! ### Leaves of a lossless frame (R265, R274, R279) -/

/-- The on-die list has given n fresh leaves, and the reference counts are others. -/
def State.gaveFresh (s : State) (n : Nat) (counts : FMap Nat) : State :=
  { s with switch := { s.switch with onDie := { s.switch.onDie with fresh := s.switch.onDie.fresh + n }, counts := counts } }

theorem State.takeFresh_onDie {s : State} (he : s.mem.poolErrors = []) : ∃ counts, s.takeFresh false = s.gaveFresh 1 counts := by
  have hset : (s.setLeafList false { s.leafList false with fresh := (s.leafList false).fresh + 1 }).mem.poolErrors = [] := he
  exact ⟨_, by rw [State.takeFresh, State.setLeafCount_of_sound hset]; rfl⟩

/-- Fresh leaves are taken in their order. -/
theorem State.allocMany_of_fresh (n : Nat) : ∀ {s : State} (acc : List Nat), s.mem.poolErrors = [] → s.switch.onDie.chain = 0 →
    s.switch.onDie.fresh + n ≤ onDieLeaves → ∃ counts, State.allocMany (fun s => State.alloc s false) n s acc =
      (s.gaveFresh n counts, some (acc.reverse ++ (List.range n).map (fun k => s.switch.onDie.fresh + k))) := by
  induction n with
  | zero => exact fun acc _ _ _ => ⟨_, by rw [State.allocMany, List.range_zero, List.map_nil, List.append_nil]; rfl⟩
  | succ n ih =>
    intro s acc he hc hf
    have hfree : (s.leafList false).fresh < s.listSize false := Nat.lt_of_lt_of_le (Nat.lt_add_of_pos_right n.succ_pos) hf
    obtain ⟨counts, htaken⟩ := State.takeFresh_onDie he
    have hone := State.alloc_of_fresh he (ext := false) hc hfree
    rw [htaken] at hone
    obtain ⟨counts', hmany⟩ := ih (s := s.gaveFresh 1 counts) (s.freshHandle false :: acc) he hc
      (by rw [Nat.add_comm n] at hf; exact (Nat.add_assoc _ _ _).trans_le hf)
    have hhandles : (s.freshHandle false :: acc).reverse ++ (List.range n).map (fun k => s.switch.onDie.fresh + 1 + k) =
        acc.reverse ++ (List.range (n + 1)).map (fun k => s.switch.onDie.fresh + k) := by
      simp [List.range_succ_eq_map, State.freshHandle, State.leafList, Function.comp_def, Nat.add_assoc, Nat.add_comm 1]
    have hboth : (s.gaveFresh 1 counts).gaveFresh n counts' = s.gaveFresh (n + 1) counts' := by
      rw [Nat.add_comm n]
      unfold State.gaveFresh
      dsimp only
      rw [Nat.add_assoc]
    rw [State.allocMany, hone]
    exact ⟨counts', hmany.trans (by rw [hboth, ← hhandles]; rfl)⟩

/-- Linking a frame's leaves changes the chain table alone. -/
theorem State.linkChain_frame (hs : List Nat) (s : State) : ∃ c, s.linkChain hs = { s with switch := { s.switch with chain := c } } := by
  induction hs generalizing s with
  | nil => exact ⟨_, rfl⟩
  | cons h hs ih =>
    obtain ⟨c, hlink⟩ := ih { s with switch := { s.switch with chain := fset 0 s.switch.chain (s.handle h) (hs.headD 0xFFFFFFFF) } }
    exact ⟨c, hlink⟩

/-! ### Where a landed frame waits -/

section Waits

variable {s : State} (hports : fwf Port.reset s.ports = true) (p : Nat)
include hports

/-- A frame that waits for lookup stands behind those that waited before it. -/
theorem State.port_queueLanded (f : Frame) :
    (s.queueLanded p f false).port p = { s.port p with waiting := (s.port p).waiting ++ [f] } :=
  State.port_setPort_self hports p _

theorem State.port_countLanded :
    (s.countLanded p).port p = { s.port p with landedCount := (s.port p).landedCount + 1 } := State.port_setPort_self hports p _

theorem State.port_chargePort (v n : Nat) :
    (s.chargePort p v n).port p = { s.port p with charged := fset 0 (s.port p).charged v ((s.port p).charge v + n) } :=
  State.port_setPort_self hports p _

/-- A frame that has landed in leaves is charged at its port and waits there. -/
theorem State.port_chargeQueue {v : State} (hv : v.ports = (s.countLanded p).ports) (c n : Nat) (f : Frame) :
    ((v.chargePort p c n).queueLanded p f false).port p = { s.port p with
        landedCount := (s.port p).landedCount + 1, waiting := (s.port p).waiting ++ [f],
        charged := fset 0 (s.port p).charged c ((s.port p).charge c + n) } ∧
      ∀ q, q ≠ p → ((v.chargePort p c n).queueLanded p f false).port q = s.port q := by
  have hvwf : fwf Port.reset v.ports = true := by
    rw [hv]
    exact fwf_fset hports _ _
  have hport : ∀ q, v.port q = (s.countLanded p).port q := fun q => congrArg (fget Port.reset · q) hv
  refine ⟨?_, fun q hq => ?_⟩
  · rw [State.port_queueLanded (fwf_fset hvwf _ _), State.port_chargePort hvwf, hport, State.port_countLanded hports]
    rfl
  · exact (State.port_setPort_ne _ _ hq).trans ((v.port_setPort_ne _ hq).trans ((hport q).trans (s.port_setPort_ne _ hq)))

end Waits

/-- A frame as it waits in the receive buffer. -/
def Frame.inBuffer (f : Frame) : Frame := { f with onDie := ceilDiv f.rawLength 256 }

/-- The next n fresh leaves of the on-die list. -/
def State.freshLeaves (s : State) (n : Nat) : List Nat := (List.range n).map (fun k => s.switch.onDie.fresh + k)

/-- A frame as it waits in leaves. -/
def Frame.inLeaves (f : Frame) (hs : List Nat) : Frame := { f with handles := hs, bytes := [], onDie := ceilDiv f.rawLength 256 }

/-- A frame bound for the receive buffer waits outside the leaves. -/
theorem State.landLossless_of_buffer {s : State} {f : Frame} (hbuffer : s.toBuffer f = true)
    (hreply : bit (beAt f.bytes (parseFrame f.bytes).body 4) 27 = false) :
    s.landLossless f = s.queueLanded f.inPort f.inBuffer false := by
  unfold State.landLossless
  dsimp only
  rw [if_pos hbuffer, hreply, Bool.and_false]
  rfl

/-- A compute frame waits in the leaves that the on-die list gave, once they are linked, filled and charged. -/
theorem State.landLossless_of_compute {s t : State} {f : Frame} {hs : List Nat} (hcls : f.cls = .compute)
    (halloc : State.allocMany (fun s => State.alloc s false) (ceilDiv f.rawLength 256) s [] = (t, some hs)) :
    s.landLossless f = (((t.linkChain hs).fillLeaves hs f.bytes).chargePort f.inPort f.vc (ceilDiv f.rawLength 256)).queueLanded
      f.inPort (f.inLeaves hs) false := by
  have hbuffer : ¬ s.toBuffer f = true := by simp [State.toBuffer, hcls]
  have hreply : (f.cls == .index && bit (beAt f.bytes (parseFrame f.bytes).body 4) 27) = false := by rw [hcls]; rfl
  unfold State.landLossless
  dsimp only
  rw [if_neg hbuffer, halloc, hreply]
  rfl

/-- Linking and filling leaves keeps the ports, the contexts, the cores and the on-die list. -/
theorem State.fillChain_keeps (s : State) (hs : List Nat) (b : Bytes) : ((s.linkChain hs).fillLeaves hs b).ports = s.ports ∧
    ((s.linkChain hs).fillLeaves hs b).cores = s.cores ∧ ((s.linkChain hs).fillLeaves hs b).ctxs = s.ctxs ∧
    ((s.linkChain hs).fillLeaves hs b).switch.onDie = s.switch.onDie := by
  obtain ⟨c, hlink⟩ := State.linkChain_frame hs s
  rw [hlink]
  have hfill := State.fillLeaves_poolNotes { s with switch := { s.switch with chain := c } } hs b
  have hlist := hfill.leafList false
  obtain ⟨⟨⟨n, i, m, sw, r, htouch⟩, -⟩, -, -⟩ := hfill
  rw [htouch] at hlist ⊢
  exact ⟨rfl, rfl, rfl, hlist⟩

/-! ### FRAME_LAND -/

theorem execFrameLand_of_receives {s : State} {p : PortId} (h : s.receives p = true) (b : Bytes) :
    execFrameLand p b s = s.ends (s.land p b) := congrArg s.ends (if_pos h)

/-- From s to t frame f has come to wait at port p in n fresh on-die leaves, charged to the port and to the frame's virtual
channel. -/
def LandsInLeaves (p n : Nat) (f : Frame) (s t : State) : Prop :=
  t.port p = { s.port p with
    landedCount := (s.port p).landedCount + 1, waiting := (s.port p).waiting ++ [f],
    charged := fset 0 (s.port p).charged f.vc ((s.port p).charge f.vc + n) } ∧
  t.switch.onDie = { s.switch.onDie with fresh := s.switch.onDie.fresh + n } ∧ (∀ q, q ≠ p → t.port q = s.port q) ∧
  t.cores = s.cores ∧ t.ctxs = s.ctxs

section Land

variable {s : State} (hports : fwf Port.reset s.ports = true) {p : Nat} {b : Bytes}
include hports

/-- An Index request to the folio's own address waits at its port; nothing else changes. -/
theorem State.land_request (hsound : soundFrame b = true) (hclass : s.classOf (parseFrame b).etype = .index) (hmode : s.mode p ≠ 4)
    (hown : beAt b ((parseFrame b).body + 4) 2 = s.address) (hrequest : bit (beAt b (parseFrame b).body 4) 27 = false) :
    ∃ f, OnlyPort p s (s.land p b) ∧
      (s.land p b).port p =
        { s.port p with landedCount := (s.port p).landedCount + 1, waiting := (s.port p).waiting ++ [f] } ∧
      f.bytes = b ∧ f.vc = 7 ∧ f.inPort = p ∧ f.cls = .index ∧ f.handles = [] := by
  obtain ⟨hbytes, -, hin, hhandles⟩ := s.arrival_outside p b
  obtain ⟨hvc, hdestination⟩ := State.arrival_of_index (p := p) hclass
  have hcls := (s.arrival_cls p b).trans hclass
  have hbuffer : (s.countLanded p).toBuffer (s.arrival p b) = true := by
    have haddress : (s.countLanded p).address = s.address := rfl
    simp [State.toBuffer, hcls, hdestination, hown, haddress]
  rw [State.land_of_index hsound hmode hclass, State.landLossless_of_buffer hbuffer (by rw [hbytes]; exact hrequest), hin]
  refine ⟨(s.arrival p b).inBuffer, (OnlyPort.setPort s p _).trans (.setPort _ p _), ?_, hbytes, hvc, hin, hcls, hhandles⟩
  rw [State.port_queueLanded (fwf_fset hports _ _), State.port_countLanded hports]

/-- A compute frame waits in fresh on-die leaves, charged to its port and virtual channel. -/
theorem State.land_compute (hsound : soundFrame b = true) (hclass : s.classOf (parseFrame b).etype = .compute) (hmode : s.mode p ≠ 4)
    (hkind : bits (beAt b (parseFrame b).body 1) 7 4 = 1)
    (hheader : folioHeaderOk b (parseFrame b).body (b.length - 4 - (parseFrame b).body) = true)
    (hlow : 4 ≤ bits (beAt b (parseFrame b).body 4) 23 21) (hhigh : bits (beAt b (parseFrame b).body 4) 23 21 ≤ 6)
    (he : s.mem.poolErrors = []) (hc : s.switch.onDie.chain = 0)
    (hf : s.switch.onDie.fresh + ceilDiv b.length 256 ≤ onDieLeaves) :
    ∃ f, LandsInLeaves p (ceilDiv b.length 256) f s (s.land p b) ∧ f.handles = s.freshLeaves (ceilDiv b.length 256) ∧
      f.vc = bits (beAt b (parseFrame b).body 4) 23 21 ∧ f.inPort = p ∧ f.cls = .compute ∧ f.rawLength = b.length ∧
      f.destination = beAt b ((parseFrame b).body + 4) 2 := by
  obtain ⟨hbytes, hraw, hin, -⟩ := s.arrival_outside p b
  obtain ⟨hvc, hdestination⟩ := State.arrival_of_compute (p := p) hclass
  have hcls := (s.arrival_cls p b).trans hclass
  obtain ⟨counts, halloc⟩ : ∃ counts, State.allocMany (fun s => State.alloc s false) (ceilDiv b.length 256) (s.countLanded p) [] =
      ((s.countLanded p).gaveFresh (ceilDiv b.length 256) counts, some (s.freshLeaves (ceilDiv b.length 256))) :=
    State.allocMany_of_fresh _ [] he hc hf
  rw [← hraw] at halloc
  have hland := (State.land_of_compute hsound hmode hclass hkind hheader (hvc ▸ hlow) (hvc ▸ hhigh)).trans
    (State.landLossless_of_compute hcls halloc)
  rw [hin, hbytes, hraw] at hland
  obtain ⟨hkept, hcores, hctxs, honDie⟩ := ((s.countLanded p).gaveFresh (ceilDiv b.length 256) counts).fillChain_keeps
    (s.freshLeaves (ceilDiv b.length 256)) b
  obtain ⟨hport, hothers⟩ := State.port_chargeQueue hports p hkept (s.arrival p b).vc (ceilDiv b.length 256)
    ((s.arrival p b).inLeaves (s.freshLeaves (ceilDiv b.length 256)))
  rw [hland]
  exact ⟨(s.arrival p b).inLeaves _, ⟨hport, honDie, hothers, hcores, hctxs⟩, rfl, hvc, hin, hcls, hraw, hdestination⟩

/-- A frame that is not sound waits nowhere: it is counted, and a lossless one gives back its credits. -/
theorem State.land_unsound (hindex : indexWf s.index = true) (hsound : soundFrame b = false) :
    (∀ q, ((s.land p b).port q).waiting = (s.port q).waiting) ∧
    bits ((s.land p b).idx 0x4005 0) 63 0 = min (bits (s.idx 0x4005 0) 63 0 + 1) (2 ^ 64 - 1) ∧
    (s.land p b).switch.requests = s.switch.requests ∧ (s.land p b).switch.onDie = s.switch.onDie ∧
    (p < 129 → s.classOf (parseFrame b).etype = .index → s.mode p ≠ 4 → fwf 0 (s.port p).freed = true →
      fget 0 ((s.land p b).port p).freed 7 = (fget 0 (s.port p).freed 7 + ceilDiv b.length 256) % 2 ^ 32) := by
  obtain ⟨-, -, hin, hhandles⟩ := s.arrival_outside p b
  have hwf : fwf Port.reset (s.countLanded p).ports = true := fwf_fset hports _ _
  have hgo := (s.countLanded p).dropIngress_framesGo (s.arrival p b) (entry := 0x4005) (sub := 0) (by decide) (by decide) 4
  obtain ⟨hrequests, honDie, -⟩ := (s.countLanded p).dropIngress_switch hhandles 4 0x4005 0
  rw [State.land_of_unsound hsound]
  have hcounted := (s.countLanded p).bits_idx_dropIngress hhandles 4 hindex (entry := 0x4005) (by decide)
  refine ⟨fun q => ?_, hcounted, hrequests, honDie, fun hp hclass hmode hfreed => ?_⟩
  · obtain ⟨hwaiting, -⟩ := hgo.waiting_queue hwf q
    rw [hwaiting]
    by_cases hq : q = p
    · rw [hq, State.port_countLanded hports]
    · rw [State.countLanded, State.port_setPort_ne _ _ hq]
  · obtain ⟨hvc, -⟩ := State.arrival_of_index (p := p) hclass
    have honDie := State.arrival_onDie_of_index hclass hmode
    have howes : (s.arrival p b).owesCredits = true := by simp [Frame.owesCredits, hvc, hin, hp]
    have hback := State.freed_dropIngress (s.countLanded p) hhandles 4 hwf howes
      (by rw [hin, State.port_countLanded hports]; exact hfreed) 0x4005 0
    rwa [hin, hvc, honDie, State.port_countLanded hports] at hback

end Land

end Sys2Proof.Machine
end

section
/-!
SUPPORT. What lookup does with a frame (R24, R208, R267 to R269), and the settlement of O17.
-/
namespace Sys2Proof.Machine

open Sys2Proof

/-! ### LOOKUP takes the frame that has waited longest -/

/-- Port p's frames that wait for lookup are these. -/
def State.setWaiting (s : State) (p : Nat) (rest : List Frame) : State := s.setPort p { s.port p with waiting := rest }

theorem execLookup_of_waiting {s : State} {p : PortId} {f : Frame} {rest : List Frame} (hclocks : s.power.clocksStopped = false)
    (hwaiting : (s.port p).waiting = f :: rest) : execLookup p s = s.ends ((s.setWaiting p rest).lookupFrame f) := by
  unfold execLookup
  dsimp only
  rw [hwaiting]
  dsimp only
  rw [hclocks]
  rfl

theorem State.lookupFrame_of_index {s : State} {f : Frame} (h : f.cls = .index) : s.lookupFrame f = s.lookupIndex f := by
  rw [State.lookupFrame, h]

theorem State.lookupFrame_of_compute {s : State} {f : Frame} (h : f.cls = .compute) : s.lookupFrame f = s.lookupCompute f := by
  rw [State.lookupFrame, h]

theorem State.lookupFrame_of_ordinary {s : State} {f : Frame} (h : f.cls = .ordinary) : s.lookupFrame f = s.bridge f := by
  rw [State.lookupFrame, h]

section SetWaiting

variable {s : State} (hports : fwf Port.reset s.ports = true) (p : Nat) (rest : List Frame)

theorem State.port_setWaiting_ne {q : Nat} (hq : q ≠ p) : (s.setWaiting p rest).port q = s.port q := s.port_setPort_ne _ hq

include hports

theorem State.setWaiting_portsWf : fwf Port.reset (s.setWaiting p rest).ports = true := fwf_fset hports _ _

theorem State.port_setWaiting : (s.setWaiting p rest).port p = { s.port p with waiting := rest } := State.port_setPort_self hports p _

/-- Only the frames that wait change. -/
theorem State.port_setWaiting_keeps (q : Nat) : ∃ w, (s.setWaiting p rest).port q = { s.port q with waiting := w } := by
  by_cases hq : q = p
  · rw [hq]
    exact ⟨rest, State.port_setWaiting hports p rest⟩
  · exact ⟨_, State.port_setWaiting_ne p rest hq⟩

end SetWaiting

/-! ### Paths (R267, R268) -/

/-- The path that a frame takes is one of those given. -/
theorem State.choosePath_mem {s : State} {f : Frame} {ports : List Nat} {q : Nat} (h : s.choosePath f ports = some q) : q ∈ ports := by
  cases ports with
  | nil => cases h
  | cons p ps =>
    rw [State.choosePath] at h
    split at h
    · cases h
      exact List.mem_cons_self
    · split at h
      · exact List.mem_of_getElem? h
      · cases h
        refine List.foldlRecOn (motive := fun b => b ∈ p :: ps) ps _ List.mem_cons_self fun b hb r hr => ?_
        split
        · exact List.mem_cons_of_mem _ hr
        · exact hb

/-- A path's link is up, and its port is one of 256. -/
theorem State.routeTo_up {s : State} {f : Frame} {q : Nat} (h : s.routeTo f = some q) : (s.port q).up = true ∧ q < 256 := by
  unfold State.routeTo at h
  split at h
  · cases h
  · next v _ =>
    obtain ⟨hpath, hup⟩ := List.mem_filter.1 (State.choosePath_mem h)
    obtain ⟨k, -, rfl⟩ := List.mem_map.1 hpath
    refine ⟨hup, ?_⟩
    have hwidth : 8 * k + 7 + 1 - 8 * k = 8 := by omega
    rw [slotPort, bits, hwidth]
    exact Nat.mod_lt _ (by decide)

/-- Routes follow the entries, the links and the queues. -/
theorem State.routeTo_congr {s t : State} (hindex : t.index = s.index) (hup : ∀ q, (t.port q).up = (s.port q).up)
    (hqueues : ∀ q, (t.port q).queues = (s.port q).queues) (f : Frame) : t.routeTo f = s.routeTo f := by
  have husable : ∀ v, t.usable v = s.usable v := fun v => by simp only [State.usable, hup]
  have hstrict : t.strict = s.strict := by simp only [State.strict, State.idx, hindex]
  have hqueue : ∀ q v, (t.port q).queue v = (s.port q).queue v := fun q v => congrArg (fget Queue.reset · v) (hqueues q)
  have hchoose : ∀ ps, t.choosePath f ps = s.choosePath f ps := fun ps => by
    simp only [State.choosePath, hstrict, hqueue]
  simp only [State.routeTo, State.slotFor, State.listedSlots, hindex, husable, hchoose]

theorem State.routeTo_setWaiting {s : State} (hports : fwf Port.reset s.ports = true) (p : Nat) (rest : List Frame) (f : Frame) :
    (s.setWaiting p rest).routeTo f = s.routeTo f := by
  have hkeeps := State.port_setWaiting_keeps hports p rest
  refine State.routeTo_congr (s := s) (t := s.setWaiting p rest) rfl (fun q => ?_) (fun q => ?_) f <;>
  · obtain ⟨w, hport⟩ := hkeeps q
    rw [hport]

/-! ### Egress queues -/

theorem State.waiting_retag {s : State} {p : Nat} (hports : fwf Port.reset s.ports = true) :
    ((s.retag p).port p).waiting = (s.port p).waiting := by
  have hboth := P_foldl (P := fun t => fwf Port.reset t.ports = true ∧ (t.port p).waiting = (s.port p).waiting) (l := List.range 8)
    (g := fun t v => State.retagQueue t p v) ⟨hports, rfl⟩ fun t v ⟨hwf, hwaiting⟩ => by
      obtain e | ⟨q, e, -⟩ := t.retagQueue_cases p v <;> rw [e]
      · exact ⟨hwf, hwaiting⟩
      · refine ⟨fwf_fset hwf _ _, ?_⟩
        rw [State.port_setPort_self hwf]
        exact hwaiting
  exact hboth.2

/-- A frame that its port can send stands behind the others of its queue; nothing but the port changes. -/
theorem State.enqueue_of_open_queue {s : State} {q : Nat} (hcan : PortCanonical q s) {f : Frame} (hup : (s.port q).up = true)
    (hcoast : s.clock.coasting = false) (hmode : s.mode q ≠ 4) (hclosed : (s.port q).closed f.vc = false) :
    OnlyPort q s (s.enqueue q f).1 ∧ ((s.enqueue q f).1.port q).waiting = (s.port q).waiting ∧
    (((s.enqueue q f).1.port q).queue f.vc).frames = ((s.port q).queue f.vc).frames ++ [{ f with queued := s.now }] := by
  have hopen : ¬ (!(s.port q).up || s.clock.coasting || (s.mode q = 4 && f.vc ≥ 4) || (s.port q).closed f.vc) = true := by
    simp [hup, hcoast, hmode, hclosed]
  obtain ⟨y, henqueue, hpushed⟩ : ∃ y, s.enqueue q f = ((s.setPort q ((s.port q).setQueue f.vc y)).retag q, true) ∧
      y.frames = ((s.port q).queue f.vc).frames ++ [{ f with queued := s.now }] := by
    unfold State.enqueue
    dsimp only
    exact ⟨_, if_neg hopen, rfl⟩
  obtain ⟨hcan', hport⟩ := State.setPort_setQueue hcan f.vc y
  obtain ⟨honly, -, hframes⟩ := State.retag_retagsOnly hcan'
  obtain ⟨-, hqueues⟩ := hcan
  obtain ⟨hwf, -⟩ := hcan'
  rw [henqueue]
  dsimp only
  refine ⟨(OnlyPort.setPort s q _).trans honly, ?_, ?_⟩
  · rw [State.waiting_retag hwf, hport]
    rfl
  · rw [hframes, hport, Port.queue_setQueue_self hqueues, hpushed]

/-! ### Captures at lookup -/

namespace Captured

variable {s t : State} (h : Captured s t)
include h

theorem requests : t.switch.requests = s.switch.requests := by
  obtain ⟨-, ⟨mc, mt, hw⟩, -⟩ := h
  rw [hw]

theorem fragments : t.switch.fragments = s.switch.fragments := by
  obtain ⟨-, ⟨mc, mt, hw⟩, -⟩ := h
  rw [hw]

end Captured

namespace FramesGo

variable {s t : State} (h : FramesGo s t)
include h

theorem cores : t.cores = s.cores := by
  obtain ⟨⟨n, i, m, sw, po, r, rfl⟩, -⟩ := h
  rfl

theorem ctxs : t.ctxs = s.ctxs := by
  obtain ⟨⟨n, i, m, sw, po, r, rfl⟩, -⟩ := h
  rfl

theorem clock : t.clock = s.clock := by
  obtain ⟨⟨n, i, m, sw, po, r, rfl⟩, -⟩ := h
  rfl

end FramesGo

/-! ### What becomes of a frame -/

section Lookup

variable {s : State} {f : Frame}

theorem State.lookup_request (hclass : f.cls = .index) (hown : f.destination = s.address) (hport : s.address ≠ 0 ∨ f.inPort = portC) :
    s.lookupFrame f = (s.mirrorIngress f 0).deliverRequest f := by
  rw [State.lookupFrame_of_index hclass, State.lookupIndex, hown]
  split
  · next hzero =>
    rw [if_pos]
    simpa [hzero] using hport
  · rw [if_pos rfl]

theorem State.lookup_stray (hclass : f.cls = .index) (hzero : f.destination = 0) (hport : f.inPort ≠ portC) :
    s.lookupFrame f = s.dropped f 4 := by
  rw [State.lookupFrame_of_index hclass, State.lookupIndex, if_pos hzero, if_neg (by simp [hport])]
  rfl

theorem State.lookup_forward (hforeign : f.cls = .compute ∧ s.takesAsOwn f = false ∨
      f.cls = .index ∧ f.destination ≠ s.address ∧ f.destination ≠ 0) (hone : f.destination ≠ 0xFFFF) :
    s.lookupFrame f = s.forward f := by
  rcases hforeign with ⟨hclass, hown⟩ | ⟨hclass, hown, hzero⟩
  · rw [State.lookupFrame_of_compute hclass, State.lookupCompute, if_neg hone, hown]
    rfl
  · rw [State.lookupFrame_of_index hclass, State.lookupIndex, if_neg hzero, if_neg hown, if_neg hone]

theorem State.lookup_own (hclass : f.cls = .compute) (hown : f.destination = s.address) (hone : s.address ≠ 0xFFFF)
    (hpair : s.paired = false) : s.lookupFrame f = (s.mirrorIngress f 0).deliverCompute f := by
  have htakes : s.takesAsOwn f = true := by simp [State.takesAsOwn, hown]
  have hkept : (s.mirrorIngress f 0).paired = false := by
    have hidx := (s.mirrorIngress_captured f 0).go.idx 0x8010 0 (by decide) (by decide)
    rwa [State.paired, hidx]
  rw [State.lookupFrame_of_compute hclass, State.lookupCompute, if_neg (hown ▸ hone), htakes]
  simp [hkept, State.copiesToPartner]

theorem State.lookup_bridge {e : MacEntry} (hclass : f.cls = .ordinary) (hsingle : isGroup (beAt (s.frameBytes f) 0 6) = false)
    (hentry : s.macEntry f.vid (beAt (s.frameBytes f) 0 6) = some e) (hback : e.port = f.inPort) :
    s.lookupFrame f = s.dropIngress f 0x4005 0 4 := by
  rw [State.lookupFrame_of_ordinary hclass, State.bridge]
  simp [hsingle, hentry, hback]

theorem State.forward_of_path {q : Nat} (h : s.routeTo f = some q) : s.forward f = ((s.mirrorIngress f 0).enqueue q f).1 := by
  rw [State.forward, h]

theorem State.forward_of_no_slot (h : s.slotFor f.destination = none) : s.forward f = s.dropIngress f 0x4007 0 6 := by
  rw [State.forward, State.routeTo, h]

end Lookup

/-! ### The frame is taken from its port and looked up -/

section Taken

variable {s : State} (hports : fwf Port.reset s.ports = true) {p : Nat} {f : Frame} (rest : List Frame)
include hports

/-- Behind frames that go, port p's frames are those that it was left with, and every queue stands. -/
theorem FramesGo.of_setWaiting {t : State} (h : FramesGo (s.setWaiting p rest) t) : (t.port p).waiting = rest ∧
    (∀ q v, (t.port q).queue v = (s.port q).queue v) ∧ t.cores = s.cores := by
  have hgone := h.waiting_queue (State.setWaiting_portsWf hports p rest)
  refine ⟨?_, fun q v => ?_, h.cores⟩
  · obtain ⟨hwaiting, -⟩ := hgone p
    rw [hwaiting, State.port_setWaiting hports]
  · obtain ⟨-, hqueue⟩ := hgone q
    obtain ⟨w, hport⟩ := State.port_setWaiting_keeps hports p rest q
    rw [hqueue, hport]
    rfl

/-- Behind a capture, port p has the frames that it was left with, and the others stand. -/
theorem Captured.of_setWaiting {t : State} (h : Captured (s.setWaiting p rest) t) : (t.port p).waiting = rest ∧
    ∀ q, q ≠ p → t.port q = s.port q := by
  refine ⟨?_, fun q hq => ?_⟩
  · rw [h.port, State.port_setWaiting hports]
  · rw [h.port, State.port_setWaiting_ne p rest hq]

/-- A request to the folio waits for the fallback controller. -/
theorem State.requests_lookup (hclass : f.cls = .index) (hown : f.destination = s.address)
    (hport : s.address ≠ 0 ∨ f.inPort = portC) :
    (((s.setWaiting p rest).lookupFrame f).port p).waiting = rest ∧
    ((s.setWaiting p rest).lookupFrame f).switch.requests = s.switch.requests ++ [f] ∧
    (∀ q, q ≠ p → ((s.setWaiting p rest).lookupFrame f).port q = s.port q) ∧
    ((s.setWaiting p rest).lookupFrame f).cores = s.cores ∧ ((s.setWaiting p rest).lookupFrame f).ctxs = s.ctxs := by
  have hcap := (s.setWaiting p rest).mirrorIngress_captured f 0
  rw [State.lookup_request (s := s.setWaiting p rest) hclass hown hport]
  obtain ⟨hwaiting, hothers⟩ := hcap.of_setWaiting hports
  exact ⟨hwaiting, congrArg (· ++ [f]) hcap.requests, hothers, hcap.go.cores, hcap.go.ctxs⟩

/-- A request to 0x0000 from another port than C goes. -/
theorem State.stray_lookup (hclass : f.cls = .index) (hzero : f.destination = 0) (hport : f.inPort ≠ portC) (hhandles : f.handles = []) :
    (((s.setWaiting p rest).lookupFrame f).port p).waiting = rest ∧
    ((s.setWaiting p rest).lookupFrame f).switch.requests = s.switch.requests ∧
    (∀ q v, (((s.setWaiting p rest).lookupFrame f).port q).queue v = (s.port q).queue v) ∧
    ((s.setWaiting p rest).lookupFrame f).cores = s.cores := by
  have hcap := (s.setWaiting p rest).mirrorIngress_captured f 4
  have hgo : FramesGo (s.setWaiting p rest) ((s.setWaiting p rest).dropped f 4) := hcap.go.trans (State.freeFrame_framesGo _ f)
  obtain ⟨hwaiting, hqueues, hcores⟩ := hgo.of_setWaiting hports
  rw [State.lookup_stray hclass hzero hport]
  exact ⟨hwaiting, (congrArg Switch.requests (State.dropped_switch _ hhandles 4)).trans hcap.requests, hqueues, hcores⟩

/-- A fragment for a context of the folio goes to that context's slice. -/
theorem State.fragments_lookup {x : Nat} (hclass : f.cls = .compute) (hown : f.destination = s.address) (hone : s.address ≠ 0xFFFF)
    (hpair : s.paired = false) (hgroup : s.groupCtx f.group = some x) :
    (((s.setWaiting p rest).lookupFrame f).port p).waiting = rest ∧
    ((s.setWaiting p rest).lookupFrame f).switch.fragments = s.switch.fragments ++ [((s.ctx x).slice, f)] ∧
    (∀ q, q ≠ p → ((s.setWaiting p rest).lookupFrame f).port q = s.port q) ∧
    ((s.setWaiting p rest).lookupFrame f).ctxs = s.ctxs ∧ ((s.setWaiting p rest).lookupFrame f).cores = s.cores := by
  have hcap := (s.setWaiting p rest).mirrorIngress_captured f 0
  rw [State.lookup_own (s := s.setWaiting p rest) hclass hown hone hpair]
  generalize (s.setWaiting p rest).mirrorIngress f 0 = m at hcap ⊢
  obtain ⟨hwaiting, hothers⟩ := hcap.of_setWaiting hports
  have hctxs : m.ctxs = s.ctxs := hcap.go.ctxs
  have hslice : (m.ctx x).slice = (s.ctx x).slice := by rw [State.ctx, hctxs, State.ctx]
  have hheld : m.groupCtx f.group = some x := by rw [State.groupCtx, hctxs, ← State.groupCtx, hgroup]
  rw [State.deliverCompute, hheld]
  dsimp only
  rw [hslice, hcap.fragments]
  exact ⟨hwaiting, rfl, hothers, hctxs, hcap.go.cores⟩

/-- A frame for another folio goes into the egress queue of its path. -/
theorem State.forward_lookup {q : Nat} (hforeign : f.cls = .compute ∧ s.takesAsOwn f = false ∨
      f.cls = .index ∧ f.destination ≠ s.address ∧ f.destination ≠ 0) (hone : f.destination ≠ 0xFFFF)
    (hroute : s.routeTo f = some q) (hcoast : s.clock.coasting = false) (hmode : s.mode q ≠ 4)
    (hclosed : (s.port q).closed f.vc = false) (hqueues : fwf Queue.reset (s.port q).queues = true) :
    (((s.setWaiting p rest).lookupFrame f).port p).waiting = rest ∧
    ((((s.setWaiting p rest).lookupFrame f).port q).queue f.vc).frames =
      ((s.port q).queue f.vc).frames ++ [{ f with queued := s.now }] ∧
    (∀ r, r ≠ q → r ≠ p → ((s.setWaiting p rest).lookupFrame f).port r = s.port r) ∧
    ((s.setWaiting p rest).lookupFrame f).switch.requests = s.switch.requests ∧
    ((s.setWaiting p rest).lookupFrame f).cores = s.cores ∧ ((s.setWaiting p rest).lookupFrame f).ctxs = s.ctxs := by
  have hcap := (s.setWaiting p rest).mirrorIngress_captured f 0
  have hcaptures := (s.setWaiting p rest).mirrorIngress_capturesOnly f 0
  obtain ⟨hup, hq⟩ := State.routeTo_up hroute
  rw [State.lookup_forward (s := s.setWaiting p rest) hforeign hone,
    State.forward_of_path ((State.routeTo_setWaiting hports p rest f).trans hroute)]
  generalize (s.setWaiting p rest).mirrorIngress f 0 = m at hcap hcaptures ⊢
  obtain ⟨hwaiting, hothers⟩ := hcap.of_setWaiting hports
  obtain ⟨w, hport⟩ := State.port_setWaiting_keeps hports p rest q
  rw [← hcap.port] at hport
  have hclock : m.clock = s.clock := hcap.go.clock
  have hmodes : m.mode q = s.mode q := hcaptures.idx_low (by decide) hq
  have hwf : fwf Port.reset m.ports = true := by
    rw [hcap.ports]
    exact State.setWaiting_portsWf hports p rest
  obtain ⟨⟨hframe, hstand⟩, hkept, hentered⟩ := State.enqueue_of_open_queue (s := m) (q := q) (f := f)
    ⟨hwf, by rw [hport]; exact hqueues⟩
    (by rw [hport]; exact hup) (by rw [hclock]; exact hcoast) (by rw [hmodes]; exact hmode) (by rw [hport]; exact hclosed)
  have hnow : m.now = s.now := by rw [State.now, hclock, State.now]
  have hqueue : (m.port q).queue f.vc = (s.port q).queue f.vc := by
    rw [hport]
    rfl
  rw [hqueue, hnow] at hentered
  generalize (m.enqueue q f).1 = t at hframe hstand hkept hentered ⊢
  refine ⟨?_, hentered, fun r hrq hrp => (hstand r hrq).trans (hothers r hrp), ?_, ?_, ?_⟩
  · by_cases hpq : p = q
    · subst hpq
      exact hkept.trans hwaiting
    · rw [hstand p hpq, hwaiting]
  · rw [hframe]
    exact hcap.requests
  · rw [hframe]
    exact hcap.go.cores
  · rw [hframe]
    exact hcap.go.ctxs

/-- A frame outside the leaves that is dropped at lookup is counted, and goes. -/
theorem State.dropIngress_lookup (hindex : indexWf s.index = true) (hhandles : f.handles = []) {entry : Nat}
    (he : 0x4000 ≤ entry ∧ entry < 0x4080) (reason : Nat) :
    (((s.setWaiting p rest).dropIngress f entry 0 reason).port p).waiting = rest ∧
    bits (((s.setWaiting p rest).dropIngress f entry 0 reason).idx entry 0) 63 0 = min (bits (s.idx entry 0) 63 0 + 1) (2 ^ 64 - 1) ∧
    (∀ q v, (((s.setWaiting p rest).dropIngress f entry 0 reason).port q).queue v = (s.port q).queue v) ∧
    ((s.setWaiting p rest).dropIngress f entry 0 reason).switch.requests = s.switch.requests ∧
    ((s.setWaiting p rest).dropIngress f entry 0 reason).cores = s.cores ∧
    ((s.setWaiting p rest).dropIngress f entry 0 reason).switch.macs = s.switch.macs := by
  obtain ⟨hlow, hhigh⟩ := he
  have hgo := (s.setWaiting p rest).dropIngress_framesGo f (entry := entry) (sub := 0) ⟨hlow, by omega⟩ (by decide) reason
  have hcounted := (s.setWaiting p rest).bits_idx_dropIngress hhandles reason hindex hhigh
  obtain ⟨hrequests, -, hmacs⟩ := (s.setWaiting p rest).dropIngress_switch hhandles reason entry 0
  obtain ⟨hwaiting, hqueues, hcores⟩ := hgo.of_setWaiting hports
  exact ⟨hwaiting, hcounted, hqueues, hrequests, hcores, hmacs⟩

end Taken

/-! ### The settlement -/

/-- What holds of a state whatever its device and its pending requests holds of the answer that the state ends. -/
theorem State.ends_keeps {s r : State} {P : State → Prop} (hP : ∀ t d n, P t → P { t with dev := d, pending := n }) (h : P r) :
    ∃ t, s.ends r = .next t ∧ P t := ⟨_, rfl, hP _ _ _ h⟩

/-- Settles O17, class by class: a frame that lands waits in the receive buffer or in fresh leaves, or is dropped; lookup hands it over,
forwards it or drops it. -/
theorem framesLandAndAreLookedUp : Obligations.FramesLandAndAreLookedUp := by
  unfold Obligations.FramesLandAndAreLookedUp
  refine ⟨fun s p b hcan hreceives => ?_, fun s p f rest hcan hclocks hwaiting => ?_⟩
  · obtain ⟨-, hports, -, -, hindex⟩ := hcan
    have hexec : exec (.frameLand p b) s = s.ends (s.land p b) := execFrameLand_of_receives hreceives b
    rw [hexec]
    refine ⟨fun hshort hlong hfcs hclass hmode hown hrequest => ?_,
      fun hshort hlong hfcs hclass hmode hkind hheader hlow hhigh he hc hf hcharged => ?_, fun h => ?_⟩
    · obtain ⟨f, ⟨hframe, hothers⟩, hport, hbytes, hvc, hin, hcls, hhandles⟩ :=
        State.land_request hports (p := p) (by simp [soundFrame, hshort, hlong, hfcs]) hclass hmode hown hrequest
      refine ⟨s.land p b, f, State.ends_of_fixed (by rw [hframe]) (by rw [hframe]), ?_, hbytes, hvc, hin, hcls,
        hhandles, ?_, ?_, hothers, hframe⟩ <;> rw [hport]
    · obtain ⟨f, hlands, hhandles, hvc, hin, hcls, hraw, hdestination⟩ :=
        State.land_compute hports (p := p) (by simp [soundFrame, hshort, hlong, hfcs]) hclass hmode hkind hheader hlow hhigh he hc hf
      obtain ⟨t, hends, hport, honDie, hothers, hcores, hctxs⟩ :=
        State.ends_keeps (s := s) (P := LandsInLeaves p (ceilDiv b.length 256) f s) (fun _ _ _ h => h) hlands
      refine ⟨t, f, hends, ?_, hhandles, hvc, hin, hcls, hraw, hdestination, ?_, honDie, ?_, hothers, hcores, hctxs⟩ <;> rw [hport]
      exact fget_fset_self hcharged _ _
    · have hsound : soundFrame b = false := by
        rcases h with h | h | h
        · simp [soundFrame, Nat.not_le.2 h]
        · simp [soundFrame, Nat.not_le.2 h]
        · simp [soundFrame, h]
      obtain ⟨hw, hcounted, hrequests, honDie, hfreed⟩ := State.land_unsound hports (p := p) hindex hsound
      exact State.ends_keeps (fun _ _ _ h => h) ⟨hw, hcounted, hrequests, honDie, hfreed p.isLt⟩
  · obtain ⟨-, hports, -, -, hindex⟩ := hcan
    have hexec : exec (.lookup p) s = s.ends ((s.setWaiting p rest).lookupFrame f) := execLookup_of_waiting hclocks hwaiting
    rw [hexec]
    refine ⟨fun hclass hown hport => ?_, fun hclass hzero hport hhandles => ?_, fun x hclass hown hone hpair hgroup => ?_,
      fun q hforeign hone hroute hcoast hmode hclosed hqueues => ?_, fun hclass hone hown hslot hhandles => ?_,
      fun e hclass hsingle hentry hback hhandles => ?_⟩
    · exact State.ends_keeps (fun _ _ _ h => h) (State.requests_lookup hports rest hclass hown hport)
    · exact State.ends_keeps (fun _ _ _ h => h) (State.stray_lookup hports rest hclass hzero hport hhandles)
    · exact State.ends_keeps (fun _ _ _ h => h) (State.fragments_lookup hports rest hclass hown hone hpair hgroup)
    · exact State.ends_keeps (fun _ _ _ h => h)
        (State.forward_lookup hports rest hforeign hone hroute hcoast hmode hclosed hqueues)
    · have hdrop := (State.lookup_forward (s := s.setWaiting p rest) (.inl ⟨hclass, hown⟩) hone).trans (State.forward_of_no_slot hslot)
      obtain ⟨hleft, hcounted, hqueues, hrequests, hcores, -⟩ :=
        State.dropIngress_lookup hports (p := p) rest hindex hhandles (entry := 0x4007) (by decide) 6
      rw [hdrop]
      exact State.ends_keeps (fun _ _ _ h => h) ⟨hleft, hcounted, hqueues, hrequests, hcores⟩
    · have hbytes := State.frameBytes_of_no_handles s (s.setWaiting p rest) hhandles
      have hdrop := State.lookup_bridge (s := s.setWaiting p rest) hclass (by rw [hbytes]; exact hsingle)
        (by rw [hbytes]; exact hentry) hback
      obtain ⟨hleft, hcounted, hqueues, -, -, hmacs⟩ :=
        State.dropIngress_lookup hports (p := p) rest hindex hhandles (entry := 0x4005) (by decide) 4
      rw [hdrop]
      exact State.ends_keeps (fun _ _ _ h => h) ⟨hleft, hqueues, hcounted, hmacs⟩

end Sys2Proof.Machine
end
